-- ==== Sys2Proof/Config.lean ====
section
/-! DEFINITION. What the manual fixes for every AC740: sizes, ranges and intervals, each with the rule that gives it.
The manual leaves no value of the machine open that a command reads, so there is no free value here. -/

namespace Sys2Proof.Config

/-- Bytes of a block, logical, unit, spare or system alike (00_scope, Conventions). -/
abbrev blockSize : Nat := 4096
/-- Data blocks of a unit, and the logical blocks each member holds (R1, R3). -/
abbrev dataBlocks : Nat := 65536
/-- Spares of a unit (R1). -/
abbrev spares : Nat := 1024
/-- First spare block of a unit (R1). -/
abbrev spareBase : Nat := 65536
/-- First system block of a unit, block 0 of slot A (R1). -/
abbrev systemBase : Nat := 66560
/-- Blocks of one system slot (R1). -/
abbrev slotBlocks : Nat := 16
/-- Unit blocks of an accepted unit (R1, R91). -/
abbrev unitBlocks : Nat := 66592
/-- The answer timer of a media command, in microseconds (R73). -/
abbrev answerTimeout : Nat := 2000
/-- FOREGROUND places of a channel queue (R76). -/
abbrev foregroundPlaces : Nat := 3
/-- Steps a context may have outstanding (R61). -/
abbrev maxOutstanding : Nat := 4
/-- Move slots of a unit (R104). -/
abbrev moveSlots : Nat := 4
/-- Places of the request list for requests that name no waiting context (R104). -/
abbrev untiedPlaces : Nat := 8
/-- Spares one move tries at most (R108). -/
abbrev maxSpares : Nat := 3
/-- Patrol log slots (R131). -/
abbrev logSlots : Nat := 16
/-- Largest count of an event slot (R181). -/
abbrev maxEventCount : Nat := 4294967295
/-- Largest refused-signal count (R157). -/
abbrev maxRefused : Nat := 65535
/-- Largest generation and write sequence (R142). -/
abbrev maxGeneration : Nat := 18446744073709551615
/-- Largest route count (R184). -/
abbrev maxRouteCount : Nat := 64
/-- The part code of IDENT and of the identity entry (section 10.1, R195). -/
abbrev partCode : Nat := 0xAC0740
/-- The revision of parts the manual describes (section 10.1). -/
abbrev revision : Nat := 1
/-- How many internal effects one command may set off before the model stops working them off.
DESIGN CHOICE, log entry 3. -/
abbrev cascadeBound : Nat := 1048576

end Sys2Proof.Config
end

