-- ==== Sys2Proof/Word.lean ====
section
/-! DEFINITION. The words of the AC740: bytes, host addresses, ticks, sequence numbers, and the index types of its
fixed groups of blocks (four lanes, four units on four channels, eight contexts). -/

namespace Sys2Proof

/-- One byte of a record, a buffer, a block or a register. -/
abbrev Byte := BitVec 8

/-- A run of bytes: a record, a host buffer, a media block, a device-area write. -/
abbrev Bytes := List Byte

/-- A 32-bit register or record field. -/
abbrev Word32 := BitVec 32

/-- A host address (64 bits, section 2.12 and R194). -/
abbrev Addr := BitVec 64

/-- The free-running microsecond tick (R190). -/
abbrev Tick := BitVec 64

/-- A record's sequence number, counted modulo 2^32 (R157, R162). -/
abbrev Seq := BitVec 32

/-- One of the four lanes (chapter 8). -/
abbrev LaneId := Fin 4

/-- One of the four media units, and the channel that drives it (chapter 4). -/
abbrev UnitId := Fin 4

/-- One of the eight execution contexts (chapter 3). -/
abbrev CtxId := Fin 8

end Sys2Proof
end

