-- ==== Sys2Proof/Syntax.lean ====
section
/-! DEFINITION. The commands of the AC740: one constructor of `Instr` for each of the 54 rows of spec/opcode_table.json.
A command is one event of the manual (00_scope, Conventions, Time): a register write by host software, the grant of a
record of one operation, the end of a host read or write, a unit's answer, a timer's expiry or a reset. -/

namespace Sys2Proof

/-- What takes a cold reset (R201). -/
inductive ResetSource
  | powerOn
  | resetInput
  | busReset
  deriving DecidableEq, Repr

/-- The end of a host read, as the LIF returns it (R190): the data, or the bus error. -/
inductive HostResult (α : Type)
  | data (v : α)
  | busError
  deriving DecidableEq, Repr

/-- A unit's answer to IDENTIFY (R72, R73): an IDENTITY with block size and block count, or anything else. -/
inductive IdentityAnswer
  | identity (blockSize blockCount : Word32)
  | other
  deriving DecidableEq, Repr

/-- A unit's answer to READ (R72). -/
inductive ReadAnswer
  | clean (data : Bytes)
  | corrected (k : Nat) (data : Bytes)
  | blank
  | uncorrectable
  deriving DecidableEq, Repr

/-- A unit's answer to PROGRAM or CLEAR (R72). -/
inductive ProgramAnswer
  | ok
  | programFail
  deriving DecidableEq, Repr

/-- The two message-interrupt routes (R184). -/
inductive RouteId
  | a
  | b
  deriving DecidableEq, Repr

/-- The commands, in the order of spec/opcode_table.json. An answer and an answer-timer expiry name the sending
(the attempt) they belong to, since R73 discards an answer whose attempt has ended (log entry 4). The end of a settings read names
the number of its read, since R196 discards the data of a withdrawn one, and the end of any other host access the epoch the access
was issued in, since R198 and R201 discard what was issued before a halt or a cold reset (log entry 75); one that names none is of number
or epoch 0. -/
inductive Instr
  /-- COLD_RESET (R201). -/
  | coldReset (source : ResetSource)
  /-- RUN (R196): a CONTROL write with RUN alone. -/
  | run
  /-- RUN_TAKEN (R196): the end of the settings read of that number, bytes 0 to 63 of the host area. -/
  | runTaken (read : HostResult Bytes) (number : Nat := 0)
  /-- STOP (R197): a CONTROL write with STOP alone. -/
  | stop
  /-- RESET (R200): a CONTROL write with RESET alone. -/
  | reset
  /-- ANCHOR_HI (R194). -/
  | anchorHi (value : Word32)
  /-- ANCHOR_LO (R194). -/
  | anchorLo (value : Word32)
  /-- START (R159): a LANE_SIGNAL write, with its lane mask. -/
  | start (mask : BitVec 4)
  /-- LOOK (R167). -/
  | look (mask : BitVec 4)
  /-- ABORT (R173). -/
  | abort (mask : BitVec 4)
  /-- ACKNOWLEDGE (R186): an ATTN write, bit 0 route A and bit 1 route B. -/
  | acknowledge (mask : BitVec 2)
  /-- IGNORED_WRITE (R188): offset, width in bytes and value of a write without effect. -/
  | ignoredWrite (offset : Nat) (width : Nat) (value : Word32)
  /-- READ (R37): the grant of a READ record, as the rows after it are grants of theirs. -/
  | read
  /-- WRITE (R44). -/
  | write
  /-- FILL (R45). -/
  | fill
  /-- COPY (R46). -/
  | copy
  /-- VERIFY (R39). -/
  | verify
  /-- DIGEST (R41). -/
  | digest
  /-- RELOCATE (R47). -/
  | relocate
  /-- BARRIER (R52). -/
  | barrier
  /-- TABLE_READ (R50). -/
  | tableRead
  /-- START_PASS (R132). -/
  | startPass
  /-- STOP_PASS (R133). -/
  | stopPass
  /-- SET (R134). -/
  | setPatrol
  /-- REGION_DEFINE (R14). -/
  | regionDefine
  /-- REGION_DELETE (R15). -/
  | regionDelete
  /-- REGION_GUARD (R16). -/
  | regionGuard
  /-- REGION_RELEASE (R17). -/
  | regionRelease
  /-- REGION_FIX (R18). -/
  | regionFix
  /-- LOCKDOWN (R19). -/
  | lockdown
  /-- BAD_OP (R33). -/
  | badOp
  /-- LIST_READ_END (R30): the bytes of the external segment list of context `ctx`. -/
  | listReadEnd (ctx : CtxId) (read : HostResult Bytes) (epoch : Nat := 0)
  /-- TAKE_BLOCK (R61). -/
  | takeBlock (ctx : CtxId)
  /-- HOST_READ_END (R44): the buffer bytes of block `j`. -/
  | hostReadEnd (ctx : CtxId) (j : Nat) (read : HostResult Bytes) (epoch : Nat := 0)
  /-- BUFFER_WRITE_END (R37): the buffer write of block `j` completed, with or without a bus error. -/
  | bufferWriteEnd (ctx : CtxId) (j : Nat) (error : Bool) (epoch : Nat := 0)
  /-- FINAL_WRITE (R66). -/
  | finalWrite (ctx : CtxId)
  /-- RESULT_ERROR (R36). -/
  | resultError (epoch : Nat := 0)
  /-- CONFIG_READ_END (R160): the 64 bytes of the lane's configuration entry. -/
  | configReadEnd (lane : LaneId) (read : HostResult Bytes) (epoch : Nat := 0)
  /-- FETCH_END (R162): the 128 bytes of the record fetched. -/
  | fetchEnd (lane : LaneId) (read : HostResult Bytes) (epoch : Nat := 0)
  /-- LINK_READ_END (R165): the link field read. -/
  | linkReadEnd (lane : LaneId) (read : HostResult Addr) (epoch : Nat := 0)
  /-- POLL_EXPIRY (R166). -/
  | pollExpiry (lane : LaneId)
  /-- IDENTIFY_ANSWER (R91). -/
  | identifyAnswer (chan : UnitId) (attempt : Nat) (answer : IdentityAnswer)
  /-- READ_ANSWER (R85). -/
  | readAnswer (chan : UnitId) (attempt : Nat) (answer : ReadAnswer)
  /-- PROGRAM_ANSWER (R86). -/
  | programAnswer (chan : UnitId) (attempt : Nat) (answer : ProgramAnswer)
  /-- CLEAR_ANSWER (R86). -/
  | clearAnswer (chan : UnitId) (attempt : Nat) (answer : ProgramAnswer)
  /-- NO_RESPONSE (R73). -/
  | noResponse (chan : UnitId) (attempt : Nat)
  /-- PACE_EXPIRY (R125). -/
  | paceExpiry (media : UnitId)
  /-- SETTLE_EXPIRY (R126). -/
  | settleExpiry (media : UnitId)
  /-- DEVICE_AREA_WRITE (R178). -/
  | deviceAreaWrite
  /-- DEVICE_AREA_ERROR (R180). -/
  | deviceAreaError (epoch : Nat := 0)
  /-- HOLD_EXPIRY (R185). -/
  | holdExpiry (route : RouteId)
  /-- CONTROL_REFUSED (R189): the low three bits written to CONTROL, more than one of them set. -/
  | controlRefused (bits : BitVec 3)
  /-- DEVICE_AREA_WRITE_COMPLETED (R200). -/
  | deviceAreaWriteCompleted (epoch : Nat := 0)
  /-- RESET_INPUT_RELEASE (R201). -/
  | resetInputRelease
  deriving DecidableEq, Repr

end Sys2Proof
end

