-- ==== Sys2Proof/WellFormed.lean ====
section
/-! DEFINITION. Which commands the outside world can form: lengths of the data a read returns and ranges of the numbers a
command carries. The meanings do not test it (a queued command is run whatever it holds); statements and tests use it. -/

namespace Sys2Proof

/-- The data of a host read has the length of the access; a bus error carries none. -/
def HostResult.lengthIs (n : Nat) : HostResult Bytes → Bool
  | .data v => v.length == n
  | .busError => true

/-- A READ answer with data carries one block (R72); CORRECTED(k) has k from 1 to 8 (R72, R73). -/
def ReadAnswer.wellFormed : ReadAnswer → Bool
  | .clean d => d.length == Config.blockSize
  | .corrected k d => decide (1 ≤ k) && decide (k ≤ 8) && (d.length == Config.blockSize)
  | .blank => true
  | .uncorrectable => true

/-- How many of three CONTROL bits are set. -/
def controlBits (b : BitVec 3) : Nat :=
  (b.getLsbD 0).toNat + (b.getLsbD 1).toNat + (b.getLsbD 2).toNat

/-- A write that R188 ignores: to IDENT, STATE or TICK, to offsets 0x20 to 0x3F, narrower than 32 bits, or of no
named action (a CONTROL write with no bit set, a LANE_SIGNAL write of no action or no lane, an ATTN write of no route). -/
def ignoredWriteOk (offset width : Nat) (value : Word32) : Bool :=
  decide (offset < 64) &&
    (decide (width < 4) || decide (32 ≤ offset) || offset == 0 || offset == 4 || offset == 28
      || (offset == 8 && (value.extractLsb' 0 3 == 0))
      || (offset == 20 && (value.extractLsb' 0 2 == 0 || value.extractLsb' 8 4 == 0))
      || (offset == 24 && (value.extractLsb' 0 2 == 0)))

/-- The commands the outside world can form. -/
def Instr.wellFormed : Instr → Bool
  | .coldReset _ => true
  | .run => true
  | .runTaken r _ => r.lengthIs 64
  | .stop => true
  | .reset => true
  | .anchorHi _ => true
  | .anchorLo _ => true
  | .start m => m != 0
  | .look m => m != 0
  | .abort m => m != 0
  | .acknowledge m => m != 0
  | .ignoredWrite o w v => ignoredWriteOk o w v
  | .read => true
  | .write => true
  | .fill => true
  | .copy => true
  | .verify => true
  | .digest => true
  | .relocate => true
  | .barrier => true
  | .tableRead => true
  | .startPass => true
  | .stopPass => true
  | .setPatrol => true
  | .regionDefine => true
  | .regionDelete => true
  | .regionGuard => true
  | .regionRelease => true
  | .regionFix => true
  | .lockdown => true
  | .badOp => true
  | .listReadEnd _ r _ =>
    match r with
    | .data v => decide (v.length ≤ 1024) && (v.length % 16 == 0)
    | .busError => true
  | .takeBlock _ => true
  | .hostReadEnd _ j r _ => decide (j < 4096) && r.lengthIs Config.blockSize
  | .bufferWriteEnd _ j _ _ => decide (j < 4096)
  | .finalWrite _ => true
  | .resultError _ => true
  | .configReadEnd _ r _ => r.lengthIs 64
  | .fetchEnd _ r _ => r.lengthIs 128
  | .linkReadEnd _ _ _ => true
  | .pollExpiry _ => true
  | .identifyAnswer _ _ _ => true
  | .readAnswer _ _ a => a.wellFormed
  | .programAnswer _ _ _ => true
  | .clearAnswer _ _ _ => true
  | .noResponse _ _ => true
  | .paceExpiry _ => true
  | .settleExpiry _ => true
  | .deviceAreaWrite => true
  | .deviceAreaError _ => true
  | .holdExpiry _ => true
  | .controlRefused b => decide (2 ≤ controlBits b)
  | .deviceAreaWriteCompleted _ => true
  | .resetInputRelease => true

end Sys2Proof
end

