-- ==== Sys2Proof/Decode.lean ====
section
/-! DEFINITION. Which command a word spells. The rows of spec/opcode_table.json give no bits, so no word spells one
(`decodeTableWord`). What the manual does lay out is the register window: `windowCommand` is the command a host write to
the window makes, by its offset and width (R188 and the register layouts of section 10.1). -/

namespace Sys2Proof

/-- The command a table word spells: none, since no row of the table has bits. -/
def decodeTableWord (_nbits _w : Nat) : Option Instr := none

/-- A 32-bit write to CONTROL: RUN, STOP or RESET alone, or refused with more than one (R189, R196, R197, R200). -/
def controlCommand (value : Word32) : Instr :=
  let bits := value.extractLsb' 0 3
  if bits = 1 then .run
  else if bits = 2 then .stop
  else if bits = 4 then .reset
  else if bits = 0 then .ignoredWrite 8 4 value
  else .controlRefused bits

/-- A 32-bit write to LANE_SIGNAL: action in bits 1-0, lane mask in bits 11-8 (R188). -/
def laneSignalCommand (value : Word32) : Instr :=
  let action := value.extractLsb' 0 2
  let mask := value.extractLsb' 8 4
  if action = 0 ∨ mask = 0 then .ignoredWrite 20 4 value
  else if action = 1 then .start mask
  else if action = 2 then .look mask
  else .abort mask

/-- A 32-bit write to ATTN (R186, R188). -/
def attnCommand (value : Word32) : Instr :=
  let mask := value.extractLsb' 0 2
  if mask = 0 then .ignoredWrite 24 4 value else .acknowledge mask

/-- The command a write of `width` bytes at `offset` of the register window makes (R188). A write wider than 32 bits is
taken as a 32-bit write at its offset (log entry 62). `none` is a write that is not
one of the window's: an offset beyond it, or four bytes that straddle two registers. -/
def windowCommand (offset width : Nat) (value : Word32) : Option Instr :=
  if 64 ≤ offset then none
  else if width < 4 then some (.ignoredWrite offset width value)
  else if offset % 4 ≠ 0 then none
  else if offset = 8 then some (controlCommand value)
  else if offset = 12 then some (.anchorLo value)
  else if offset = 16 then some (.anchorHi value)
  else if offset = 20 then some (laneSignalCommand value)
  else if offset = 24 then some (attnCommand value)
  else some (.ignoredWrite offset width value)

end Sys2Proof
end

