-- ==== Sys2Proof/Machine/Bytes.lean ====
section
/-! DEFINITION. Little-endian fields (section 2.12) and the CRC-32C of R41, over lists of bytes. -/

namespace Sys2Proof.Machine

/-- `v` as `k` bytes, least significant first; higher bits fall away. -/
def leBytes : Nat → Nat → Bytes
  | 0, _ => []
  | k + 1, v => BitVec.ofNat 8 v :: leBytes k (v / 256)

/-- The number a little-endian run of bytes holds. -/
def leValue : Bytes → Nat
  | [] => 0
  | b :: bs => b.toNat + 256 * leValue bs

/-- A function of every element of a fixed group, in a form the kernel evaluates. -/
def mapVec {α β : Type} {n : Nat} (f : α → β) (v : Vector α n) : Vector β n := Vector.ofFn fun i => f v[i]

/-- The little-endian field of `len` bytes at byte `off`. -/
def field (bs : Bytes) (off len : Nat) : Nat := leValue ((bs.drop off).take len)

/-- The byte at `off`, 0 beyond the end. -/
def byteAt (bs : Bytes) (off : Nat) : Byte := bs.getD off 0

/-- `n` zero bytes. -/
def zeros (n : Nat) : Bytes := List.replicate n 0

/-- A block of zeros, what a BLANK block reads as (R72). -/
def zeroBlock : Bytes := zeros Config.blockSize

/-- `bs` followed by zeros up to `n` bytes. -/
def padTo (n : Nat) (bs : Bytes) : Bytes := bs ++ zeros (n - bs.length)

/-- `bs` with the bytes from `off` on replaced by `new`. -/
def splice (bs : Bytes) (off : Nat) (new : Bytes) : Bytes :=
  bs.take off ++ new ++ bs.drop (off + new.length)

/-- Every bit set in a 32-bit field (00_scope, Field layouts). -/
def allOnes32 : Word32 := BitVec.allOnes 32

/-- One bit of CRC-32C, polynomial 0x1EDC6F41 in bit-reflected form (R41). -/
def crcBit (c : Word32) : Word32 :=
  if c.getLsbD 0 then (c >>> 1) ^^^ 0x82F63B78#32 else c >>> 1

/-- One byte of CRC-32C, least significant bit first (R41). -/
def crcByte (c : Word32) (b : Byte) : Word32 :=
  crcBit (crcBit (crcBit (crcBit (crcBit (crcBit (crcBit (crcBit (c ^^^ b.setWidth 32))))))))

/-- The CRC register after further bytes, in order (R41). -/
def crcFold (c : Word32) (bs : Bytes) : Word32 := bs.foldl crcByte c

/-- The CRC register before the first byte (R41). -/
def crcInit : Word32 := BitVec.allOnes 32

/-- The CRC-32C of a run of bytes (R41). -/
def crc32c (bs : Bytes) : Word32 := ~~~ crcFold crcInit bs

/-- Whether a timer's expiry tick has been reached. The tick is 64 bits wide; ticks less than 2^63 apart are compared
(log entry 23). -/
def reached (now expiry : Tick) : Bool := !(now - expiry).msb

end Sys2Proof.Machine
end

