-- ==== Sys2Proof/Machine/State.lean ====
section
/-! DEFINITION. The state of the AC740, block by block as 00_scope lists them, plus the queue of commands that wait.
Everything is plain data. The reset value is the device right after a power-on cold reset (R201), its probe begun (R192). -/

namespace Sys2Proof.Machine

/-! ### Device and register window (chapter 10) -/

/-- The five device states (R191). -/
inductive DevState
  | probing | stopped | running | stopping | halted
  deriving DecidableEq, Repr

/-- The fault code of STATE (R189). -/
inductive FaultCode
  | none | anchorRefused | noAnchor | controlRefused | probeLayout | deviceAreaError | resultError
  deriving DecidableEq, Repr

/-- Device state, fault code, warm reset in progress, RUN pending (R189, R191, R196, R200), and the level of the reset
input (section 10.8), true while it is asserted. -/
structure Device where
  state : DevState
  fault : FaultCode
  resetInProgress : Bool
  runPending : Bool
  resetAsserted : Bool
  deriving DecidableEq, Repr

/-- Where a cause is routed: none, route A or route B (R156, R160). -/
inductive RouteSel
  | none | a | b
  deriving DecidableEq, Repr

/-- Hold time in microseconds and count threshold of one route (R156). -/
structure RouteCfg where
  hold : Nat
  threshold : Nat
  deriving DecidableEq, Repr

/-- The device-wide settings in force (R156). -/
structure Settings where
  spareLow : Nat
  routeA : RouteCfg
  routeB : RouteCfg
  eventRoutes : Vector RouteSel 10
  deriving DecidableEq, Repr

/-- What the LIF tells the ends of host accesses apart by, counts of the model's own (log entry 75): the settings reads issued so
far (R196), and the halts and cold resets that have cut off the accesses issued before them (R198, R201). -/
structure Lif where
  settingsReads : Nat
  epoch : Nat
  deriving DecidableEq, Repr

/-! ### Region table (chapter 1) -/

/-- Protection state of a defined region (R12). -/
inductive RegionState
  | opened | guarded | fixed
  deriving DecidableEq, Repr

/-- The durable fields of a defined region (R5). -/
structure RegionDef where
  base : Nat
  length : Nat
  owners : BitVec 4
  state : RegionState
  label : BitVec 16
  fixedGen : Option Nat
  deriving DecidableEq, Repr

/-- A region change that has been accepted (R14 to R18). -/
inductive RegionOp
  | define (base length : Nat) (owners : BitVec 4) (label : BitVec 16)
  | delete
  | guard
  | release
  | fix
  deriving DecidableEq, Repr

/-- One entry of the region table (R5): the durable fields when defined, users, the pending mark with the change that
waits, and the closing mark. -/
structure RegionEntry where
  live : Option RegionDef
  users : Nat
  pending : Option RegionOp
  closing : Bool
  deriving DecidableEq, Repr

/-! ### Records and contexts (chapters 2 and 3) -/

/-- The twenty status codes (R32). -/
inductive Status
  | ok | badOp | badArg | noRegion | indexInUse | outOfRange | notOwner | noRight | isProtected | lockedDown
  | overlap | regionBusy | patrolBusy | unitOffline | dataLost | writeFailed | noSpare | hostMemory | commitFailed | aborted
  deriving DecidableEq, Repr

/-- The three final values of the state byte (R26). -/
inductive FinalState
  | done | failed | cancelled
  deriving DecidableEq, Repr

/-- One segment of a host buffer (section 2.3). -/
structure Segment where
  addr : Addr
  len : Nat
  deriving DecidableEq, Repr

/-- The six context states (R54). -/
inductive CtxState
  | free | loading | issuing | drainingSteps | commitWait | finishing
  deriving DecidableEq, Repr

/-- The command of a block step (R72). -/
inductive StepCmd
  | read | program | clear
  deriving DecidableEq, Repr

/-- The phase of a block taken into issue and not yet ended (R53). `bufferWrite` is a READ or TABLE_READ buffer write in
flight at the LIF. -/
inductive BlockPhase
  | hostRead
  | outstanding (cmd : StepCmd)
  | held (cmd : StepCmd)
  | awaitMove
  | awaitCommit
  | bufferWrite
  | fold
  deriving DecidableEq, Repr

/-- One row of a context's block table (R53). -/
structure BlockEntry where
  j : Nat
  phase : BlockPhase
  deriving DecidableEq, Repr

/-- One staging buffer (R62): the block it is bound to, if any, and its data. `data` is absent while the buffer holds no
defined data (R53). -/
structure StagingBuf where
  bound : Option Nat
  data : Option Bytes
  deriving DecidableEq, Repr

/-- The device part of a record (R34). -/
structure DevicePart where
  status : Status
  blocksOk : Nat
  firstFail : Word32
  corrected : Nat
  weak : Nat
  result : BitVec 64
  startStamp : Tick
  endStamp : Tick
  deriving DecidableEq, Repr

/-- One execution context (R53). Beside the items of R53's table it holds what the rules make it remember: the first
logical blocks of its ranges (R21), the regions whose users it raised (R9), whether a step was refused under R23, the lowest
block whose host read failed (R44), what it waits on (R65, R60), the result word decided so far, the snapshot's generation
and size (R50), and, in FINISHING, the final state with the device part (R66). -/
structure Context where
  state : CtxState
  record : Bytes
  addr : Addr
  lane : LaneId
  tableRight : Bool
  segs : List Segment
  listReading : Bool
  cursor : Nat
  blocks : List BlockEntry
  bufs : Vector StagingBuf 4
  crc : Word32
  foldNext : Nat
  failure : Option (Nat × Status)
  refusal : Option Status
  otherFail : Option Status
  stepRefused : Bool
  hostFailed : Option Nat
  blocksOk : Nat
  corrected : Nat
  weak : Nat
  moveReqs : Nat
  abortMark : Bool
  startStamp : Tick
  endStamp : Tick
  srcBase : Nat
  dstBase : Nat
  raised : List Nat
  waitCommit : Bool
  waitPass : Bool
  result : BitVec 64
  snapGen : Option Word32
  snapSize : Nat
  written : Nat
  final : Option (FinalState × DevicePart)
  deriving DecidableEq, Repr

/-- The dispatch arbiter (R58): weight, cap and credit of each lane, and the rotation pointer. -/
structure Dar where
  weight : Vector Nat 4
  cap : Vector Nat 4
  credit : Vector Nat 4
  pointer : LaneId
  deriving DecidableEq, Repr

/-! ### Lanes (chapter 8) -/

/-- The seven lane states (R158). -/
inductive LaneState
  | off | seeking | staged | parkedEnd | parkedUnposted | faulted | draining
  deriving DecidableEq, Repr

/-- A lane's fault code (section 8.1). -/
inductive LaneFault
  | none | seqBreak | badLink | fetchError | badConfig
  deriving DecidableEq, Repr

/-- A lane's host read in flight, with the address it reads (R157). -/
inductive LaneRead
  | config
  | fetch (addr : Addr)
  | link (addr : Addr)
  deriving DecidableEq, Repr

/-- The condition of a record in the lane window (R168). -/
inductive RecCond
  | staged
  | running (ctx : CtxId)
  | final (fs : FinalState)
  deriving DecidableEq, Repr

/-- One record of the lane window (R168); `granted` tells a dispatched record from one that never was. -/
structure WinRec where
  seq : Seq
  addr : Addr
  cond : RecCond
  granted : Bool
  linkRead : Bool
  fence : Bool
  notify : Bool
  deriving DecidableEq, Repr

/-- The lane's part of a configuration entry (R157); weight and cap are the DAR's. -/
structure LaneCfg where
  head : Addr
  initSeq : Seq
  notify : RouteSel
  tableRight : Bool
  poll : Nat
  deriving DecidableEq, Repr

/-- A lane status entry (section 8.1). -/
structure LaneStatus where
  retireSeq : Seq
  state : LaneState
  fault : LaneFault
  refused : Nat
  resume : Addr
  faultAddr : Addr
  expSeq : Seq
  dispatched : Nat
  staged : Bool
  deriving DecidableEq, Repr

/-- One lane fetch unit (R157). `drainNext` is the address the lane was about to fetch when it was aborted, updated by the
reads that end during the drain (R173, R174). -/
structure Lane where
  state : LaneState
  cfg : LaneCfg
  reading : Option LaneRead
  target : Option Addr
  drainNext : Option Addr
  expSeq : Seq
  window : List WinRec
  staged : Option Bytes
  retireSeq : Seq
  resume : Addr
  fault : LaneFault
  faultAddr : Addr
  refused : Nat
  poll : Option Tick
  lastStatus : Option LaneStatus
  deriving DecidableEq, Repr

/-! ### Channels (chapter 4) -/

/-- The four unit states (R90). -/
inductive UnitState
  | absent | online | degraded | offline
  deriving DecidableEq, Repr

/-- Whose entry a queue entry is, with what it carries (R76). A move is named by its number at the relocation table. -/
inductive Source
  | commit
  | move (mid : Nat)
  | foreground (ctx : CtxId) (j : Nat) (lane : LaneId) (region : Nat) (moveOnWeak : Bool)
  | patrol
  deriving DecidableEq, Repr

/-- One queue entry (R76): its source, its command and the unit block it names. -/
structure QEntry where
  source : Source
  cmd : StepCmd
  block : Nat
  deriving DecidableEq, Repr

/-- What a channel's link is doing (R75): nothing, IDENTIFY at probe, or one entry with its target, the attempt, the
number of the sending, the answer timer's expiry, the data a program carries, and whether the target is the spare of a
poisoned entry (R82, R86). -/
inductive Link
  | idle
  | identify (second : Bool) (attempt : Nat) (expiry : Tick)
  | performing (entry : QEntry) (target : Nat) (second : Bool) (attempt : Nat) (expiry : Tick) (data : Bytes) (poisoned : Bool)
  deriving DecidableEq, Repr

/-- A move lock (R88): the unit block, the move that holds it, and the held steps in order. -/
structure Lock where
  block : Nat
  mid : Nat
  held : List (CtxId × Nat)
  deriving DecidableEq, Repr

/-- A patrol mark (R87). -/
inductive Mark
  | cleanSinceRead
  | rewritten
  deriving DecidableEq, Repr

/-- The move buffer (R83): free, or bound to a move with its data once read. -/
structure MoveBuf where
  mid : Nat
  data : Option Bytes
  deriving DecidableEq, Repr

/-- One channel controller (R75). The entry being performed stands in `link`, the entries not yet started in `queue`, so
the queue of the manual is both. `sent` counts the commands sent; `identified` is the judged IDENTIFY answer of the probe. -/
structure Channel where
  state : UnitState
  member : Bool
  link : Link
  queue : List QEntry
  waiting : List QEntry
  locks : List Lock
  marks : List (Nat × Mark)
  moveBuf : Option MoveBuf
  lastDeparture : Option Tick
  sent : Nat
  identified : Option Bool
  deriving DecidableEq, Repr

/-! ### Relocation tables (chapter 5) -/

/-- The cause of a move (R97, R101). -/
inductive Cause
  | patrolWeak | readWeak | readLost | programFail | directed
  deriving DecidableEq, Repr

/-- A relocation entry (R97). -/
structure RelEntry where
  src : Nat
  spare : Nat
  cause : Cause
  poisoned : Bool
  gen : Nat
  deriving DecidableEq, Repr

/-- The durable part of a unit's relocation table: entries in ascending from-block order and the dead spares (R97, R99). -/
structure UnitTable where
  entries : List RelEntry
  dead : List Nat
  deriving DecidableEq, Repr

/-- A context block that waits on a move: of a PROGRAM_FAIL request, or of a RELOCATE (R101, R103). -/
structure Waiter where
  ctx : CtxId
  j : Nat
  directed : Bool
  deriving DecidableEq, Repr

/-- The mark of a patrol finding (R101, R128): its pass number and whether it is a READ_LOST finding. -/
structure FindingTag where
  pass : Word32
  lost : Bool
  deriving DecidableEq, Repr

/-- A move request (R101). `readTarget` is the target of the foreground read it came from, `dataFrom` the staging buffer a
PROGRAM_FAIL move takes its data from, `blank` a PROGRAM_FAIL of a clear step. -/
structure MoveReq where
  src : Nat
  cause : Cause
  lane : Option LaneId
  region : Option Nat
  readTarget : Option Nat
  waiters : List Waiter
  finding : Option FindingTag
  blank : Bool
  dataFrom : Option (CtxId × Nat)
  deriving DecidableEq, Repr

/-- The four move states (section 5.4). -/
inductive MoveState
  | starting | reading | writing | batched
  deriving DecidableEq, Repr

/-- A move in a slot (section 5.4), with its reserved spare and how many spares it has tried. -/
structure Move where
  mid : Nat
  req : MoveReq
  state : MoveState
  spare : Nat
  tries : Nat
  deriving DecidableEq, Repr

/-- One unit's relocation table (R97 to R104). RESERVED is derived: the spares of the moves in slots. `nextMid` numbers the
moves. -/
structure Rlt where
  table : UnitTable
  failing : List Nat
  moves : List Move
  requests : List MoveReq
  nextMid : Nat
  deriving DecidableEq, Repr

/-! ### Patrol (chapter 6) -/

/-- The four patrol settings (R120). -/
structure PatrolCfg where
  pace : Nat
  settle : Nat
  weak : Nat
  auto : Bool
  deriving DecidableEq, Repr

/-- The five tallies of a pass (R121). -/
structure Tallies where
  read : Nat
  corrected : Nat
  weakMoved : Nat
  lostFound : Nat
  blankSkipped : Nat
  deriving DecidableEq, Repr

/-- The seven sub-states of a member unit (R123). -/
inductive SubState
  | ready | readOut | paceWait | suspended | moveWait | finished | stoppedUnit
  deriving DecidableEq, Repr

/-- The per-unit items of patrol (R121). A timer is running to an expiry tick or stopped (an expired one is stopped). -/
structure PatrolUnit where
  cursor : Nat
  sub : SubState
  paceTimer : Option Tick
  settleTimer : Option Tick
  findings : List Nat
  deriving DecidableEq, Repr

/-- The patrol unit (R120, R121). -/
structure Patrol where
  cfg : PatrolCfg
  passNumber : Word32
  running : Bool
  stopMark : Bool
  stopList : List CtxId
  startStamp : Tick
  tallies : Tallies
  units : Vector PatrolUnit 4
  deriving DecidableEq, Repr

/-- How a pass ended (R130). -/
inductive PassOutcome
  | complete | stopped | reset
  deriving DecidableEq, Repr

/-- One patrol log entry (R131). -/
structure LogEntry where
  pass : Word32
  outcome : PassOutcome
  unitsStopped : Nat
  startStamp : Tick
  endStamp : Tick
  endGen : Nat
  tallies : Tallies
  deriving DecidableEq, Repr

/-- The patrol log: 16 slots and the pointer, 0 or 1 to 16 (R131). -/
structure PatrolLog where
  slots : Vector (Option LogEntry) 16
  pointer : Nat
  deriving DecidableEq, Repr

/-! ### Commit engine (chapter 7) -/

/-- The two slots of a unit's system area (R1, R141). -/
inductive Slot
  | a | b
  deriving DecidableEq, Repr

/-- The durable tables (chapter 7): regions, relocation tables with their dead sets, patrol log. -/
structure Durable where
  regions : Vector (Option RegionDef) 32
  units : Vector UnitTable 4
  log : PatrolLog
  deriving DecidableEq, Repr

/-- A table image (R138, R139), less copy unit, copy slot and check word, which differ between its copies. -/
structure Image where
  gen : Nat
  wseq : Nat
  width : Nat
  patrol : PatrolCfg
  passNumber : Word32
  tables : Durable
  deriving DecidableEq, Repr

/-- A change in a batch (R144). An entry change carries the content its move gives the entry; a poison clear its waiting
blocks. -/
inductive Change
  | region (index : Nat) (lane : LaneId) (ctx : CtxId) (op : RegionOp)
  | entry (media : UnitId) (mid : Nat) (src spare : Nat) (cause : Cause) (poisoned : Bool) (lane : Option LaneId)
  | dead (media : UnitId) (spare : Nat)
  | poisonClear (media : UnitId) (block : Nat) (waiters : List (CtxId × Nat))
  | log (e : LogEntry)
  | config (ctx : CtxId)
  deriving DecidableEq, Repr

/-- How one copy of an image stands (R146, R147): still being written, written, or failed by PROGRAM_FAIL or UNIT_OFFLINE
at a system block, or before any program. -/
inductive CopyState
  | writing
  | written
  | failed (offline : Bool) (block : Option Nat)
  deriving DecidableEq, Repr

/-- One copy (R146): unit, target slot, the slot block being programmed, whether one of its programs was performed. -/
structure Copy where
  media : UnitId
  slot : Slot
  next : Nat
  performed : Bool
  state : CopyState
  deriving DecidableEq, Repr

/-- The in-flight batch (R143). `earlier` holds the copies of a first attempt that failed whole. -/
structure InFlight where
  batch : List Change
  image : Image
  second : Bool
  copies : List Copy
  earlier : List Copy
  deriving DecidableEq, Repr

/-- The five engine states (R143). -/
inductive EngineState
  | loading | idle | closing | writing | retrying
  deriving DecidableEq, Repr

/-- What a slot is known to hold (R141): generation and write sequence of a valid copy, or none. -/
abbrev SlotRecord := Option (Nat × Nat)

/-- Progress of the start-up reads of one unit (R153): the slot being read (none when both are judged), its blocks so far,
and the valid copies found in slots A and B. -/
structure UnitLoad where
  slot : Option Slot
  blocks : List Bytes
  copyA : Option Image
  copyB : Option Image
  deriving DecidableEq, Repr

/-- The commit engine (R143). `slots` holds the records of unit 0 A, unit 0 B, unit 1 A, unit 1 B; `curWseq` is the write
sequence of the current generation's image (R141). -/
structure Cme where
  state : EngineState
  gen : Nat
  wseq : Nat
  curWseq : Nat
  slots : Vector SlotRecord 4
  inFlight : Option InFlight
  accumulating : List Change
  loads : Vector UnitLoad 4
  deriving DecidableEq, Repr

/-! ### Notification unit and host link (chapter 9) -/

/-- The detail of an event occurrence (R181, section 8.1). -/
structure EventDetail where
  code : Word32
  stamp : Tick
  gen : BitVec 64
  logical : Word32
  block : Word32
  media : Byte
  lane : Byte
  region : Byte
  deriving DecidableEq, Repr

/-- One event slot of the slot copy (R177). -/
structure EventSlot where
  count : Nat
  detail : EventDetail
  deriving DecidableEq, Repr

/-- The three route states (R184). -/
inductive RouteState
  | idle | holding | signalled
  deriving DecidableEq, Repr

/-- One route (R177). -/
structure Route where
  state : RouteState
  count : Nat
  more : Bool
  timer : Option Tick
  deriving DecidableEq, Repr

/-- The target of a write-list request (R178). -/
inductive WriteTarget
  | identity
  | laneStatus (lane : LaneId)
  | slot (index : Fin 10)
  | message (route : RouteId)
  deriving DecidableEq, Repr

/-- A request of the write list: its target and the 64 bytes it writes (none for a message). -/
structure WriteReq where
  target : WriteTarget
  content : Bytes
  deriving DecidableEq, Repr

/-- The notification unit (R177). `handed` counts the writes given to the LIF that have not completed (R200). -/
structure Ntu where
  slots : Vector EventSlot 10
  writes : List WriteReq
  routeA : Route
  routeB : Route
  handed : Nat
  deriving DecidableEq, Repr

/-- A command on the media link (R72). -/
inductive MediaCmd
  | identify
  | read (block : Nat)
  | program (block : Nat) (data : Bytes)
  | clear (block : Nat)
  deriving DecidableEq, Repr

/-- What the device has put on its links: host-memory writes and reads in the order the LIF issued them (R179), message
interrupts, and media commands with the number of their sending. -/
inductive Output
  | hostWrite (addr : Addr) (data : Bytes)
  | hostRead (addr : Addr) (length : Nat)
  | message (route : RouteId)
  | media (chan : UnitId) (attempt : Nat) (cmd : MediaCmd)
  deriving DecidableEq, Repr

/-! ### The whole device -/

/-- The AC740 and the queue of commands that wait for it, first in, first out. `out` is the model's own record of what
left the device, oldest first (log entry 5); `messagesEnabled` is the message-interrupt enable of the host bus's
configuration space (R185, log entry 6), and `unitPresent` the level of the channels' unit present inputs (section 10.8,
log entry 28). -/
structure State where
  pending : List Instr
  dev : Device
  lif : Lif
  width : Nat
  tick : Tick
  anchor : Addr
  anchorHigh : Word32
  settings : Settings
  messagesEnabled : Bool
  unitPresent : Vector Bool 4
  lanes : Vector Lane 4
  dar : Dar
  ctxs : Vector Context 8
  regions : Vector RegionEntry 32
  lockdown : Bool
  chans : Vector Channel 4
  rlts : Vector Rlt 4
  patrol : Patrol
  log : PatrolLog
  cme : Cme
  ntu : Ntu
  out : List Output
  deriving DecidableEq, Repr

/-- The faults a command can end in: none. The manual gives every command an outcome in every state (R188, R191), so no
command stops the machine; the type has no constructor, which is safe. -/
inductive Fault
  deriving DecidableEq, Repr

/-- The refusals a command can end in. -/
inductive Refusal
  /-- Raised by `exec` alone, for a row that has no meaning yet. Safe: the model stops where the hardware goes on. -/
  | notModelled (mnemonic : String)
  deriving DecidableEq, Repr

/-! ### Cold values -/

/-- Settings after cold reset (R156). -/
def Settings.cold : Settings where
  spareLow := 0
  routeA := ⟨0, 1⟩
  routeB := ⟨0, 1⟩
  eventRoutes := Vector.replicate 10 .none

/-- An undefined region entry (R5, R6). -/
def RegionEntry.undefined : RegionEntry := ⟨none, 0, none, false⟩

/-- A staging buffer bound to no block (R53). -/
def StagingBuf.free : StagingBuf := ⟨none, none⟩

/-- A FREE context, every field empty (R53). -/
def Context.empty : Context where
  state := .free
  record := []
  addr := 0
  lane := 0
  tableRight := false
  segs := []
  listReading := false
  cursor := 0
  blocks := []
  bufs := Vector.replicate 4 StagingBuf.free
  crc := 0
  foldNext := 0
  failure := none
  refusal := none
  otherFail := none
  stepRefused := false
  hostFailed := none
  blocksOk := 0
  corrected := 0
  weak := 0
  moveReqs := 0
  abortMark := false
  startStamp := 0
  endStamp := 0
  srcBase := 0
  dstBase := 0
  raised := []
  waitCommit := false
  waitPass := false
  result := 0
  snapGen := none
  snapSize := 0
  written := 0
  final := none

/-- The arbiter after cold reset (R58). -/
def Dar.cold : Dar where
  weight := Vector.replicate 4 1
  cap := Vector.replicate 4 1
  credit := Vector.replicate 4 1
  pointer := 0

/-- A lane after cold reset (R157). -/
def Lane.cold : Lane where
  state := .off
  cfg := ⟨0, 0, .none, false, 0⟩
  reading := none
  target := none
  drainNext := none
  expSeq := 0
  window := []
  staged := none
  retireSeq := 0
  resume := 0
  fault := .none
  faultAddr := 0
  refused := 0
  poll := none
  lastStatus := none

/-- A channel after cold reset (R75); the count of sendings goes on, so that an answer to a command sent before the reset
is known for one (R73). -/
def Channel.cold (sent : Nat) : Channel where
  state := .absent
  member := false
  link := .idle
  queue := []
  waiting := []
  locks := []
  marks := []
  moveBuf := none
  lastDeparture := none
  sent := sent
  identified := none

/-- An empty relocation table (R98). -/
def Rlt.cold : Rlt where
  table := ⟨[], []⟩
  failing := []
  moves := []
  requests := []
  nextMid := 0

/-- The patrol settings of a fresh start (R120). -/
def PatrolCfg.fresh : PatrolCfg := ⟨0, 2000, 4, false⟩

/-- Every tally zero (R121). -/
def Tallies.zero : Tallies := ⟨0, 0, 0, 0, 0⟩

/-- The per-unit items at reset (R121). -/
def PatrolUnit.cold : PatrolUnit := ⟨0, .ready, none, none, []⟩

/-- The patrol unit after a cold reset whose start is fresh (R120, R121). The start stamp is 0 (log entry 40). -/
def Patrol.cold : Patrol where
  cfg := PatrolCfg.fresh
  passNumber := 0
  running := false
  stopMark := false
  stopList := []
  startStamp := 0
  tallies := Tallies.zero
  units := Vector.replicate 4 PatrolUnit.cold

/-- An empty patrol log (R131). -/
def PatrolLog.empty : PatrolLog := ⟨Vector.replicate 16 none, 0⟩

/-- A unit none of whose system blocks has been read (R153). -/
def UnitLoad.cold : UnitLoad := ⟨some .a, [], none, none⟩

/-- The commit engine after cold reset, LOADING (R143). -/
def Cme.cold : Cme where
  state := .loading
  gen := 0
  wseq := 0
  curWseq := 0
  slots := Vector.replicate 4 none
  inFlight := none
  accumulating := []
  loads := Vector.replicate 4 UnitLoad.cold

/-- A zero event detail (R177). -/
def EventDetail.zero : EventDetail := ⟨0, 0, 0, 0, 0, 0, 0, 0⟩

/-- A route at reset (R177). -/
def Route.cold : Route := ⟨.idle, 0, false, none⟩

/-- The notification unit after cold reset (R177). -/
def Ntu.cold : Ntu where
  slots := Vector.replicate 10 ⟨0, EventDetail.zero⟩
  writes := []
  routeA := Route.cold
  routeB := Route.cold
  handed := 0

/-- A channel that has sent its first IDENTIFY of the probe at tick 0 (R192). -/
def Channel.probing (sent : Nat) : Channel :=
  { Channel.cold (sent + 1) with link := .identify false (sent + 1) (BitVec.ofNat 64 Config.answerTimeout) }

/-- The device right after a power-on cold reset with the reset input released: PROBING, every block at its cold values,
IDENTIFY sent on every channel (R192, R201). -/
def State.reset : State where
  pending := []
  dev := ⟨.probing, .none, false, false, false⟩
  lif := ⟨0, 0⟩
  width := 0
  tick := 0
  anchor := 0
  anchorHigh := 0
  settings := Settings.cold
  messagesEnabled := true
  unitPresent := Vector.replicate 4 true
  lanes := Vector.replicate 4 Lane.cold
  dar := Dar.cold
  ctxs := Vector.replicate 8 Context.empty
  regions := Vector.replicate 32 RegionEntry.undefined
  lockdown := false
  chans := Vector.replicate 4 (Channel.probing 0)
  rlts := Vector.replicate 4 Rlt.cold
  patrol := Patrol.cold
  log := PatrolLog.empty
  cme := Cme.cold
  ntu := Ntu.cold
  out := [.media 0 1 .identify, .media 1 1 .identify, .media 2 1 .identify, .media 3 1 .identify]

end Sys2Proof.Machine
end

