-- ==== Sys2Proof/Machine/Operands.lean ====
section
/-! DEFINITION. The operand forms of the commands: the fields of a work record and its argument area (section 2.12), the
segment list (R29, R30), the lane configuration entry and the device-wide settings (section 8.1), and the mapping of a
host buffer onto blocks (R31). -/

namespace Sys2Proof.Machine

/-! ### Work record -/

/-- The sixteen operations, PATROL_CONTROL split by action as the command table splits it, and an unknown op (R28, R48).
A PATROL_CONTROL with an action other than 1, 2 or 3 is counted to SET (log entry 9). -/
inductive OpKind
  | read | write | fill | copy | verify | digest | relocate | barrier | tableRead
  | startPass | stopPass | setPatrol
  | regionDefine | regionDelete | regionGuard | regionRelease | regionFix | lockdown
  | badOp
  deriving DecidableEq, Repr

/-- The link field. -/
def recLink (r : Bytes) : Addr := BitVec.ofNat 64 (field r 0 8)
/-- The seq field. -/
def recSeq (r : Bytes) : Seq := BitVec.ofNat 32 (field r 8 4)
/-- The state byte (R26). -/
def recState (r : Bytes) : Byte := byteAt r 12
/-- The op field (R28). -/
def recOp (r : Bytes) : Nat := (byteAt r 13).toNat
/-- The flags field (R27). -/
def recFlags (r : Bytes) : Byte := byteAt r 14
/-- The region index field. -/
def recRegion (r : Bytes) : Nat := (byteAt r 15).toNat
/-- The offset field. -/
def recOffset (r : Bytes) : Nat := field r 16 4
/-- The count field. -/
def recCount (r : Bytes) : Nat := field r 20 2
/-- The seg_count field. -/
def recSegCount (r : Bytes) : Nat := field r 22 2
/-- Flag FENCE (R27). -/
def recFence (r : Bytes) : Bool := (recFlags r).getLsbD 0
/-- Flag NOTIFY. -/
def recNotify (r : Bytes) : Bool := (recFlags r).getLsbD 1
/-- Flag SEGLIST. -/
def recSeglist (r : Bytes) : Bool := (recFlags r).getLsbD 2
/-- Flag RELOCATE_WEAK. -/
def recRelocateWeak (r : Bytes) : Bool := (recFlags r).getLsbD 3
/-- Flag BLANK. -/
def recBlank (r : Bytes) : Bool := (recFlags r).getLsbD 4
/-- The list address of a record with SEGLIST set. -/
def recListAddr (r : Bytes) : Addr := BitVec.ofNat 64 (field r 56 8)
/-- COPY: destination region. -/
def argDstRegion (r : Bytes) : Nat := (byteAt r 24).toNat
/-- COPY: destination offset. -/
def argDstOffset (r : Bytes) : Nat := field r 28 4
/-- FILL: the eight pattern bytes, in record order. -/
def argPattern (r : Bytes) : Bytes := (List.range 8).map fun i => byteAt r (24 + i)
/-- REGION_DEFINE: index. -/
def argIndex (r : Bytes) : Nat := (byteAt r 24).toNat
/-- REGION_DEFINE: owner mask byte. -/
def argOwners (r : Bytes) : Byte := byteAt r 25
/-- REGION_DEFINE: label. -/
def argLabel (r : Bytes) : BitVec 16 := BitVec.ofNat 16 (field r 26 2)
/-- REGION_DEFINE: base. -/
def argBase (r : Bytes) : Nat := field r 28 4
/-- REGION_DEFINE: length. -/
def argLength (r : Bytes) : Nat := field r 32 4
/-- PATROL_CONTROL: action. -/
def argAction (r : Bytes) : Nat := (byteAt r 24).toNat
/-- PATROL_CONTROL: auto. -/
def argAuto (r : Bytes) : Nat := (byteAt r 25).toNat
/-- PATROL_CONTROL: weak threshold. -/
def argWeak (r : Bytes) : Nat := (byteAt r 26).toNat
/-- PATROL_CONTROL: pace. -/
def argPace (r : Bytes) : Nat := field r 28 2
/-- PATROL_CONTROL: settle. -/
def argSettle (r : Bytes) : Nat := field r 32 4
/-- TABLE_READ: selector. -/
def argSelector (r : Bytes) : Nat := (byteAt r 24).toNat
/-- TABLE_READ: unit. -/
def argUnit (r : Bytes) : Nat := (byteAt r 25).toNat

/-- The operation of a record (R28), by its op field and, for PATROL_CONTROL, its action. -/
def recKind (r : Bytes) : OpKind :=
  match recOp r with
  | 0x01 => .read
  | 0x02 => .write
  | 0x03 => .fill
  | 0x04 => .copy
  | 0x05 => .verify
  | 0x06 => .digest
  | 0x07 => .relocate
  | 0x08 => .barrier
  | 0x09 => .tableRead
  | 0x0A => if argAction r = 1 then .startPass else if argAction r = 2 then .stopPass else .setPatrol
  | 0x10 => .regionDefine
  | 0x11 => .regionDelete
  | 0x12 => .regionGuard
  | 0x13 => .regionRelease
  | 0x14 => .regionFix
  | 0x15 => .lockdown
  | _ => .badOp

/-- The data records (R28). -/
def OpKind.isData : OpKind → Bool
  | .read | .write | .fill | .copy | .verify | .digest | .relocate => true
  | _ => false

/-- The region operations and LOCKDOWN, whose result word is a generation (R34). -/
def OpKind.isRegionOp : OpKind → Bool
  | .regionDefine | .regionDelete | .regionGuard | .regionRelease | .regionFix | .lockdown => true
  | _ => false

/-- The operations whose segments are required (R28). -/
def OpKind.needsSegments : OpKind → Bool
  | .read | .write | .tableRead => true
  | _ => false

/-- The state byte value POSTED (R26). -/
def posted : Byte := 0x01
/-- The state byte value RUNNING (R26). -/
def running : Byte := 0x02

/-- The value of a final state byte (R26). -/
def FinalState.byte : FinalState → Byte
  | .done => 0x04
  | .failed => 0x05
  | .cancelled => 0x06

/-! ### Segments -/

/-- The segment in 16 bytes: address, length, 4 unused (section 2.12). -/
def segmentOf (bs : Bytes) : Segment := ⟨BitVec.ofNat 64 (field bs 0 8), field bs 8 4⟩

/-- The first `n` segments laid out in `bs`, 16 bytes each. -/
def segmentsOf : Nat → Bytes → List Segment
  | 0, _ => []
  | n + 1, bs => segmentOf (bs.take 16) :: segmentsOf n (bs.drop 16)

/-- The inline segments used: the first seg_count of the two in the segment area (R29). -/
def inlineSegments (r : Bytes) : List Segment := segmentsOf (min (recSegCount r) 2) (r.drop 56)

/-- A segment R29 accepts: non-zero address, length a multiple of 512 and at least 512. -/
def Segment.ok (g : Segment) : Bool := g.addr != 0 && (g.len % 512 == 0) && decide (512 ≤ g.len)

/-- The sum of the lengths, without overflow (R29). -/
def segmentSum (gs : List Segment) : Nat := (gs.map Segment.len).sum

/-- The host pieces that buffer bytes [start, start + len) fall on, in ascending buffer order (R31). An address beyond
2^64 - 1 wraps (log entry 63). -/
def bufferPieces : List Segment → Nat → Nat → List (Addr × Nat)
  | [], _, _ => []
  | g :: gs, start, len =>
    if len = 0 then []
    else if g.len ≤ start then bufferPieces gs (start - g.len) len
    else
      let k := min len (g.len - start)
      (g.addr + BitVec.ofNat 64 start, k) :: bufferPieces gs 0 (len - k)

/-- Host writes of `data` to the pieces, in order (R31). -/
def pieceWrites : List (Addr × Nat) → Bytes → List Output
  | [], _ => []
  | (a, k) :: ps, data => .hostWrite a (data.take k) :: pieceWrites ps (data.drop k)

/-- Host reads of the pieces, in order (R31). -/
def pieceReads (ps : List (Addr × Nat)) : List Output := ps.map fun p => .hostRead p.1 p.2

/-! ### Host area of the anchor page (section 8.1) -/

/-- A route byte: 1 is A, 2 is B, any other value none (R156). -/
def routeOfByte (b : Byte) : RouteSel := if b = 1 then .a else if b = 2 then .b else .none

/-- The device-wide settings in the 64 bytes read at RUN, each value as R156 takes it. -/
def settingsOf (bs : Bytes) : Settings where
  spareLow := min (field bs 0 2) 1023
  routeA := ⟨min (field bs 4 2) 4095, min (max (byteAt bs 6).toNat 1) 64⟩
  routeB := ⟨min (field bs 8 2) 4095, min (max (byteAt bs 10).toNat 1) 64⟩
  eventRoutes := Vector.ofFn fun (i : Fin 10) => routeOfByte (byteAt bs (16 + i.val))

/-- Head address of a lane configuration entry. -/
def cfgHead (bs : Bytes) : Addr := BitVec.ofNat 64 (field bs 0 8)
/-- Weight of a lane configuration entry. -/
def cfgWeight (bs : Bytes) : Nat := (byteAt bs 12).toNat
/-- Cap of a lane configuration entry. -/
def cfgCap (bs : Bytes) : Nat := (byteAt bs 13).toNat
/-- Poll interval of a lane configuration entry. -/
def cfgPoll (bs : Bytes) : Nat := field bs 16 4

/-- A head address R160 accepts: non-zero and a multiple of 128. -/
def recordAddrOk (a : Addr) : Bool := a != 0 && (a.toNat % 128 == 0)

/-- The ranges R160 tests last: weight, cap, NOTIFY route, table right, poll interval. -/
def cfgRangesOk (bs : Bytes) : Bool :=
  decide (1 ≤ cfgWeight bs) && decide (cfgWeight bs ≤ 8) && decide (1 ≤ cfgCap bs) && decide (cfgCap bs ≤ 4)
    && decide ((byteAt bs 14).toNat ≤ 2) && decide ((byteAt bs 15).toNat ≤ 1)
    && (cfgPoll bs == 0 || (decide (10 ≤ cfgPoll bs) && decide (cfgPoll bs ≤ 1000000)))

/-- The lane's part of a configuration entry. -/
def laneCfgOf (bs : Bytes) : LaneCfg where
  head := cfgHead bs
  initSeq := BitVec.ofNat 32 (field bs 8 4)
  notify := routeOfByte (byteAt bs 14)
  tableRight := byteAt bs 15 == 1
  poll := cfgPoll bs

end Sys2Proof.Machine
end

