-- ==== Sys2Proof/Machine/Ops.lean ====
section
/-! DEFINITION. The shared operations: reading and writing one block of the state, what left the device, the durable tables
as one value, and the internal effects (`Msg`) by which one block of the device reaches another inside one event. -/

namespace Sys2Proof.Machine

/-! ### One block of the state -/

def State.lane (s : State) (l : LaneId) : Lane := s.lanes[l]
def State.setLane (s : State) (l : LaneId) (v : Lane) : State := { s with lanes := s.lanes.set l v }
def State.ctx (s : State) (x : CtxId) : Context := s.ctxs[x]
def State.setCtx (s : State) (x : CtxId) (v : Context) : State := { s with ctxs := s.ctxs.set x v }
def State.chan (s : State) (c : UnitId) : Channel := s.chans[c]
def State.setChan (s : State) (c : UnitId) (v : Channel) : State := { s with chans := s.chans.set c v }
def State.rlt (s : State) (u : UnitId) : Rlt := s.rlts[u]
def State.setRlt (s : State) (u : UnitId) (v : Rlt) : State := { s with rlts := s.rlts.set u v }
def State.patrolUnit (s : State) (u : UnitId) : PatrolUnit := s.patrol.units[u]
def State.setPatrolUnit (s : State) (u : UnitId) (v : PatrolUnit) : State :=
  { s with patrol := { s.patrol with units := s.patrol.units.set u v } }

/-- Region entry `i`; an index beyond 31 names no entry and reads as undefined. -/
def State.region (s : State) (i : Nat) : RegionEntry := (s.regions[i]?).getD RegionEntry.undefined
def State.setRegion (s : State) (i : Nat) (v : RegionEntry) : State :=
  { s with regions := s.regions.setIfInBounds i v }

def State.setDev (s : State) (d : Device) : State := { s with dev := d }
def State.setLif (s : State) (v : Lif) : State := { s with lif := v }
def State.setCme (s : State) (c : Cme) : State := { s with cme := c }
def State.setNtu (s : State) (n : Ntu) : State := { s with ntu := n }
def State.setPatrol (s : State) (p : Patrol) : State := { s with patrol := p }

/-- Put accesses, messages or media commands on the device's links, in order (R179). -/
def State.emit (s : State) (os : List Output) : State := { s with out := s.out ++ os }

/-- The end of a host access issued in this epoch reaches the block that issued it; that of one issued before a halt or a cold reset
is discarded (R70, R176, R180, R198, R201; log entry 75). -/
def State.awaits (s : State) (epoch : Nat) : Bool := epoch == s.lif.epoch

/-- What was issued so far is cut off: the outcomes of host accesses in flight are discarded from here on (R198, R201). -/
def Lif.cutOff (v : Lif) : Lif := { v with epoch := v.epoch + 1 }

/-- The four lanes, units and channels in ascending order. -/
def four : List (Fin 4) := [0, 1, 2, 3]
/-- The eight contexts in ascending order. -/
def eight : List (Fin 8) := [0, 1, 2, 3, 4, 5, 6, 7]
/-- The 32 region indices. -/
def regionIndices : List Nat := List.range 32

/-- `f` applied to the state for each element, in order. -/
def forEach {α : Type} (xs : List α) (f : α → State → State) (s : State) : State :=
  xs.foldl (fun t x => f x t) s

/-- The device is HALTED, so no block reaches host memory (R198). -/
def State.halted (s : State) : Bool := s.dev.state == .halted

/-- The member units (R193). -/
def State.isMember (s : State) (u : UnitId) : Bool := decide (u.val < s.width)
def State.members (s : State) : List UnitId := four.filter s.isMember

/-- Unit and unit block of logical block `L` (R3). -/
def State.unitOf (s : State) (L : Nat) : UnitId := Fin.ofNat 4 (L % s.width)
def State.blockOf (s : State) (L : Nat) : Nat := L / s.width

/-- The logical block data block `b` of unit `u` holds, none for a unit that is not a member or a block that is no data
block (R4). -/
def State.logicalOf (s : State) (u : UnitId) (b : Nat) : Option Nat :=
  if u.val < s.width ∧ b < Config.dataBlocks then some (b * s.width + u.val) else none

/-- The index of the live region whose window contains logical block `L` (R24). -/
def State.regionAt (s : State) (L : Nat) : Option Nat :=
  regionIndices.find? fun i =>
    match (s.region i).live with
    | some d => decide (d.base ≤ L) && decide (L < d.base + d.length)
    | none => false

/-- The region of data block `b` of unit `u`, by R4 and R24. -/
def State.regionOfBlock (s : State) (u : UnitId) (b : Nat) : Option Nat :=
  (s.logicalOf u b).bind s.regionAt

/-! ### Durable tables (chapter 7) -/

/-- The live durable tables as one value. -/
def State.durable (s : State) : Durable where
  regions := mapVec RegionEntry.live s.regions
  units := mapVec Rlt.table s.rlts
  log := s.log

/-- Put durable tables in force: durable region fields, relocation tables and log; volatile marks stay. -/
def State.setDurable (s : State) (d : Durable) : State :=
  { s with
    regions := Vector.ofFn fun (i : Fin 32) => { s.regions[i] with live := d.regions[i] }
    rlts := Vector.ofFn fun (u : Fin 4) => { s.rlts[u] with table := d.units[u] }
    log := d.log }

/-! ### Relocation lookups (R82, R97, R99) -/

/-- The live entry of data block `b` (R97). -/
def UnitTable.find (t : UnitTable) (b : Nat) : Option RelEntry := t.entries.find? fun e => e.src == b

/-- The unit block a step naming `b` is performed on (R82). -/
def UnitTable.target (t : UnitTable) (b : Nat) : Nat :=
  match t.find b with
  | some e => Config.spareBase + e.spare
  | none => b

/-- Whether `b` has a live poisoned entry. -/
def UnitTable.poisoned (t : UnitTable) (b : Nat) : Bool :=
  match t.find b with
  | some e => e.poisoned
  | none => false

/-- A spare named by an entry is USED (R98). -/
def UnitTable.used (t : UnitTable) (k : Nat) : Bool := t.entries.any fun e => e.spare == k

/-- The free count: 1,024 less used and dead spares (R99). -/
def UnitTable.freeCount (t : UnitTable) : Nat := Config.spares - t.entries.length - t.dead.length

/-- A spare held by a move is RESERVED (R99). -/
def Rlt.reserved (r : Rlt) (k : Nat) : Bool := r.moves.any fun m => m.spare == k

/-- A spare that is FREE and neither RESERVED nor FAILING (R99). -/
def Rlt.choosable (r : Rlt) (k : Nat) : Bool :=
  !r.table.used k && !r.table.dead.contains k && !r.failing.contains k && !r.reserved k

/-- The lowest choosable spare, if any (R99). -/
def Rlt.lowestChoosable (r : Rlt) : Option Nat := (List.range Config.spares).find? r.choosable

/-! ### Mirrors (R141) -/

/-- Units 0 and 1 for n of 2 or 4, unit 0 alone for n of 1 (R141). -/
def isMirrorUnder (n : Nat) (u : UnitId) : Bool := u.val == 0 || (u.val == 1 && (n == 2 || n == 4))

/-- A unit in service is ONLINE or DEGRADED (R141). -/
def UnitState.inService : UnitState → Bool
  | .online | .degraded => true
  | .absent | .offline => false

/-- The mirror units in service. -/
def State.mirrorsInService (s : State) : List UnitId :=
  four.filter fun u => isMirrorUnder s.width u && (s.chan u).state.inService

/-! ### Internal effects -/

/-- How a read step ends at its channel (R84, R82). -/
inductive ReadClass
  | clean | corrected | blank | uncorrectable | poisoned
  deriving DecidableEq, Repr

/-- How a foreground step ends for its context (R38, R43). A read carries whether it was weak, whether a move request was
handed (R85), and its data. -/
inductive StepOutcome
  | read (cls : ReadClass) (weak handed : Bool) (data : Bytes)
  | programOk
  | programPoisoned
  | programFail
  | offline
  | withdrawn
  deriving DecidableEq, Repr

/-- How a block that waited on a move or a commit ends (R65): its change is live, with the spare of a move; it fails; or
its move ended without an entry at a warm reset (R119). -/
inductive BlockResult
  | live (spare : Nat)
  | failed (st : Status)
  | gone
  deriving DecidableEq, Repr

/-- How a MOVE entry ends for the relocation table (R107, R108). -/
inductive MoveOutcome
  | data | uncorrectable | poisoned | offline | ok | programFail
  deriving DecidableEq, Repr

/-- Why a move is abandoned (R112). -/
inductive AbandonCode
  | noSpare | writeFailed | unitOffline
  deriving DecidableEq, Repr

/-- The relocation table's first report on a finding (R128). -/
inductive FindingAnswer
  | taken | absorbed | ended | full
  deriving DecidableEq, Repr

/-- The end report of a finding (R129). -/
inductive FindingEnd
  | moved | discarded | abandoned | dropped
  deriving DecidableEq, Repr

/-- How a COMMIT program ends for the engine (R146). `performed` says whether the unit had been sent the program. -/
inductive CopyOutcome
  | ok
  | programFail
  | offline (performed : Bool)
  deriving DecidableEq, Repr

/-- An effect one block of the device has on another inside one event. -/
inductive Msg
  /-- A context's step reaches its channel (R77). -/
  | foregroundArrives (x : CtxId) (j : Nat) (cmd : StepCmd)
  /-- A MOVE entry reaches its channel (R78). -/
  | moveEntryArrives (c : UnitId) (mid : Nat) (cmd : StepCmd) (block : Nat)
  /-- A COMMIT entry reaches its channel (R78). -/
  | commitEntryArrives (c : UnitId) (cmd : StepCmd) (block : Nat)
  /-- An idle channel selects its next entry (R80). -/
  | select (c : UnitId)
  /-- A channel whose queue is empty reports so to patrol (R79). -/
  | quiet (c : UnitId)
  /-- The starts deferred behind a foreground performance on `block` are taken (R88). -/
  | takeDeferred (c : UnitId) (block : Nat)
  /-- The relocation table asks the channel to start a move (R88). -/
  | moveStart (c : UnitId) (mid : Nat)
  /-- A held step's lock is released (R64). -/
  | reissue (x : CtxId) (j : Nat)
  /-- A step ends for its context (R63). `onSpare` records that it was performed on a spare (R82). -/
  | stepEnds (x : CtxId) (j : Nat) (out : StepOutcome) (onSpare : Bool)
  /-- The entry of the block's move is in a batch (R65). -/
  | moveBatched (x : CtxId) (j : Nat)
  /-- A block's move or commit ends (R65). -/
  | blockEnds (x : CtxId) (j : Nat) (res : BlockResult)
  /-- The commit of a region change or SET ends (R65). -/
  | changeEnds (x : CtxId) (ok : Bool)
  /-- The pass a STOP_PASS waits for ended (R133). -/
  | passEnded (x : CtxId) (number : Word32)
  /-- The relocation table takes a move request (R102). -/
  | moveRequest (u : UnitId) (req : MoveReq)
  /-- A move read ends (R107), performed on a spare or not (R82). -/
  | moveReadEnds (u : UnitId) (mid : Nat) (out : MoveOutcome) (onSpare : Bool)
  /-- A move's program or clear ends (R108). -/
  | moveWriteEnds (u : UnitId) (mid : Nat) (out : MoveOutcome)
  /-- A move slot is free (R104). -/
  | slotFreed (u : UnitId)
  /-- The channel reports the unit's moves lost (R118). `onSpare` names the move whose read was being performed on a spare
  (R82). -/
  | movesLost (u : UnitId) (onSpare : Option Nat)
  /-- A member unit becomes READY (R124). -/
  | patrolReady (u : UnitId)
  /-- A patrol read ends (R127), performed on a spare or not (R82). -/
  | patrolReadEnds (u : UnitId) (cls : ReadClass) (weak : Bool) (onSpare : Bool)
  /-- The relocation table's first report on a finding (R128). -/
  | findingAnswered (u : UnitId) (block : Nat) (tag : FindingTag) (ans : FindingAnswer)
  /-- A finding ends (R129). -/
  | findingEnded (u : UnitId) (block : Nat) (tag : FindingTag) (res : FindingEnd)
  /-- The relocation table reports a free slot to patrol (R104). -/
  | freeSlotReport (u : UnitId)
  /-- The channel reports the unit OFFLINE to patrol (R136), whose read was being performed on a spare or not (R82). -/
  | patrolLost (u : UnitId) (onSpare : Bool)
  /-- The PATROL_PASS_END of a pass is posted (R130, step 2). -/
  | passPosted (outcome : PassOutcome)
  /-- The pass is closed: its items return to their reset values, and the next pass starts or patrol is IDLE (R130, steps 4
  and 5). -/
  | passClosed (restart : Bool)
  /-- The next pass starts at once (R130). -/
  | passRestart
  /-- The conditions for a pass end are tested (R130). -/
  | passCheck
  /-- A change arrives at the commit engine (R144). -/
  | change (chg : Change)
  /-- The relocation table takes a poison clear (R114). -/
  | poisonClear (u : UnitId) (block : Nat) (x : CtxId) (j : Nat)
  /-- The region table tests whether the closing regions' steps are gone (R145). -/
  | closingCheck
  /-- A COMMIT program ends (R146). -/
  | copyEnds (u : UnitId) (out : CopyOutcome)
  /-- A commit completion leaves the engine (R148). -/
  | engineLeaves
  /-- A start-up read ends (R153). -/
  | loadReadEnds (u : UnitId) (data : Option Bytes)
  /-- The probe's conditions are tested (R192). -/
  | probeCheck
  deriving DecidableEq, Repr

/-- A state with the internal effects still to be taken, first one first. -/
abbrev Eff := State × List Msg

/-- `f` and then `g`, the effects of `f` before those of `g`. -/
def andThen (f g : State → Eff) (s : State) : Eff :=
  let r := f s
  let t := g r.1
  (t.1, r.2 ++ t.2)

/-- `f` for each element in order. -/
def effEach {α : Type} (xs : List α) (f : α → State → Eff) (s : State) : Eff :=
  match xs with
  | [] => (s, [])
  | x :: rest =>
    let r := f x s
    let t := effEach rest f r.1
    (t.1, r.2 ++ t.2)

end Sys2Proof.Machine
end

