-- ==== Sys2Proof/Machine/Flags.lean ====
section
/-! DEFINITION. Codes and flags host software sees: status codes (R32), the fault code and its rules (R189), and the
register window as it reads (R188, section 10.1). -/

namespace Sys2Proof.Machine

/-- The value of a status code (R32). -/
def Status.code : Status → Nat
  | .ok => 0
  | .badOp => 1
  | .badArg => 2
  | .noRegion => 3
  | .indexInUse => 4
  | .outOfRange => 5
  | .notOwner => 6
  | .noRight => 7
  | .isProtected => 8
  | .lockedDown => 9
  | .overlap => 10
  | .regionBusy => 11
  | .patrolBusy => 12
  | .unitOffline => 13
  | .dataLost => 14
  | .writeFailed => 15
  | .noSpare => 16
  | .hostMemory => 17
  | .commitFailed => 18
  | .aborted => 19

/-- The value of a fault code (R189). -/
def FaultCode.code : FaultCode → Nat
  | .none => 0
  | .anchorRefused => 1
  | .noAnchor => 2
  | .controlRefused => 3
  | .probeLayout => 8
  | .deviceAreaError => 9
  | .resultError => 10

/-- The value of a device state in STATE (section 10.1). -/
def DevState.code : DevState → Nat
  | .probing => 0
  | .stopped => 1
  | .running => 2
  | .stopping => 3
  | .halted => 4

/-- A refusal replaces the fault code, unless the device is HALTED (R189). -/
def State.refuseAction (s : State) (c : FaultCode) : State :=
  if s.halted then s else s.setDev { s.dev with fault := c }

/-- A taken CONTROL or anchor action sets the fault code to none, unless the device is HALTED (R189). -/
def State.takeAction (s : State) : State :=
  if s.halted then s else s.setDev { s.dev with fault := .none }

/-- A bit as a number, for the fields of STATE. -/
def bit (b : Bool) : Nat := if b then 1 else 0

/-- The STATE register (section 10.1). -/
def State.stateRegister (s : State) : Word32 :=
  BitVec.ofNat 32 (s.dev.state.code + 8 * bit s.dev.resetInProgress + 16 * bit s.dev.runPending
    + 32 * bit (s.anchor != 0) + 256 * s.dev.fault.code + 4096 * bit s.lockdown + 65536 * s.width)

/-- The IDENT register (section 10.1). -/
def identRegister : Word32 := BitVec.ofNat 32 (Config.partCode * 256 + Config.revision)

/-- The ATTN register: a route is pending while SIGNALLED (R186). -/
def State.attnRegister (s : State) : Word32 :=
  BitVec.ofNat 32 (bit (s.ntu.routeA.state == .signalled) + 2 * bit (s.ntu.routeB.state == .signalled))

/-- The 32-bit value of the register at a word offset of the window (R188). -/
def State.register (s : State) (offset : Nat) : Word32 :=
  match offset with
  | 0x00 => identRegister
  | 0x04 => s.stateRegister
  | 0x0C => s.anchor.extractLsb' 0 32
  | 0x10 => s.anchorHigh
  | 0x18 => s.attnRegister
  | 0x1C => s.tick.extractLsb' 0 32
  | _ => 0

/-- A read of `width` bytes at `offset` of the window: the addressed bytes of the register (R188). A read changes nothing,
so it is a function of the state and no command. A read that is wider than 32 bits or runs past the register's last byte gives
the register's remaining bytes alone (log entry 70). -/
def State.readWindow (s : State) (offset width : Nat) : Bytes :=
  ((leBytes 4 (s.register (offset - offset % 4)).toNat).drop (offset % 4)).take width

end Sys2Proof.Machine
end

