-- ==== Sys2Proof/Machine/Notify.lean ====
section
/-! DEFINITION. The notification unit (chapter 9): the write list, event slots and routes, and the device-area content of
section 8.1. -/

namespace Sys2Proof.Machine

/-! ### Content of the device area (section 8.1) -/

/-- The value of a lane state in the status entry. -/
def LaneState.code : LaneState → Nat
  | .off => 0
  | .seeking => 1
  | .staged => 2
  | .parkedEnd => 3
  | .parkedUnposted => 4
  | .faulted => 5
  | .draining => 6

/-- The value of a lane fault code. -/
def LaneFault.code : LaneFault → Nat
  | .none => 0
  | .seqBreak => 1
  | .badLink => 2
  | .fetchError => 3
  | .badConfig => 4

/-- The 64 bytes of a lane status entry. -/
def LaneStatus.bytes (e : LaneStatus) : Bytes :=
  padTo 64 (leBytes 4 e.retireSeq.toNat ++ leBytes 1 e.state.code ++ leBytes 1 e.fault.code ++ leBytes 2 e.refused
    ++ leBytes 8 e.resume.toNat ++ leBytes 8 e.faultAddr.toNat ++ leBytes 4 e.expSeq.toNat
    ++ leBytes 1 e.dispatched ++ leBytes 1 (bit e.staged))

/-- The 64 bytes of an event slot: 4-byte count and 60 bytes of detail. -/
def EventSlot.bytes (e : EventSlot) : Bytes :=
  padTo 64 (leBytes 4 e.count ++ leBytes 4 e.detail.code.toNat ++ leBytes 8 e.detail.stamp.toNat
    ++ leBytes 8 e.detail.gen.toNat ++ leBytes 4 e.detail.logical.toNat ++ leBytes 4 e.detail.block.toNat
    ++ [e.detail.media, e.detail.lane, e.detail.region])

/-- The 64 bytes of the identity entry (R195). -/
def identityBytes (width : Nat) (tick : Tick) : Bytes :=
  padTo 64 (leBytes 4 Config.partCode ++ leBytes 4 Config.revision ++ leBytes 1 width ++ leBytes 1 4 ++ leBytes 1 4
    ++ zeros 5 ++ leBytes 8 tick.toNat)

/-- The byte offset of a write target in the anchor page. -/
def WriteTarget.offset : WriteTarget → Nat
  | .identity => 1024
  | .laneStatus l => 1088 + 64 * l.val
  | .slot k => 1536 + 64 * k.val
  | .message _ => 0

/-! ### Write list (R178) -/

/-- Replace the content of the waiting request for a target, or join the tail (R178). -/
def putRequest (t : WriteTarget) (content : Bytes) : List WriteReq → List WriteReq
  | [] => [⟨t, content⟩]
  | r :: rs => if r.target = t then ⟨t, content⟩ :: rs else r :: putRequest t content rs

/-- Ask for a device-area write. While the anchor is 0 or the device is HALTED nothing is placed (R178, R180). -/
def askWrite (t : WriteTarget) (content : Bytes) (s : State) : State :=
  if s.anchor = 0 ∨ s.halted then s
  else s.setNtu { s.ntu with writes := putRequest t content s.ntu.writes }

/-! ### Routes (R183 to R187) -/

def State.route (s : State) : RouteId → Route
  | .a => s.ntu.routeA
  | .b => s.ntu.routeB

def State.setRoute (s : State) (r : RouteId) (v : Route) : State :=
  match r with
  | .a => s.setNtu { s.ntu with routeA := v }
  | .b => s.setNtu { s.ntu with routeB := v }

def State.routeCfg (s : State) : RouteId → RouteCfg
  | .a => s.settings.routeA
  | .b => s.settings.routeB

/-- Place a route's message at the tail; an unissued one of the same route leaves its place (R178). -/
def placeMessage (r : RouteId) (ws : List WriteReq) : List WriteReq :=
  ws.filter (fun w => w.target != .message r) ++ [⟨.message r, []⟩]

/-- A message is placed in the write list: not while the host bus has message interrupts disabled (R185), the anchor is 0
(R178) or the device is HALTED (R180). -/
def askMessage (r : RouteId) (s : State) : State :=
  if s.anchor = 0 ∨ s.halted ∨ s.messagesEnabled = false then s
  else s.setNtu { s.ntu with writes := placeMessage r s.ntu.writes }

/-- A route enters SIGNALLED with count 0 and its hold timer stopped (R185). -/
def Route.signalled (v : Route) : Route := { v with state := .signalled, count := 0, timer := none }

/-- The send event of a route (R185). -/
def sendRoute (r : RouteId) (s : State) : State := askMessage r (s.setRoute r (s.route r).signalled)

/-- A route enters HOLDING with its hold timer started now (R184, R186). -/
def holdRoute (r : RouteId) (v : Route) (s : State) : State :=
  s.setRoute r { v with state := .holding, timer := some (s.tick + BitVec.ofNat 64 (s.routeCfg r).hold) }

/-- A route takes a cause (R184). -/
def takeCause (r : RouteId) (s : State) : State :=
  let v := s.route r
  let cfg := s.routeCfg r
  match v.state with
  | .idle =>
    if cfg.hold = 0 ∨ cfg.threshold ≤ 1 then sendRoute r s
    else holdRoute r { v with count := 1 } s
  | .holding =>
    if cfg.threshold ≤ v.count + 1 then sendRoute r s
    else s.setRoute r { v with count := v.count + 1 }
  | .signalled => s.setRoute r { v with more := true, count := min (v.count + 1) Config.maxRouteCount }

/-- A cause is handed on a route; it is dropped when the route is none, the anchor is 0 or the device is HALTED (R183). -/
def routeCause (sel : RouteSel) (s : State) : State :=
  if s.anchor = 0 ∨ s.halted then s
  else
    match sel with
    | .none => s
    | .a => takeCause .a s
    | .b => takeCause .b s

/-- A route takes an acknowledgement (R186). -/
def acknowledgeRoute (r : RouteId) (s : State) : State :=
  let v := s.route r
  let cfg := s.routeCfg r
  match v.state with
  | .idle => s
  | .holding => s
  | .signalled =>
    if v.more then
      if cfg.hold = 0 ∨ cfg.threshold ≤ v.count then sendRoute r (s.setRoute r { v with more := false })
      else holdRoute r { v with more := false } s
    else s.setRoute r { v with state := .idle, count := 0 }

/-- A HOLDING route whose count is at or above the threshold in force sends (R187). -/
def applyThreshold (r : RouteId) (s : State) : State :=
  if (s.route r).state = .holding ∧ (s.routeCfg r).threshold ≤ (s.route r).count then sendRoute r s else s

/-- Both routes return to IDLE (R187, R195). -/
def idleRoutes (s : State) : State := s.setNtu { s.ntu with routeA := Route.cold, routeB := Route.cold }

/-! ### Events (R181) -/

/-- The ten event kinds (R181). -/
inductive EventKind
  | relocated | dataLost | unitDegraded | unitOffline | patrolPassEnd | commitFailed | mirrorCopyFailed | laneFault
  | regionChanged | spareLow
  deriving DecidableEq, Repr

/-- The slot of an event kind, counted from 0. -/
def EventKind.slot : EventKind → Fin 10
  | .relocated => 0
  | .dataLost => 1
  | .unitDegraded => 2
  | .unitOffline => 3
  | .patrolPassEnd => 4
  | .commitFailed => 5
  | .mirrorCopyFailed => 6
  | .laneFault => 7
  | .regionChanged => 8
  | .spareLow => 9

/-- What an owner gives of an occurrence; a field left out is written all ones (R181). -/
structure Occurrence where
  code : Option Nat := none
  gen : Option Nat := none
  logical : Option Nat := none
  block : Option Nat := none
  media : Option Nat := none
  lane : Option Nat := none
  region : Option Nat := none

/-- A field of `w` bits, all ones when the owner gives none (R181). -/
def orAllOnes (w : Nat) : Option Nat → BitVec w
  | some v => BitVec.ofNat w v
  | none => BitVec.allOnes w

/-- The detail of an occurrence at this event (R181). -/
def Occurrence.detail (o : Occurrence) (tick : Tick) : EventDetail where
  code := orAllOnes 32 o.code
  stamp := tick
  gen := orAllOnes 64 o.gen
  logical := orAllOnes 32 o.logical
  block := orAllOnes 32 o.block
  media := orAllOnes 8 o.media
  lane := orAllOnes 8 o.lane
  region := orAllOnes 8 o.region

/-- The slot after an occurrence: new detail, count one up and saturating (R181). -/
def EventSlot.occur (e : EventSlot) (d : EventDetail) : EventSlot :=
  ⟨if e.count < Config.maxEventCount then e.count + 1 else e.count, d⟩

/-- The notification unit takes an occurrence (R181): slot copy, slot write, route cause. -/
def postEvent (k : EventKind) (o : Occurrence) (s : State) : State :=
  let e := (s.ntu.slots[k.slot]).occur (o.detail s.tick)
  let s := s.setNtu { s.ntu with slots := s.ntu.slots.set k.slot e }
  let s := askWrite (.slot k.slot) e.bytes s
  routeCause s.settings.eventRoutes[k.slot] s

end Sys2Proof.Machine
end

