-- ==== Sys2Proof/Machine/Layouts.lean ====
section
/-! DEFINITION. The layouts the device writes and reads whole: the four snapshots of TABLE_READ (R51, section 2.12), the
table image with its copies (R138), its tests at start-up (R140) and the device part of a record (section 2.12). -/

namespace Sys2Proof.Machine

/-! ### Codes of the layouts (section 2.12, section 7.1) -/

def RegionState.code : RegionState → Nat
  | .opened => 0
  | .guarded => 1
  | .fixed => 2

def RegionState.ofCode : Nat → RegionState
  | 1 => .guarded
  | 2 => .fixed
  | _ => .opened

def Cause.code : Cause → Nat
  | .patrolWeak => 1
  | .readWeak => 2
  | .readLost => 3
  | .programFail => 4
  | .directed => 5

def Cause.ofCode : Nat → Cause
  | 1 => .patrolWeak
  | 2 => .readWeak
  | 3 => .readLost
  | 4 => .programFail
  | _ => .directed

def UnitState.code : UnitState → Nat
  | .absent => 0
  | .online => 1
  | .degraded => 2
  | .offline => 3

def PassOutcome.code : PassOutcome → Nat
  | .complete => 1
  | .stopped => 2
  | .reset => 3

def PassOutcome.ofCode : Nat → PassOutcome
  | 1 => .complete
  | 2 => .stopped
  | _ => .reset

def Slot.code : Slot → Nat
  | .a => 1
  | .b => 2

/-- The op value of a region change (R28), the code of its REGION_CHANGED event (R181). -/
def RegionOp.code : RegionOp → Nat
  | .define _ _ _ _ => 0x10
  | .delete => 0x11
  | .guard => 0x12
  | .release => 0x13
  | .fix => 0x14

/-! ### Entries -/

/-- A region entry in 32 bytes. An undefined entry is zero except its index. -/
def regionBytes (index : Nat) (live : Option RegionDef) (marks users : Nat) : Bytes :=
  match live with
  | none => padTo 32 (leBytes 1 index)
  | some d =>
    padTo 32 (leBytes 1 index ++ leBytes 1 1 ++ leBytes 1 d.state.code ++ leBytes 1 d.owners.toNat ++ leBytes 1 marks
      ++ leBytes 1 users ++ leBytes 2 d.label.toNat ++ leBytes 4 d.base ++ leBytes 4 d.length
      ++ leBytes 8 (d.fixedGen.getD 0))

/-- The marks byte of a region entry: bit 0 pending, bit 1 closing. -/
def RegionEntry.marks (e : RegionEntry) : Nat := bit e.pending.isSome + 2 * bit e.closing

/-- A log slot in 64 bytes; one never written is zero (R131). -/
def logSlotBytes : Option LogEntry → Bytes
  | none => zeros 64
  | some e =>
    padTo 64 (leBytes 4 e.pass.toNat ++ leBytes 1 e.outcome.code ++ leBytes 1 e.unitsStopped ++ zeros 2
      ++ leBytes 8 e.startStamp.toNat ++ leBytes 8 e.endStamp.toNat ++ leBytes 8 e.endGen ++ leBytes 4 e.tallies.read
      ++ leBytes 4 e.tallies.corrected ++ leBytes 4 e.tallies.weakMoved ++ leBytes 4 e.tallies.lostFound
      ++ leBytes 4 e.tallies.blankSkipped)

/-- A dead-spare set in 128 bytes, spare s at bit s mod 8 of byte s div 8. -/
def deadBytes (dead : List Nat) : Bytes :=
  (List.range 128).map fun i =>
    BitVec.ofNat 8 (((List.range 8).map fun b => if dead.contains (8 * i + b) then 2 ^ b else 0).sum)

/-- A relocation entry in the 16 bytes of the snapshot. -/
def relocationBytes (e : RelEntry) : Bytes :=
  leBytes 4 e.src ++ leBytes 2 e.spare ++ leBytes 1 e.cause.code ++ leBytes 1 (bit e.poisoned) ++ leBytes 8 e.gen

/-- A relocation entry in the 14 bytes of the image. -/
def imageEntryBytes (e : RelEntry) : Bytes :=
  leBytes 2 e.src ++ leBytes 2 e.spare ++ leBytes 1 e.cause.code ++ leBytes 1 (bit e.poisoned) ++ leBytes 8 e.gen

/-! ### Snapshots (R51) -/

/-- Slot record of slot `sl` of unit `u`; units 2 and 3 have none (R141). -/
def Cme.slotRecord (c : Cme) (u : UnitId) (sl : Slot) : SlotRecord :=
  (c.slots[2 * u.val + (match sl with | .a => 0 | .b => 1)]?).join

/-- The slot of unit `u` holding the current generation, none when neither does (R141). -/
def Cme.currentSlot (c : Cme) (u : UnitId) : Option Slot :=
  if c.slotRecord u .a = some (c.gen, c.curWseq) then some .a
  else if c.slotRecord u .b = some (c.gen, c.curWseq) then some .b
  else none

/-- The 256-byte unit record (section 2.12). -/
def unitRecordBytes (s : State) (u : UnitId) : Bytes :=
  let c := s.chan u
  let r := s.rlt u
  let mirror := isMirrorUnder s.width u
  padTo 128 (leBytes 1 c.state.code ++ leBytes 1 (bit c.member) ++ leBytes 1 (bit mirror)
      ++ leBytes 1 (match s.cme.currentSlot u with | some sl => if mirror then sl.code else 0 | none => 0)
      ++ leBytes 2 r.table.freeCount ++ leBytes 2 (r.moves.length + r.failing.length) ++ leBytes 2 r.table.entries.length
      ++ leBytes 2 r.table.dead.length ++ leBytes 2 r.table.entries.length
      ++ leBytes 2 (r.table.entries.countP fun e => e.poisoned) ++ leBytes 1 r.moves.length ++ zeros 7
      ++ leBytes 8 s.cme.gen)
    ++ deadBytes r.table.dead

/-- The 512-byte patrol header. -/
def patrolHeaderBytes (s : State) : Bytes :=
  padTo 512 (leBytes 1 s.log.pointer ++ leBytes 1 (bit s.patrol.running) ++ leBytes 1 (bit s.patrol.cfg.auto)
    ++ leBytes 1 s.patrol.cfg.weak ++ leBytes 2 s.patrol.cfg.pace ++ zeros 2 ++ leBytes 4 s.patrol.cfg.settle
    ++ leBytes 4 s.patrol.passNumber.toNat)

/-- The region table snapshot, selector 0. -/
def regionSnapshot (s : State) : Bytes :=
  regionIndices.flatMap fun i =>
    let e := s.region i
    regionBytes i e.live e.marks e.users

/-- The relocation table snapshot of a unit, selector 1: live entries, then unused positions of all ones. -/
def relocationSnapshot (s : State) (u : UnitId) : Bytes :=
  let b := (s.rlt u).table.entries.flatMap relocationBytes
  b ++ List.replicate (16384 - b.length) 0xFF

/-- The patrol log snapshot, selector 2. -/
def logSnapshot (s : State) : Bytes := patrolHeaderBytes s ++ s.log.slots.toList.flatMap logSlotBytes

/-- The unit summary, selector 3. -/
def unitSummary (s : State) : Bytes := four.flatMap (unitRecordBytes s)

/-- The snapshot of a selector (R51). -/
def snapshot (s : State) (selector unit : Nat) : Bytes :=
  match selector with
  | 0 => regionSnapshot s
  | 1 => relocationSnapshot s (Fin.ofNat 4 unit)
  | 2 => logSnapshot s
  | _ => unitSummary s

/-- The size of a snapshot (R51). -/
def snapshotSize : Nat → Nat
  | 1 => 16384
  | 2 => 1536
  | _ => 1024

/-! ### Table image (R138) -/

/-- The bytes of an image's content: 3,072 and 14 for each relocation entry. -/
def imageLength (entries : Nat) : Nat := 3072 + 14 * entries

/-- The number of image blocks B. -/
def blocksFor (entries : Nat) : Nat := (imageLength entries + 4095) / 4096

/-- The entries of an image over all units. -/
def Durable.entryCount (d : Durable) : Nat := (d.units.toList.map fun t => t.entries.length).sum

def Image.blocks (im : Image) : Nat := blocksFor im.tables.entryCount

/-- The image header with check word 0, for a copy on a unit and slot. -/
def imageHeader (im : Image) (u : UnitId) (sl : Slot) : Bytes :=
  padTo 512 (leBytes 4 1 ++ zeros 4 ++ leBytes 8 im.gen ++ leBytes 1 im.width ++ leBytes 1 im.blocks ++ leBytes 1 u.val
    ++ leBytes 1 sl.code ++ leBytes 1 im.tables.log.pointer ++ leBytes 1 (bit im.patrol.auto) ++ leBytes 1 im.patrol.weak
    ++ zeros 1 ++ leBytes 2 im.patrol.pace ++ zeros 2 ++ leBytes 4 im.patrol.settle ++ leBytes 4 im.passNumber.toNat
    ++ im.tables.units.toList.flatMap (fun t => leBytes 2 t.entries.length) ++ leBytes 8 im.wseq)

/-- The four sections after the header. -/
def imageSections (im : Image) : Bytes :=
  (regionIndices.flatMap fun i => regionBytes i ((im.tables.regions[i]?).join) 0 0)
    ++ im.tables.log.slots.toList.flatMap logSlotBytes
    ++ im.tables.units.toList.flatMap (fun t => deadBytes t.dead)
    ++ im.tables.units.toList.flatMap (fun t => t.entries.flatMap imageEntryBytes)

/-- A copy of an image with its check word (R138, R140). -/
def copyBytes (im : Image) (u : UnitId) (sl : Slot) : Bytes :=
  let b := padTo (Config.blockSize * im.blocks) (imageHeader im u sl ++ imageSections im)
  splice b 4 (leBytes 4 (crc32c b).toNat)

/-- Block `k` of a copy. -/
def copyBlock (im : Image) (u : UnitId) (sl : Slot) (k : Nat) : Bytes :=
  ((copyBytes im u sl).drop (Config.blockSize * k)).take Config.blockSize

/-- The unit block of block 0 of a slot (R1). -/
def Slot.firstBlock : Slot → Nat
  | .a => Config.systemBase
  | .b => Config.systemBase + Config.slotBlocks

/-! ### Reading a copy (R140) -/

def hdrBlocks (b : Bytes) : Nat := (byteAt b 17).toNat
def hdrWidth (b : Bytes) : Nat := (byteAt b 16).toNat
/-- Entries of unit `u` by the header. -/
def hdrEntries (b : Bytes) (u : Nat) : Nat := field b (36 + 2 * u) 2
def hdrTotal (b : Bytes) : Nat := hdrEntries b 0 + hdrEntries b 1 + hdrEntries b 2 + hdrEntries b 3

/-- The tests of R140 that need block 0 alone (R153, step 1). -/
def headerOk (u : UnitId) (sl : Slot) (b : Bytes) : Bool :=
  field b 0 4 == 1
    && (hdrWidth b == 1 || hdrWidth b == 2 || hdrWidth b == 4)
    && decide (1 ≤ hdrBlocks b) && decide (hdrBlocks b ≤ 15)
    && decide ((byteAt b 20).toNat ≤ 16) && decide ((byteAt b 21).toNat ≤ 1)
    && decide (1 ≤ (byteAt b 22).toNat) && decide ((byteAt b 22).toNat ≤ 7)
    && decide (field b 24 2 ≤ 2000) && decide (100 ≤ field b 28 4) && decide (field b 28 4 ≤ 100000)
    && (byteAt b 18).toNat == u.val && (byteAt b 19).toNat == sl.code
    && isMirrorUnder (hdrWidth b) u
    && [0, 1, 2, 3].all (fun k => decide (hdrEntries b k ≤ 1024) && (decide (k < hdrWidth b) || hdrEntries b k == 0))
    && hdrBlocks b == blocksFor (hdrTotal b)

/-- The region entry in 32 bytes of an image. Bits 4 to 7 of the owner mask byte are dropped untested (log entry 22). A defined
byte other than 1 reads as undefined, and the index, marks and users bytes are not looked at (log entry 68). -/
def regionOfBytes (b : Bytes) : Option RegionDef :=
  if byteAt b 1 = 1 then
    some
      { base := field b 8 4
        length := field b 12 4
        owners := (byteAt b 3).extractLsb' 0 4
        state := RegionState.ofCode (byteAt b 2).toNat
        label := BitVec.ofNat 16 (field b 6 2)
        fixedGen := if byteAt b 2 = 2 then some (field b 16 8) else none }
  else none

/-- The log slot in 64 bytes of an image. -/
def logSlotOfBytes (b : Bytes) : Option LogEntry :=
  if b.all (· == 0) then none
  else
    some
      { pass := BitVec.ofNat 32 (field b 0 4)
        outcome := PassOutcome.ofCode (byteAt b 4).toNat
        unitsStopped := (byteAt b 5).toNat
        startStamp := BitVec.ofNat 64 (field b 8 8)
        endStamp := BitVec.ofNat 64 (field b 16 8)
        endGen := field b 24 8
        tallies := ⟨field b 32 4, field b 36 4, field b 40 4, field b 44 4, field b 48 4⟩ }

/-- The dead-spare set in 128 bytes of an image. -/
def deadOfBytes (b : Bytes) : List Nat :=
  (List.range Config.spares).filter fun k => (byteAt b (k / 8)).getLsbD (k % 8)

/-- `n` relocation entries of 14 bytes. A poisoned byte other than 1 reads as not poisoned (log entry 22). -/
def entriesOfBytes : Nat → Bytes → List RelEntry
  | 0, _ => []
  | n + 1, b =>
    ⟨field b 0 2, field b 2 2, Cause.ofCode (byteAt b 4).toNat, byteAt b 5 == 1, field b 6 8⟩
      :: entriesOfBytes n (b.drop 14)

/-- The 14-byte entries of unit `u`. -/
def entriesOfUnit (b : Bytes) (u : Nat) : List RelEntry :=
  entriesOfBytes (hdrEntries b u) (b.drop (3072 + 14 * ((List.range u).map (hdrEntries b)).sum))

/-- The image a copy's bytes hold (R138). -/
def imageOfBytes (b : Bytes) : Image where
  gen := field b 8 8
  wseq := field b 44 8
  width := hdrWidth b
  patrol := ⟨field b 24 2, field b 28 4, (byteAt b 22).toNat, byteAt b 21 == 1⟩
  passNumber := BitVec.ofNat 32 (field b 32 4)
  tables :=
    { regions := Vector.ofFn fun (i : Fin 32) => regionOfBytes ((b.drop (512 + 32 * i.val)).take 32)
      units := Vector.ofFn fun (u : Fin 4) => ⟨entriesOfUnit b u.val, deadOfBytes ((b.drop (2560 + 128 * u.val)).take 128)⟩
      log :=
        ⟨Vector.ofFn fun (i : Fin 16) => logSlotOfBytes ((b.drop (1536 + 64 * i.val)).take 64), (byteAt b 20).toNat⟩ }

/-- Two windows share a block. -/
def windowsMeet (b1 l1 b2 l2 : Nat) : Bool := decide (b1 < b2 + l2) && decide (b2 < b1 + l1)

/-- The region laws of R140, on the raw bytes where a parsed entry would hide a breach: states 0 to 2, a fixed generation
on FIXED entries alone, windows within capacity and apart. An undefined entry is not tested (log entries 22 and 68). -/
def regionLaws (b : Bytes) (im : Image) : Bool :=
  (List.range 32).all fun i =>
    let raw := (b.drop (512 + 32 * i)).take 32
    match (im.tables.regions[i]?).join with
    | none => true
    | some d =>
      decide ((byteAt raw 2).toNat ≤ 2) && (byteAt raw 2 == 2 || field raw 16 8 == 0)
        && decide (1 ≤ d.length) && decide (d.base + d.length ≤ im.width * Config.dataBlocks)
        && (List.range i).all fun k =>
          match (im.tables.regions[k]?).join with
          | none => true
          | some e => !windowsMeet d.base d.length e.base e.length

/-- Strictly ascending numbers. -/
def ascending : List Nat → Bool
  | a :: b :: rest => decide (a < b) && ascending (b :: rest)
  | _ => true

/-- No number occurs twice. -/
def distinct : List Nat → Bool
  | [] => true
  | a :: rest => !rest.contains a && distinct rest

/-- The laws of one unit's table (R140). -/
def tableLaws (t : UnitTable) (gen : Nat) : Bool :=
  ascending (t.entries.map RelEntry.src) && distinct (t.entries.map RelEntry.spare)
    && t.entries.all fun e =>
      !t.dead.contains e.spare && decide (e.spare < Config.spares) && decide (1 ≤ e.gen) && decide (e.gen ≤ gen)

/-- Every cause byte of the image's entries is 1 to 5 (R140). -/
def causeLaws (b : Bytes) : Bool :=
  (List.range (hdrTotal b)).all fun k =>
    let c := (byteAt b (3072 + 14 * k + 4)).toNat
    decide (1 ≤ c) && decide (c ≤ 5)

/-- The log laws: end generations from 1 to the image's (R140), outcomes of R131 (log entry 22). Units stopped, tallies and the
pointer's fit with the written slots are not tested (log entry 68). -/
def logLaws (b : Bytes) (im : Image) : Bool :=
  (List.range 16).all fun i =>
    match (im.tables.log.slots[i]?).join with
    | none => true
    | some e =>
      decide (1 ≤ e.endGen) && decide (e.endGen ≤ im.gen) && decide (1 ≤ (byteAt b (1536 + 64 * i + 4)).toNat)
        && decide ((byteAt b (1536 + 64 * i + 4)).toNat ≤ 3)

/-- The tests of R140 on a copy read whole whose header passed. -/
def copyOk (b : Bytes) : Bool :=
  let im := imageOfBytes b
  (crc32c (splice b 4 (zeros 4))).toNat == field b 4 4
    && decide (1 ≤ im.gen)
    && regionLaws b im && im.tables.units.toList.all (fun t => tableLaws t im.gen) && causeLaws b && logLaws b im

/-! ### Device part (section 2.12) -/

/-- The first device-part bytes, 88 to 99: status, blocks_ok, first_fail, corrected_blocks, weak_blocks. -/
def DevicePart.countsBytes (d : DevicePart) : Bytes :=
  leBytes 2 d.status.code ++ leBytes 2 d.blocksOk ++ leBytes 4 d.firstFail.toNat ++ leBytes 2 d.corrected
    ++ leBytes 2 d.weak

/-- The device-part bytes 104 to 127: result word and stamps. -/
def DevicePart.resultBytes (d : DevicePart) : Bytes :=
  leBytes 8 d.result.toNat ++ leBytes 8 d.startStamp.toNat ++ leBytes 8 d.endStamp.toNat

/-- The writes of a record's end in their order: device part, then the final state byte (R36). The four bytes at 100 are
not written (R25), so the device part goes out as two writes, the lower bytes first (log entry 65). -/
def resultWrites (addr : Addr) (d : DevicePart) (fs : FinalState) : List Output :=
  [.hostWrite (addr + 88) d.countsBytes, .hostWrite (addr + 104) d.resultBytes, .hostWrite (addr + 12) [fs.byte]]

end Sys2Proof.Machine
end

