-- ==== Sys2Proof/Machine/Regions.lean ====
section
/-! DEFINITION. The check order (R33): the argument tests of step 2 (R27 to R29, R46, R48, R51), the region tests of steps 3
to 8 (R13, R21, R22), the users counts (R9) and the test before a program step (R23). -/

namespace Sys2Proof.Machine

/-- The status of the first test that fails, none when all pass. -/
def firstFail (tests : List (Bool × Status)) : Option Status := (tests.find? fun t => !t.1).map Prod.snd

/-! ### Step 2 -/

/-- The flags an operation takes (R27), and no upper bit set. -/
def flagsOk (k : OpKind) (r : Bytes) : Bool :=
  let f := recFlags r
  (f.extractLsb' 5 3 == 0)
    && (!recSeglist r || k.needsSegments)
    && (!recRelocateWeak r || k == .verify)
    && (!recBlank r || k == .fill)

/-- The operations whose region field must lie in 0 to 31 (R28). -/
def OpKind.namesRegion : OpKind → Bool
  | .read | .write | .fill | .copy | .verify | .digest | .relocate
  | .regionDelete | .regionGuard | .regionRelease | .regionFix => true
  | _ => false

/-- The count column of R28. -/
def countOk (k : OpKind) (r : Bytes) : Bool :=
  match k with
  | .relocate => recCount r == 1
  | .read | .write | .fill | .copy | .verify | .digest => decide (1 ≤ recCount r) && decide (recCount r ≤ 4096)
  | _ => recCount r == 0

/-- The size the segment sum must have (R29, R51). -/
def requiredSize (k : OpKind) (r : Bytes) : Nat :=
  if k = .tableRead then snapshotSize (argSelector r) else recCount r * Config.blockSize

/-- The tests on single segments and on their sum (R29). -/
def segmentsOk (k : OpKind) (r : Bytes) (gs : List Segment) : Bool :=
  gs.all Segment.ok && segmentSum gs == requiredSize k r

/-- The segment tests made before a list is loaded: all of them without SEGLIST, seg_count and the list address with it. -/
def segmentFieldsOk (k : OpKind) (r : Bytes) : Bool :=
  if k.needsSegments then
    if recSeglist r then
      decide (1 ≤ recSegCount r) && decide (recSegCount r ≤ 64) && recListAddr r != 0 && (recListAddr r).toNat % 16 == 0
    else
      decide (1 ≤ recSegCount r) && decide (recSegCount r ≤ 2) && segmentsOk k r (inlineSegments r)
  else recSegCount r == 0

/-- The argument tests of COPY (R46): destination index, no wrap, no overlap within one region. -/
def copyArgsOk (r : Bytes) : Bool :=
  decide (argDstRegion r ≤ 31) && decide (argDstOffset r + recCount r ≤ 4294967296)
    && !(argDstRegion r == recRegion r && windowsMeet (recOffset r) (recCount r) (argDstOffset r) (recCount r))

/-- The argument tests of SET (R48). -/
def setArgsOk (r : Bytes) : Bool :=
  argAction r == 3 && decide (argPace r ≤ 2000) && decide (100 ≤ argSettle r) && decide (argSettle r ≤ 100000)
    && decide (1 ≤ argWeak r) && decide (argWeak r ≤ 7) && decide (argAuto r ≤ 1)

/-- The argument tests of TABLE_READ (R51). -/
def tableArgsOk (s : State) (r : Bytes) : Bool :=
  decide (argSelector r ≤ 3)
    && (argSelector r != 1 || (decide (argUnit r ≤ 3) && (s.chan (Fin.ofNat 4 (argUnit r))).state != .absent))

/-- The argument tests of an operation. -/
def argsOk (s : State) (k : OpKind) (r : Bytes) : Bool :=
  match k with
  | .copy => copyArgsOk r
  | .startPass => decide (0 < s.patrol.cfg.pace)
  | .setPatrol => setArgsOk r
  | .tableRead => tableArgsOk s r
  | .regionDefine => decide (argIndex r ≤ 31) && decide (1 ≤ argLength r) && decide ((argOwners r).toNat ≤ 15)
  | _ => true

/-- Step 2 on the record itself. -/
def step2Ok (s : State) (k : OpKind) (r : Bytes) : Bool :=
  flagsOk k r && (!k.namesRegion || decide (recRegion r ≤ 31)) && countOk k r && argsOk s k r && segmentFieldsOk k r

/-! ### Steps 3 to 8 -/

/-- The lane is an owner of the entry's region (R7). -/
def RegionEntry.ownedBy (e : RegionEntry) (l : LaneId) : Bool :=
  match e.live with
  | some d => d.owners.getLsbD l.val
  | none => false

/-- The region's length, 0 when undefined. -/
def RegionEntry.length (e : RegionEntry) : Nat :=
  match e.live with
  | some d => d.length
  | none => 0

/-- The region is live in this state. -/
def RegionEntry.inState (e : RegionEntry) (st : RegionState) : Bool :=
  match e.live with
  | some d => d.state == st
  | none => false

/-- A region whose blocks may be written: OPEN and not closing (R21, R23). -/
def RegionEntry.writable (e : RegionEntry) : Bool := e.inState .opened && !e.closing

/-- Steps 3 to 7 of a data record on its addressed region (R21). -/
def dataChecks (e : RegionEntry) (k : OpKind) (r : Bytes) (l : LaneId) (right : Bool) : List (Bool × Status) :=
  [ (k != .relocate || right || e.ownedBy l, .noRight),
    (e.live.isSome, .noRegion),
    (decide (recOffset r + recCount r ≤ e.length), .outOfRange),
    (!(k == .write || k == .fill) || e.ownedBy l, .notOwner),
    (e.pending != some .delete, .regionBusy),
    (!(k == .write || k == .fill) || e.writable, .isProtected) ]

/-- Steps 4 to 7 of a COPY on source and destination (R22). -/
def copyChecks (src dst : RegionEntry) (r : Bytes) (l : LaneId) : List (Bool × Status) :=
  [ (src.live.isSome, .noRegion),
    (dst.live.isSome, .noRegion),
    (decide (recOffset r + recCount r ≤ src.length), .outOfRange),
    (decide (argDstOffset r + recCount r ≤ dst.length), .outOfRange),
    (dst.ownedBy l, .notOwner),
    (src.pending != some .delete, .regionBusy),
    (dst.pending != some .delete, .regionBusy),
    (dst.writable, .isProtected) ]

/-- The window shares a block with no live region and no region whose DEFINE is pending (R14). -/
def windowFree (s : State) (base length : Nat) : Bool :=
  regionIndices.all fun i =>
    (match (s.region i).live with
      | some d => !windowsMeet base length d.base d.length
      | none => true)
    && (match (s.region i).pending with
      | some (.define b l _ _) => !windowsMeet base length b l
      | _ => true)

/-- Steps 3 to 8 of REGION_DEFINE (R13). -/
def defineChecks (s : State) (r : Bytes) (right : Bool) : List (Bool × Status) :=
  let e := s.region (argIndex r)
  [ (right, .noRight),
    (e.live.isNone, .indexInUse),
    (e.pending.isNone, .regionBusy),
    (decide (argBase r + argLength r ≤ s.width * Config.dataBlocks), .outOfRange),
    (windowFree s (argBase r) (argLength r), .overlap),
    (!s.lockdown, .lockedDown) ]

/-- Steps 3 to 8 of REGION_DELETE (R13). -/
def deleteChecks (s : State) (r : Bytes) (right : Bool) : List (Bool × Status) :=
  let e := s.region (recRegion r)
  [ (right, .noRight),
    (e.live.isSome, .noRegion),
    (e.pending.isNone, .regionBusy),
    (e.inState .opened, .isProtected),
    (e.users == 0, .regionBusy),
    (!s.lockdown, .lockedDown) ]

/-- Steps 3 to 8 of GUARD, RELEASE and FIX (R13, R12). -/
def protectChecks (s : State) (k : OpKind) (r : Bytes) (l : LaneId) (right : Bool) : List (Bool × Status) :=
  let e := s.region (recRegion r)
  [ (right || e.ownedBy l, .noRight),
    (e.live.isSome, .noRegion),
    (e.pending.isNone, .regionBusy),
    (k == .regionFix || !e.inState .fixed, .isProtected),
    (!s.lockdown, .lockedDown) ]

/-- Steps 3 to 8 of the check order for every operation (R33). -/
def accessChecks (s : State) (k : OpKind) (r : Bytes) (l : LaneId) (right : Bool) : List (Bool × Status) :=
  match k with
  | .copy => copyChecks (s.region (recRegion r)) (s.region (argDstRegion r)) r l
  | .read | .write | .fill | .verify | .digest | .relocate => dataChecks (s.region (recRegion r)) k r l right
  | .startPass => [(right, .noRight), (!s.patrol.running, .patrolBusy)]
  | .stopPass | .setPatrol | .lockdown => [(right, .noRight)]
  | .regionDefine => defineChecks s r right
  | .regionDelete => deleteChecks s r right
  | .regionGuard | .regionRelease | .regionFix => protectChecks s k r l right
  | .barrier | .tableRead | .badOp => []

/-- Steps 1 and 2 on a record (R33), the segments of an external list apart. -/
def argumentChecks (s : State) (k : OpKind) (r : Bytes) : List (Bool × Status) :=
  [(k != .badOp, .badOp), (step2Ok s k r, .badArg)]

/-! ### Users (R9) -/

/-- The regions whose users a data record raises, each once. -/
def usedRegions (k : OpKind) (r : Bytes) : List Nat :=
  if k = .copy then
    if argDstRegion r = recRegion r then [recRegion r] else [recRegion r, argDstRegion r]
  else if k.isData then [recRegion r]
  else []

def raiseUsers (is : List Nat) (s : State) : State :=
  forEach is (fun i t => t.setRegion i { t.region i with users := (t.region i).users + 1 }) s

def lowerUsers (is : List Nat) (s : State) : State :=
  forEach is (fun i t => t.setRegion i { t.region i with users := (t.region i).users - 1 }) s

/-! ### Program steps and region changes -/

/-- The region whose blocks a record programs: the destination of a COPY, else its own. -/
def writeRegion (r : Bytes) : Nat := if recKind r = .copy then argDstRegion r else recRegion r

/-- The region of a step: that of its program or clear, else the source's (R24). -/
def stepRegion (r : Bytes) (cmd : StepCmd) : Nat :=
  match cmd with
  | .read => recRegion r
  | .program | .clear => writeRegion r

/-- The index a region operation changes. -/
def opIndex (k : OpKind) (r : Bytes) : Nat := if k = .regionDefine then argIndex r else recRegion r

/-- The change an accepted region operation asks for (R14 to R18). -/
def opChange (k : OpKind) (r : Bytes) : RegionOp :=
  match k with
  | .regionDefine => .define (argBase r) (argLength r) ((argOwners r).extractLsb' 0 4) (argLabel r)
  | .regionDelete => .delete
  | .regionGuard => .guard
  | .regionRelease => .release
  | _ => .fix

/-- The accepted operation leaves the region as it is (R12): GUARD of GUARDED, RELEASE of OPEN, FIX of FIXED. -/
def opNoChange (s : State) (k : OpKind) (r : Bytes) : Bool :=
  let e := s.region (recRegion r)
  match k with
  | .regionGuard => e.inState .guarded
  | .regionRelease => e.inState .opened
  | .regionFix => e.inState .fixed
  | _ => false

/-- The first logical block of the record's window in region `i` (R21). -/
def windowStart (s : State) (i offset : Nat) : Nat :=
  match (s.region i).live with
  | some d => d.base + offset
  | none => offset

end Sys2Proof.Machine
end

