-- ==== Sys2Proof/Machine/Contexts.lean ====
section
/-! DEFINITION. The execution contexts (chapter 3): block table and staging buffers, the states of R54, the end of a record
(R34, R35), the ends of steps, moves and commits (R38, R43, R63, R65) and the abort (R67). -/

namespace Sys2Proof.Machine

/-! ### Block table and staging buffers (R53, R62) -/

/-- The phases that count among the outstanding steps (R53). -/
def BlockPhase.isStep : BlockPhase → Bool
  | .outstanding _ | .held _ | .awaitMove | .awaitCommit => true
  | .hostRead | .bufferWrite | .fold => false

/-- The number of outstanding steps (R61). -/
def Context.outstandingSteps (c : Context) : Nat := c.blocks.countP fun b => b.phase.isStep

/-- The phase of block `j`, if it is in the block table. -/
def Context.phase (c : Context) (j : Nat) : Option BlockPhase := (c.blocks.find? fun b => b.j == j).map BlockEntry.phase

/-- Block `j` goes to a phase. -/
def Context.setPhase (c : Context) (j : Nat) (p : BlockPhase) : Context :=
  { c with blocks := c.blocks.map fun b => if b.j = j then ⟨j, p⟩ else b }

/-- The lowest free staging buffer (which of the free ones is taken: log entry 41). -/
def Context.freeBuffer (c : Context) : Option (Fin 4) := four.find? fun i => (c.bufs[i]).bound.isNone

/-- The lowest free staging buffer is bound to block `j`. -/
def Context.bind (c : Context) (j : Nat) (data : Option Bytes) : Context :=
  match c.freeBuffer with
  | some i => { c with bufs := c.bufs.set i ⟨some j, data⟩ }
  | none => c

/-- The data of the buffer bound to block `j`. -/
def Context.bufferData (c : Context) (j : Nat) : Bytes :=
  ((c.bufs.toList.find? fun b => b.bound == some j).bind StagingBuf.data).getD []

/-- Data goes into the buffer bound to block `j`. -/
def Context.putData (c : Context) (j : Nat) (data : Bytes) : Context :=
  { c with bufs := mapVec (fun b => if b.bound = some j then { b with data := some data } else b) c.bufs }

/-- Block `j` leaves the block table and its buffer is free. -/
def Context.endBlock (c : Context) (j : Nat) : Context :=
  { c with
    blocks := c.blocks.filter fun b => b.j != j
    bufs := mapVec (fun b => if b.bound = some j then StagingBuf.free else b) c.bufs }

/-- Block `j` ends and counts in blocks_ok (R63). -/
def Context.succeed (c : Context) (j : Nat) : Context := { c.endBlock j with blocksOk := c.blocksOk + 1 }

/-- The failure record after block `j` fails (R63). -/
def lowerFailure (f : Option (Nat × Status)) (j : Nat) (st : Status) : Option (Nat × Status) :=
  match f with
  | none => some (j, st)
  | some (i, old) => if j < i then some (j, st) else some (i, old)

/-- Block `j` ends and fails (R63). -/
def Context.failBlock (c : Context) (j : Nat) (st : Status) : Context :=
  { c.endBlock j with failure := lowerFailure c.failure j st }

/-- The work a context still waits for: every block but those read and waiting to fold. -/
def Context.work (c : Context) : List BlockEntry := c.blocks.filter fun b => b.phase != .fold

/-- Nothing is outstanding: no block's work, no commit of a change, no pass, no list read. -/
def Context.idle (c : Context) : Bool := c.work.isEmpty && !c.waitCommit && !c.waitPass && !c.listReading

/-! ### The end of a record (R34, R35) -/

/-- Final state and status (R35). -/
def Context.outcome (c : Context) : FinalState × Status :=
  match c.refusal with
  | some st => (.failed, st)
  | none =>
    if c.abortMark then (.cancelled, .aborted)
    else
      match c.failure with
      | some (_, st) => (.failed, st)
      | none =>
        match c.otherFail with
        | some st => (.failed, st)
        | none => (.done, .ok)

/-- first_fail (R34). -/
def Context.firstFailField (c : Context) (fs : FinalState) : Word32 :=
  if fs = .failed ∧ (recKind c.record).isData then
    match c.refusal with
    | some _ => 0
    | none =>
      match c.failure with
      | some (j, _) => BitVec.ofNat 32 j
      | none => allOnes32
  else allOnes32

/-- The result word (R34, R49, R50). -/
def Context.resultWord (c : Context) (gen : Nat) (fs : FinalState) : BitVec 64 :=
  match recKind c.record with
  | .digest => if fs = .done then (~~~ c.crc).setWidth 64 else 0
  | .verify => BitVec.ofNat 64 c.moveReqs
  | .relocate => if fs = .done then c.result else BitVec.allOnes 64
  | .tableRead =>
    match c.snapGen with
    | some g => g ++ BitVec.ofNat 32 c.written
    | none => 0
  | .startPass | .stopPass => if fs = .done then c.result else 0
  | .setPatrol => if c.refusal.isSome ∨ fs = .cancelled then 0 else BitVec.ofNat 64 gen
  | .regionDefine | .regionDelete | .regionGuard | .regionRelease | .regionFix | .lockdown => BitVec.ofNat 64 gen
  | .read | .write | .fill | .copy | .barrier | .badOp => 0

/-- The device part (R34). -/
def Context.devicePart (c : Context) (gen : Nat) (tick : Tick) : DevicePart where
  status := c.outcome.2
  blocksOk := c.blocksOk
  firstFail := c.firstFailField c.outcome.1
  corrected := c.corrected
  weak := c.weak
  result := c.resultWord gen c.outcome.1
  startStamp := c.startStamp
  endStamp := tick

/-- A context enters FINISHING (R66): end stamp, final state and device part are decided. -/
def enterFinishing (x : CtxId) (s : State) : State :=
  let c := s.ctx x
  s.setCtx x
    { c with
      state := .finishing
      endStamp := s.tick
      blocks := []
      bufs := Vector.replicate 4 StagingBuf.free
      final := some (c.outcome.1, c.devicePart s.cme.gen s.tick) }

/-- A context returns to FREE (R53, R66): users fall, every field is cleared. -/
def freeContext (x : CtxId) (s : State) : State :=
  (lowerUsers (s.ctx x).raised s).setCtx x Context.empty

/-! ### The states of R54 -/

/-- There is nothing left to take into issue (R54). -/
def Context.issueOver (c : Context) : Bool :=
  c.abortMark || c.failure.isSome || c.otherFail.isSome
    || (if recKind c.record = .tableRead then decide (c.snapSize ≤ c.cursor * Config.blockSize)
        else decide (recCount c.record ≤ c.cursor))

/-- The state that fits what remains of the record (R54). -/
def Context.restState (c : Context) : CtxState :=
  if c.work.isEmpty && !c.waitCommit && !c.waitPass then .finishing
  else if c.state = .commitWait then .commitWait
  else if c.work.all (fun b => b.phase == .awaitCommit) && !c.abortMark && !c.waitPass then .commitWait
  else .drainingSteps

/-- A context that may leave its state does so: ISSUING, DRAINING_STEPS and COMMIT_WAIT by R54. In HALTED it keeps its
state, and returns to FREE in a warm reset once nothing is outstanding (R70; that it does so in a warm reset alone is log entry
72). Until then it keeps the buffers of blocks read and waiting to fold (R42, R62; log entry 71). -/
def ctxSettle (x : CtxId) (s : State) : State :=
  let c := s.ctx x
  if c.state = .free then s
  else if s.halted then
    if s.dev.resetInProgress && c.idle then freeContext x s else s
  else
    match c.state with
    | .issuing =>
      if c.issueOver then
        if c.restState = .finishing then enterFinishing x s else s.setCtx x { c with state := c.restState }
      else s
    | .drainingSteps | .commitWait =>
      if c.restState = .finishing then enterFinishing x s else s.setCtx x { c with state := c.restState }
    | .free | .loading | .finishing => s

/-- `c` becomes the context and settles. -/
def ctxUpdate (x : CtxId) (c : Context) (s : State) : State := ctxSettle x (s.setCtx x c)

/-! ### Issue of steps -/

/-- The pattern of a FILL repeated over one block (R45). -/
def fillBlock (r : Bytes) : Bytes := (List.replicate 512 (argPattern r)).flatten

/-- A step goes to its channel (R61). -/
def issueStep (x : CtxId) (j : Nat) (cmd : StepCmd) (s : State) : Eff :=
  (s.setCtx x ((s.ctx x).setPhase j (.outstanding cmd)), [.foregroundArrives x j cmd])

/-- A program or clear step is issued after the test of R23, or its block fails PROTECTED and no further step of the record
is issued. A block taken before a step of the record was refused fails PROTECTED too, whatever the region is by then (log
entry 39). -/
def issueProgram (x : CtxId) (j : Nat) (cmd : StepCmd) (s : State) : Eff :=
  let c := s.ctx x
  if (s.region (writeRegion c.record)).writable && !c.stepRefused then issueStep x j cmd s
  else (ctxUpdate x { c.failBlock j .isProtected with stepRefused := true } s, [])

/-! ### Ends of steps (R38, R43, R63) -/

/-- The digest takes blocks in ascending order while the next one has been read (R42). -/
def foldBlocks : Nat → Context → Context
  | 0, c => c
  | n + 1, c =>
    if c.phase c.foldNext = some .fold then
      foldBlocks n { c.endBlock c.foldNext with
        crc := crcFold c.crc (c.bufferData c.foldNext), foldNext := c.foldNext + 1 }
    else c

/-- The bytes of block `j` in the host buffer (R31). -/
def Context.pieces (c : Context) (j : Nat) : List (Addr × Nat) :=
  bufferPieces c.segs (j * Config.blockSize) Config.blockSize

/-- A read step with data ends: what the operation does with the block (R37, R39, R42, R46). A COPY's program is not issued
once the abort mark is set (log entry 14). -/
def readSucceeds (x : CtxId) (j : Nat) (data : Bytes) (s : State) : Eff :=
  let c := s.ctx x
  match recKind c.record with
  | .read =>
    if s.halted then (ctxUpdate x (c.endBlock j) s, [])
    else ((s.setCtx x ((c.putData j data).setPhase j .bufferWrite)).emit (pieceWrites (c.pieces j) data), [])
  | .digest =>
    let d := { (c.putData j data).setPhase j .fold with blocksOk := c.blocksOk + 1 }
    (ctxUpdate x (if c.abortMark || c.failure.isSome then d else foldBlocks 4 d) s, [])
  | .copy =>
    if c.abortMark then (ctxUpdate x (c.endBlock j) s, [])
    else issueProgram x j .program (s.setCtx x (c.putData j data))
  | _ => (ctxUpdate x (c.succeed j) s, [])

/-- The counts a read step adds (R38, R40, R63). -/
def Context.countRead (c : Context) (cls : ReadClass) (weak handed : Bool) : Context :=
  { c with
    corrected := if cls = .corrected then c.corrected + 1 else c.corrected
    weak := if cls = .corrected ∧ weak then c.weak + 1 else c.weak
    moveReqs := if handed ∧ recKind c.record = .verify then c.moveReqs + 1 else c.moveReqs }

/-- A step ends for its context (R63). An outcome for a block the context no longer has changes nothing. -/
def stepEnds (x : CtxId) (j : Nat) (out : StepOutcome) (s : State) : Eff :=
  let c := s.ctx x
  if (c.phase j).isNone then (s, [])
  else
    match out with
    | .read cls weak handed data =>
      let c := c.countRead cls weak handed
      match cls with
      | .clean | .corrected | .blank => readSucceeds x j data (s.setCtx x c)
      | .uncorrectable | .poisoned => (ctxUpdate x (c.failBlock j .dataLost) s, [])
    | .programOk => (ctxUpdate x (c.succeed j) s, [])
    | .programPoisoned => (ctxUpdate x (c.setPhase j .awaitCommit) s, [])
    | .programFail => (ctxUpdate x (c.setPhase j .awaitMove) s, [])
    | .offline => (ctxUpdate x (c.failBlock j .unitOffline) s, [])
    | .withdrawn => (ctxUpdate x (c.endBlock j) s, [])

/-- The lock of a held step is released and the step is issued again (R64, R145). A held read is issued again even after a
program step of its record was refused (R23, R64: log entry 38), and a held program after the host read of another block of its
record failed (R44, R64: log entry 48). -/
def reissueStep (x : CtxId) (j : Nat) (s : State) : Eff :=
  match (s.ctx x).phase j with
  | some (.held .read) => issueStep x j .read s
  | some (.held cmd) => issueProgram x j cmd s
  | _ => (s, [])

/-- The entry of the block's move joins a batch (R65). -/
def moveBatched (x : CtxId) (j : Nat) (s : State) : State :=
  let c := s.ctx x
  if (c.phase j).isNone then s else ctxUpdate x (c.setPhase j .awaitCommit) s

/-- A block's move or commit ends (R65). -/
def blockEnds (x : CtxId) (j : Nat) (res : BlockResult) (s : State) : State :=
  let c := s.ctx x
  if (c.phase j).isNone then s
  else
    match res with
    | .live spare =>
      ctxUpdate x
        { c.succeed j with result := if recKind c.record = .relocate then BitVec.ofNat 64 spare else c.result } s
    | .failed st => ctxUpdate x (c.failBlock j st) s
    | .gone => ctxUpdate x (c.endBlock j) s

/-- The commit of a region change or SET ends (R20, R49, R65). -/
def changeEnds (x : CtxId) (ok : Bool) (s : State) : State :=
  let c := s.ctx x
  if c.waitCommit then
    ctxUpdate x { c with waitCommit := false, otherFail := if ok then c.otherFail else some .commitFailed } s
  else s

/-- The pass a STOP_PASS waits for has ended (R133). -/
def passEnded (x : CtxId) (number : Word32) (s : State) : State :=
  let c := s.ctx x
  if c.waitPass then ctxUpdate x { c with waitPass := false, result := number.setWidth 64 } s else s

/-! ### Abort (R67, R70) -/

/-- A phase of a held step. -/
def BlockPhase.isHeld : BlockPhase → Bool
  | .held _ => true
  | _ => false

/-- The context's places on the held lists of every lock go (R89). -/
def forgetHeld (x : CtxId) (s : State) : State :=
  { s with
    chans := mapVec
      (fun c => { c with locks := c.locks.map fun k => { k with held := k.held.filter fun h => h.1 != x } }) s.chans }

/-- The blocks in the given phases end without success or failure. -/
def Context.dropBlocks (c : Context) (p : BlockPhase → Bool) : Context :=
  ((c.blocks.filter fun b => p b.phase).map BlockEntry.j).foldl Context.endBlock c

/-- Held steps are withdrawn (R67). -/
def withdrawHeld (x : CtxId) (s : State) : State :=
  let t := forgetHeld x s
  t.setCtx x ((t.ctx x).dropBlocks BlockPhase.isHeld)

/-- A context takes an abort (R67). In COMMIT_WAIT and FINISHING the abort mark stays clear (log entry 42). -/
def ctxAbort (x : CtxId) (s : State) : State :=
  match (s.ctx x).state with
  | .free | .commitWait | .finishing => s
  | .loading => s.setCtx x { s.ctx x with abortMark := true }
  | .issuing | .drainingSteps =>
    let t := withdrawHeld x s
    ctxSettle x (t.setCtx x { t.ctx x with abortMark := true })

/-- The host-facing phases a halt cuts (R70). -/
def BlockPhase.hostFacing : BlockPhase → Bool
  | .hostRead | .bufferWrite => true
  | _ => false

/-- A context at the entry to HALTED (R70): the abort mark is set, held steps are withdrawn, accesses in flight are no
longer waited for (log entry 15). -/
def ctxHalt (x : CtxId) (s : State) : State :=
  if (s.ctx x).state = .free then s
  else
    let t := withdrawHeld x s
    ctxSettle x
      (t.setCtx x { (t.ctx x).dropBlocks BlockPhase.hostFacing with abortMark := true, listReading := false })

end Sys2Proof.Machine
end

