-- ==== Sys2Proof/Machine/Relocation.lean ====
section
/-! DEFINITION. The relocation tables (chapter 5): requests and their tests (R102, R103), slots (R104), moves (R105 to
R109), a move's end at its channel (R89), abandonment (R112), poison clears (R114), unit loss and warm reset (R118, R119), and
the ends a commit gives (R110, R111, R145). -/

namespace Sys2Proof.Machine

/-! ### Events (R117) -/

/-- An occurrence about block `b` of unit `u`: unit, unit block, logical block and region (R4, R24). -/
def State.blockOccurrence (s : State) (u : UnitId) (b code gen : Nat) (lane : Option LaneId) : Occurrence where
  code := some code
  gen := some gen
  logical := s.logicalOf u b
  block := some b
  media := some u.val
  lane := lane.map Fin.val
  region := s.regionOfBlock u b

/-- DATA_LOST (R117): code 1 foreground read, 2 patrol read, 3 move read. -/
def postDataLost (u : UnitId) (b code : Nat) (lane : Option LaneId) (s : State) : State :=
  postEvent .dataLost (s.blockOccurrence u b code s.cme.gen lane) s

/-! ### Moves and waiters -/

/-- The move of number `mid`. -/
def Rlt.move (r : Rlt) (mid : Nat) : Option Move := r.moves.find? fun m => m.mid == mid

/-- The move `m` in the place of the one of its number. -/
def Rlt.putMove (r : Rlt) (m : Move) : Rlt := { r with moves := r.moves.map fun k => if k.mid = m.mid then m else k }

/-- The move of number `mid` leaves its slot. -/
def Rlt.dropMove (r : Rlt) (mid : Nat) : Rlt := { r with moves := r.moves.filter fun m => m.mid != mid }

/-- The status of an abandonment for a waiting block (R112): a PROGRAM_FAIL waiter and a DIRECTED one. -/
def AbandonCode.status (directed : Bool) : AbandonCode → Status
  | .unitOffline => .unitOffline
  | .writeFailed => .writeFailed
  | .noSpare => if directed then .noSpare else .writeFailed

/-- The end of a block for each waiter. -/
def waitersEnd (ws : List Waiter) (res : Waiter → BlockResult) : List Msg :=
  ws.map fun w => .blockEnds w.ctx w.j (res w)

/-- The end report of a finding, if the request is one (R129). -/
def MoveReq.findingReport (q : MoveReq) (u : UnitId) (res : FindingEnd) : List Msg :=
  match q.finding with
  | some tag => [.findingEnded u q.src tag res]
  | none => []

/-- The first report of a finding, if the request is one (R128). -/
def MoveReq.findingReply (q : MoveReq) (u : UnitId) (ans : FindingAnswer) : List Msg :=
  match q.finding with
  | some tag => [.findingAnswered u q.src tag ans]
  | none => []

/-- A move's program is a clear of its spare: a poison move, or a PROGRAM_FAIL of a clear step (R106). -/
def MoveReq.clears (q : MoveReq) : Bool := q.cause == .readLost || (q.cause == .programFail && q.blank)

/-- The command by which the move fills its spare. -/
def MoveReq.fillCommand (q : MoveReq) : StepCmd := if q.clears then .clear else .program

/-- The move's program or clear of its spare is handed to the channel (R106, R107, R108). -/
def Move.fill (m : Move) (u : UnitId) : Msg :=
  .moveEntryArrives u m.mid m.req.fillCommand (Config.spareBase + m.spare)

/-! ### The end of a move at its channel (R89) -/

/-- An entry of the given move. -/
def QEntry.ofMove (e : QEntry) (mid : Nat) : Bool := e.source == .move mid

/-- The queue is empty: nothing performed, nothing queued. -/
def Channel.quiet (c : Channel) : Bool := c.link == .idle && c.queue.isEmpty

/-- A move's lock goes, with its entries not performed and its move buffer (R83, R89). -/
def Channel.endMove (c : Channel) (mid : Nat) : Channel :=
  { c with
    locks := c.locks.filter fun k => k.mid != mid
    queue := c.queue.filter fun e => !e.ofMove mid
    moveBuf := if c.moveBuf.any (fun b => b.mid == mid) then none else c.moveBuf }

/-- The steps held under a move's lock, in list order (R88). -/
def Channel.heldUnder (c : Channel) (mid : Nat) : List (CtxId × Nat) :=
  (c.locks.filter fun k => k.mid == mid).flatMap Lock.held

/-- The channel takes a move's end (R89): its lock goes, and the held steps are released in list order. The channel selects,
and reports itself quiet where the end has emptied its queue (R79), before it releases a step (log entry 21). -/
def channelRelease (u : UnitId) (mid : Nat) (s : State) : Eff :=
  let c := s.chan u
  let d := c.endMove mid
  (s.setChan u d,
    .select u :: (if d.quiet && !c.quiet then [.quiet u] else []) ++ (c.heldUnder mid).map fun h => .reissue h.1 h.2)

/-- A move leaves its slot, and its channel takes its end at the same change: no move can start on the block while the ended one's
lock still stands on it, so a block has at most one lock (R88, R89). -/
def leaveSlot (u : UnitId) (mid : Nat) (s : State) : Eff := channelRelease u mid (s.setRlt u ((s.rlt u).dropMove mid))

/-! ### Start (R105) and abandonment (R112) -/

/-- A request that has reached no slot is abandoned (R112, R117): at the take a patrol finding is answered with its end,
and a lost one abandoned for want of a spare raises its DATA_LOST. -/
def abandonRequest (u : UnitId) (q : MoveReq) (code : AbandonCode) (s : State) : Eff :=
  let lostFinding := q.finding.any fun tag => tag.lost
  let s := if lostFinding && code == .noSpare then postDataLost u q.src 2 none s else s
  (s, q.findingReply u .ended ++ waitersEnd q.waiters fun w => .failed (code.status w.directed))

/-- A request takes a slot and its move starts on the given spare, or is abandoned for want of one (R105). A request abandoned
here ends its waiters and its finding before the slot goes to the next request (log entry 73). -/
def startOn (u : UnitId) (q : MoveReq) (spare : Option Nat) (s : State) : Eff :=
  let r := s.rlt u
  match spare with
  | none =>
    let e := abandonRequest u q .noSpare s
    (e.1, e.2 ++ [.slotFreed u])
  | some k =>
    (s.setRlt u { r with moves := r.moves ++ [⟨r.nextMid, q, .starting, k, 1⟩], nextMid := r.nextMid + 1 },
      q.findingReply u .taken ++ [.moveStart u r.nextMid])

/-- A request takes a slot and its move starts on the lowest choosable spare (R105). -/
def startMove (u : UnitId) (q : MoveReq) (s : State) : Eff := startOn u q (s.rlt u).lowestChoosable s

/-- A move in a slot is abandoned (R112). The channel's release comes before the ends of its waiters and its finding (log
entry 58), and those before the next move of the freed slot (log entry 73). -/
def abandonMove (u : UnitId) (m : Move) (code : AbandonCode) (s : State) : Eff :=
  let e := leaveSlot u m.mid s
  (e.1, e.2 ++ waitersEnd m.req.waiters (fun w => .failed (code.status w.directed))
    ++ m.req.findingReport u .abandoned ++ [.slotFreed u])

/-! ### The take of a request (R102, R103) -/

/-- A move of block `b` is in a slot. -/
def Rlt.inSlot (r : Rlt) (b : Nat) : Bool := r.moves.any fun m => m.req.src == b

/-- The oldest request of the list whose block has no move in a slot (R104). -/
def Rlt.nextRequest (r : Rlt) : Option MoveReq := r.requests.find? fun q => !r.inSlot q.src

/-- A request names no waiting context (R104). -/
def MoveReq.untied (q : MoveReq) : Bool := q.cause == .readWeak || q.cause == .readLost

/-- A request that names no waiting context finds no place (R104). -/
def Rlt.untiedFull (r : Rlt) : Bool := decide (Config.untiedPlaces ≤ r.requests.countP MoveReq.untied)

/-- The replacement of a waiting request by a PROGRAM_FAIL (R103). -/
def MoveReq.replacedBy (old new : MoveReq) : MoveReq := { new with waiters := old.waiters ++ new.waiters }

/-- The first request of block `b` in the list, changed by `f`. -/
def updateRequest (b : Nat) (f : MoveReq → MoveReq) : List MoveReq → List MoveReq
  | [] => []
  | q :: qs => if q.src = b then f q :: qs else q :: updateRequest b f qs

/-- Block `b` is known lost: it has a poisoned entry, or a poison move of it is in a slot or waits in the request list (R47, R102,
R115). A DIRECTED request of such a block is refused. -/
def Rlt.knownLost (r : Rlt) (b : Nat) : Bool :=
  r.table.poisoned b || r.moves.any (fun m => m.req.src == b && m.req.cause == .readLost)
    || r.requests.any fun q => q.src == b && q.cause == .readLost

/-- The request joins a companion waiting in the list (R103). A DIRECTED one comes here only where no poison move of its block
exists (`Rlt.knownLost`). -/
def joinWaiting (u : UnitId) (q : MoveReq) (s : State) : Eff :=
  let r := s.rlt u
  match q.cause with
  | .readWeak | .patrolWeak => (s, q.findingReply u .absorbed)
  | .readLost =>
    (if q.finding.isSome then postDataLost u q.src 2 none s else s, q.findingReply u .absorbed)
  | .directed =>
    (s.setRlt u
      { r with requests := updateRequest q.src (fun c => { c with waiters := c.waiters ++ q.waiters }) r.requests }, [])
  | .programFail =>
    (s.setRlt u { r with requests := updateRequest q.src (fun c => c.replacedBy q) r.requests }, [])

/-- The request joins a companion in a slot (R103). A waiter on a move whose entry is already in a batch is told so at
once (R65). A DIRECTED one comes here only where no poison move of its block exists (`Rlt.knownLost`). -/
def joinStarted (u : UnitId) (q : MoveReq) (comp : Move) (s : State) : Eff :=
  let r := s.rlt u
  match q.cause with
  | .readWeak | .patrolWeak => (s, q.findingReply u .absorbed)
  | .readLost =>
    (if q.finding.isSome then postDataLost u q.src 2 none s else s, q.findingReply u .absorbed)
  | .directed =>
    (s.setRlt u (r.putMove { comp with req := { comp.req with waiters := comp.req.waiters ++ q.waiters } }),
      if comp.state = .batched then q.waiters.map fun w => .moveBatched w.ctx w.j else [])
  | .programFail => (s.setRlt u { r with requests := r.requests ++ [q] }, [])

/-- Tests 5 to 8 of R102, for a request without a companion. -/
def placeRequest (u : UnitId) (q : MoveReq) (s : State) : Eff :=
  let r := s.rlt u
  if q.cause = .directed ∧ r.lowestChoosable = none then (s, waitersEnd q.waiters fun _ => .failed .noSpare)
  else if r.moves.length < Config.moveSlots ∧ r.nextRequest = none then startMove u q s
  else if q.finding.isSome then (s, q.findingReply u .full)
  else if q.untied && r.untiedFull then (s, [])
  else (s.setRlt u { r with requests := r.requests ++ [q] }, [])

/-- A READ_LOST request from the channel raises DATA_LOST at its take, whatever becomes of it (R117). It is posted before what
becomes of the request (log entry 69). -/
def raiseAtTake (u : UnitId) (q : MoveReq) (s : State) : State :=
  if q.cause = .readLost ∧ q.finding.isNone then postDataLost u q.src 1 q.lane s else s

/-- The relocation table takes a request (R102). Where its block has both a request in the list and a move in a slot, the one in
the list is its companion (R103), but a DIRECTED request is refused for a poison move in either place (R47, R115; log entry 67). -/
def takeRequest (u : UnitId) (q : MoveReq) (s : State) : Eff :=
  let s := raiseAtTake u q s
  let r := s.rlt u
  if (s.chan u).state = .offline then abandonRequest u q .unitOffline s
  else if q.readTarget.any (fun t => t != r.table.target q.src) then (s, [])
  else if q.cause = .directed ∧ r.knownLost q.src then (s, waitersEnd q.waiters fun _ => .failed .dataLost)
  else
    match r.requests.find? (fun c => c.src == q.src) with
    | some _ => joinWaiting u q s
    | none =>
      match r.moves.find? (fun m => m.req.src == q.src) with
      | some comp => joinStarted u q comp s
      | none => placeRequest u q s

/-- A slot is free (R104): the oldest request that can take it starts, or patrol is told. -/
def slotFreed (u : UnitId) (s : State) : Eff :=
  let r := s.rlt u
  if Config.moveSlots ≤ r.moves.length then (s, [])
  else
    match r.nextRequest with
    | some q => startMove u q (s.setRlt u { r with requests := r.requests.erase q })
    | none => (s, [.freeSlotReport u])

/-! ### The answers of the channel (R106 to R109) -/

/-- The channel accepted the start (R106): a move that carries data or a blank writes at once, any other reads first. A
lost patrol finding raises its DATA_LOST here (R117). -/
def startAccepted (u : UnitId) (m : Move) (s : State) : Eff :=
  let s := if m.req.finding.any (fun tag => tag.lost) then postDataLost u m.req.src 2 none s else s
  let r := s.rlt u
  if m.req.cause = .programFail ∨ m.req.cause = .readLost then
    (s.setRlt u (r.putMove { m with state := .writing }), [m.fill u])
  else (s.setRlt u (r.putMove { m with state := .reading }), [.moveEntryArrives u m.mid .read m.req.src])

/-- The request of the DIRECTED waiters of a DROPPED move (R104, R115): that of the earliest, the others waiting on it. -/
def directedAgain (s : State) (src : Nat) (w : Waiter) (ws : List Waiter) : MoveReq where
  src := src
  cause := .directed
  lane := some (s.ctx w.ctx).lane
  region := some (recRegion (s.ctx w.ctx).record)
  readTarget := none
  waiters := w :: ws
  finding := none
  blank := false
  dataFrom := none

/-- The channel refused the start DROPPED (R106). The finding's end is reported before the freed slot starts its next move (log
entry 73). -/
def startDropped (u : UnitId) (m : Move) (s : State) : Eff :=
  let s := s.setRlt u ((s.rlt u).dropMove m.mid)
  match m.req.waiters with
  | [] => (s, m.req.findingReport u .dropped ++ [.slotFreed u])
  | w :: ws =>
    let e := startMove u (directedAgain s m.req.src w ws) s
    (e.1, m.req.findingReport u .dropped ++ e.2)

/-- A move read ends (R107). An outcome for a move that has ended is discarded (R119). The channel releases a POISONED move before
its waiters and its finding end (log entry 58), and those end before the next move of the freed slot (log entry 73). -/
def moveReadEnds (u : UnitId) (mid : Nat) (out : MoveOutcome) (s : State) : Eff :=
  match (s.rlt u).move mid with
  | none => (s, [])
  | some m =>
    if m.state ≠ .reading then (s, [])
    else
      match out with
      | .uncorrectable =>
        let s := postDataLost u m.req.src 3 m.req.lane s
        let n := { m with
          state := .writing
          req := { m.req with cause := .readLost, waiters := m.req.waiters.filter fun w => !w.directed } }
        (s.setRlt u ((s.rlt u).putMove n),
          waitersEnd (m.req.waiters.filter fun w => w.directed) (fun _ => .failed .dataLost) ++ [n.fill u])
      | .poisoned =>
        let e := leaveSlot u mid s
        (e.1, e.2 ++ waitersEnd m.req.waiters (fun _ => .failed .dataLost) ++ m.req.findingReport u .abandoned
          ++ [.slotFreed u])
      | .offline => abandonMove u m .unitOffline s
      | .data | .ok | .programFail =>
        let n := { m with state := .writing }
        (s.setRlt u ((s.rlt u).putMove n), [n.fill u])

/-- The change a move hands the commit engine (R109). -/
def Move.change (m : Move) (u : UnitId) : Change :=
  .entry u m.mid m.req.src m.spare m.req.cause (m.req.cause == .readLost) m.req.lane

/-- A move whose spare has failed goes on with the given spare, or is abandoned for want of one; its third spare was its last
(R108). -/
def retryOn (u : UnitId) (m : Move) (spare : Option Nat) (s : State) : Eff :=
  if Config.maxSpares ≤ m.tries then abandonMove u m .writeFailed s
  else
    match spare with
    | none => abandonMove u m .noSpare s
    | some k =>
      let n := { m with spare := k, tries := m.tries + 1 }
      (s.setRlt u ((s.rlt u).putMove n), [n.fill u])

/-- A move's program or clear ends (R108, R109). After PROGRAM_FAIL the next spare is chosen before the dead mark reaches the
engine, so a commit of it that fails at once frees the failed spare too late for this choice (log entry 49). -/
def moveWriteEnds (u : UnitId) (mid : Nat) (out : MoveOutcome) (s : State) : Eff :=
  match (s.rlt u).move mid with
  | none => (s, [])
  | some m =>
    if m.state ≠ .writing then (s, [])
    else
      match out with
      | .ok =>
        (s.setRlt u ((s.rlt u).putMove { m with state := .batched }),
          (m.req.waiters.map fun w => .moveBatched w.ctx w.j) ++ [.change (m.change u)])
      | .programFail =>
        let t := s.setRlt u { s.rlt u with failing := (s.rlt u).failing ++ [m.spare] }
        let e := retryOn u m (t.rlt u).lowestChoosable t
        (e.1, .change (.dead u m.spare) :: e.2)
      | .data | .uncorrectable | .poisoned | .offline => abandonMove u m .unitOffline s

/-! ### Poison clears (R114) -/

/-- The context becomes a waiter on a clear of the block in the accumulating batch, if there is one. -/
def addClearWaiter (u : UnitId) (b : Nat) (w : CtxId × Nat) : List Change → Option (List Change)
  | [] => none
  | .poisonClear v c ws :: rest =>
    if v = u ∧ c = b then some (.poisonClear v c (ws ++ [w]) :: rest)
    else (addClearWaiter u b w rest).map (.poisonClear v c ws :: ·)
  | chg :: rest => (addClearWaiter u b w rest).map (chg :: ·)

/-- The relocation table takes a poison clear (R114). -/
def takePoisonClear (u : UnitId) (b : Nat) (x : CtxId) (j : Nat) (s : State) : Eff :=
  match addClearWaiter u b (x, j) s.cme.accumulating with
  | some batch => (s.setCme { s.cme with accumulating := batch }, [])
  | none => (s, [.change (.poisonClear u b [(x, j)])])

/-! ### Unit loss and warm reset (R118, R119) -/

/-- A move whose entry change is not in a batch. -/
def Move.unbatched (m : Move) : Bool := m.state != .batched

/-- The unit's moves that are not in a batch, and its requests, are abandoned with UNIT_OFFLINE (R118). What the channel held for
these moves is gone with the loss, without release reports (R93). -/
def movesLost (u : UnitId) (s : State) : Eff :=
  let r := s.rlt u
  let t := s.setRlt u { r with moves := r.moves.filter fun m => !m.unbatched, requests := [] }
  (t.setChan u ((r.moves.filter Move.unbatched).foldl (fun c m => c.endMove m.mid) (t.chan u)),
    ((r.moves.filter Move.unbatched).flatMap fun m =>
        waitersEnd m.req.waiters (fun _ => .failed .unitOffline) ++ m.req.findingReport u .abandoned)
      ++ r.requests.flatMap fun q => waitersEnd q.waiters fun _ => .failed .unitOffline)

/-- A move abandoned by a warm reset, already out of its slot (R119, R96): the channel's release, then the ends of its waiters and
its finding (log entry 58). -/
def resetEndsMove (u : UnitId) (m : Move) (s : State) : Eff :=
  let e := channelRelease u m.mid s
  (e.1, e.2 ++ waitersEnd m.req.waiters (fun _ => .gone) ++ m.req.findingReport u .abandoned)

/-- A warm reset at the relocation table (R119). -/
def rltReset (u : UnitId) (s : State) : Eff :=
  let r := s.rlt u
  let e := effEach (r.moves.filter Move.unbatched) (resetEndsMove u)
    (s.setRlt u { r with moves := r.moves.filter fun m => !m.unbatched, requests := [] })
  (e.1, e.2 ++ r.requests.flatMap fun q => waitersEnd q.waiters fun _ => .gone)

/-! ### Ends a commit gives (R110, R111, R114, R145) -/

/-- How a commit leaves a change: carried by a success, discarded by a failure, or removed at the take (R145). -/
inductive ChangeFate
  | live | discarded | removed
  deriving DecidableEq, Repr

/-- The end of a move's waiting block: a block removed at the take fails PROTECTED where its cause is a PROGRAM_FAIL. -/
def ChangeFate.waiterResult (f : ChangeFate) (spare : Nat) (w : Waiter) : BlockResult :=
  match f with
  | .live => .live spare
  | .discarded => .failed .commitFailed
  | .removed => .failed (if w.directed then .commitFailed else .isProtected)

/-- The end of a poison clear's waiting block. -/
def ChangeFate.clearResult : ChangeFate → BlockResult
  | .live => .live 0
  | .discarded => .failed .commitFailed
  | .removed => .failed .isProtected

/-- A BATCHED move ends LIVE or DISCARDED (R110, R111). The channel's release comes before the ends of its waiters and its finding
(log entry 58); its slot starts a request only when every move of the batch has ended (log entries 50 and 57). -/
def moveEnds (u : UnitId) (mid spare : Nat) (f : ChangeFate) (s : State) : Eff :=
  match (s.rlt u).move mid with
  | none => (s, [])
  | some m =>
    let e := leaveSlot u mid s
    (e.1, e.2 ++ waitersEnd m.req.waiters (f.waiterResult spare)
      ++ m.req.findingReport u (if f = .live then .moved else .discarded))

/-- The slot that the end of a change frees (R104). -/
def Change.freedSlot (s : State) (chg : Change) : Option Msg :=
  match chg with
  | .entry u mid _ _ _ _ _ => ((s.rlt u).move mid).map fun _ => .slotFreed u
  | .region _ _ _ _ | .dead _ _ | .poisonClear _ _ _ | .log _ | .config _ => none

/-- The end of one change of a batch for its relocation table. Region changes, log entries and SETs have other holders. -/
def rltChangeEnds (f : ChangeFate) (chg : Change) (s : State) : Eff :=
  match chg with
  | .entry u mid _ spare _ _ _ => moveEnds u mid spare f s
  | .dead u k => (s.setRlt u { s.rlt u with failing := (s.rlt u).failing.erase k }, [])
  | .poisonClear _ _ ws => (s, ws.map fun w => .blockEnds w.1 w.2 f.clearResult)
  | .region _ _ _ _ | .log _ | .config _ => (s, [])

end Sys2Proof.Machine
end

