-- ==== Sys2Proof/Machine/Channels.lean ====
section
/-! DEFINITION. The channel controllers (chapter 4): arrivals (R77, R78), selection and performing (R80, R82, R83), ends of
entries (R84 to R86), marks and move locks (R87, R88), unit loss (R93) and warm reset (R96). A lock's end (R89) stands in
Relocation.lean, beside the move's end that it belongs to. -/

namespace Sys2Proof.Machine

/-! ### Queue, marks and locks -/

/-- A FOREGROUND entry. -/
def QEntry.isForeground (e : QEntry) : Bool :=
  match e.source with
  | .foreground _ _ _ _ _ => true
  | _ => false

/-- A COMMIT entry. -/
def QEntry.isCommit (e : QEntry) : Bool :=
  match e.source with
  | .commit => true
  | _ => false

/-- A MOVE entry. -/
def QEntry.isMove (e : QEntry) : Bool :=
  match e.source with
  | .move _ => true
  | _ => false

/-- A PATROL entry. -/
def QEntry.isPatrol (e : QEntry) : Bool :=
  match e.source with
  | .patrol => true
  | _ => false

/-- The entry being performed. -/
def Channel.performing (c : Channel) : Option QEntry :=
  match c.link with
  | .performing e _ _ _ _ _ _ => some e
  | _ => none

/-- The entries in the channel: performed, queued, waiting. -/
def Channel.entries (c : Channel) : List QEntry := c.performing.toList ++ c.queue ++ c.waiting

/-- The FOREGROUND entries in the queue, the one being performed included (R77). -/
def Channel.foregroundCount (c : Channel) : Nat := (c.performing.toList ++ c.queue).countP QEntry.isForeground

/-- The lock on unit block `b`. -/
def Channel.lockOn (c : Channel) (b : Nat) : Option Lock := c.locks.find? fun k => k.block == b

/-- The patrol mark on unit block `b`. -/
def Channel.markOn (c : Channel) (b : Nat) : Option Mark := (c.marks.find? fun m => m.1 == b).map Prod.snd

/-- The mark on `b` goes (R87). -/
def Channel.dropMark (c : Channel) (b : Nat) : Channel := { c with marks := c.marks.filter fun m => m.1 != b }

/-- A mark on `b`, replacing any (R87). -/
def Channel.setMark (c : Channel) (b : Nat) (m : Mark) : Channel :=
  { c with marks := (c.dropMark b).marks ++ [(b, m)] }

/-- A mark on `b`, if there is one, becomes REWRITTEN (R87). -/
def Channel.rewriteMark (c : Channel) (b : Nat) : Channel :=
  { c with marks := c.marks.map fun m => if m.1 = b then (b, .rewritten) else m }

/-- A FOREGROUND entry leaves the queue: the departure is noted and the head of the waiting list is admitted (R77). -/
def Channel.depart (c : Channel) (tick : Tick) : Channel :=
  { c with
    lastDeparture := some tick
    queue := c.queue ++ c.waiting.take 1
    waiting := c.waiting.drop 1 }

/-! ### Selection and start (R80, R82, R83) -/

/-- A MOVE entry that may be performed now (R80): a move read needs the move buffer free. -/
def Channel.moveReady (c : Channel) (e : QEntry) : Bool := e.isMove && (e.cmd != .read || c.moveBuf.isNone)

/-- The entry to perform next (R80). -/
def Channel.choose (c : Channel) : Option QEntry :=
  match c.queue.find? QEntry.isCommit with
  | some e => some e
  | none =>
    match c.queue.find? c.moveReady with
    | some e => some e
    | none => c.queue.find? QEntry.isForeground

/-- The target is a spare, so a command sent to it was redirected there (R82). A MOVE program names its spare and is not
redirected. -/
def isSpare (target : Nat) : Bool := decide (Config.spareBase ≤ target) && decide (target < Config.spareBase + Config.spares)

/-- The unit block an entry's command is sent to (R82). -/
def targetOf (s : State) (u : UnitId) (e : QEntry) : Nat :=
  match e.source with
  | .commit => e.block
  | .move _ => if e.cmd = .read then (s.rlt u).table.target e.block else e.block
  | .foreground _ _ _ _ _ => (s.rlt u).table.target e.block
  | .patrol => (s.rlt u).table.target e.block

/-- The block of the copy being written that a COMMIT program carries (R146). -/
def commitData (s : State) (u : UnitId) (block : Nat) : Bytes :=
  match s.cme.inFlight with
  | none => []
  | some f =>
    match f.copies.find? fun k => k.media == u with
    | none => []
    | some k => copyBlock f.image u k.slot (block - k.slot.firstBlock)

/-- The data of a move's program (R76, R83): the move buffer, or the staging buffer a PROGRAM_FAIL request names. -/
def moveData (s : State) (u : UnitId) (mid : Nat) : Bytes :=
  match ((s.rlt u).move mid).bind fun m => m.req.dataFrom with
  | some (x, j) => (s.ctx x).bufferData j
  | none => ((s.chan u).moveBuf.bind MoveBuf.data).getD []

/-- The data a program carries to the unit (R72). -/
def programData (s : State) (u : UnitId) (e : QEntry) : Bytes :=
  if e.cmd = .program then
    match e.source with
    | .commit => commitData s u e.block
    | .move mid => moveData s u mid
    | .foreground x j _ _ _ => (s.ctx x).bufferData j
    | .patrol => []
  else []

/-- The command sent for an entry. -/
def mediaCommand (cmd : StepCmd) (target : Nat) (data : Bytes) : MediaCmd :=
  match cmd with
  | .read => .read target
  | .program => .program target data
  | .clear => .clear target

/-- The answer timer's expiry for a command sent now (R73). -/
def answerExpiry (s : State) : Tick := s.tick + BitVec.ofNat 64 Config.answerTimeout

/-- An entry's command goes out as the first attempt (R73). -/
def sendEntry (u : UnitId) (e : QEntry) (target : Nat) (data : Bytes) (poisoned : Bool) (s : State) : State :=
  let c := s.chan u
  (s.setChan u { c with
      link := .performing e target false (c.sent + 1) (answerExpiry s) data poisoned
      sent := c.sent + 1 }).emit
    [.media u (c.sent + 1) (mediaCommand e.cmd target data)]

/-- What the channel notes as it starts an entry: the move buffer of a move read (R83), the REWRITTEN mark of a foreground
program or clear (R86), the mark of a patrol read (R87). -/
def noteStart (c : Channel) (e : QEntry) : Channel :=
  match e.source with
  | .move mid => if e.cmd = .read then { c with moveBuf := some ⟨mid, none⟩ } else c
  | .foreground _ _ _ _ _ => if e.cmd = .read then c else c.rewriteMark e.block
  | .patrol => c.setMark e.block .cleanSinceRead
  | .commit => c

/-- A chosen entry, already out of the queue, starts (R82). A foreground or move read of a poisoned block ends POISONED at
once, without the mark of a step performed on a spare (log entry 47), and the channel selects again and reports itself quiet
where nothing is left (R79), before a move read's end reaches its relocation table (log entry 21). -/
def startEntry (u : UnitId) (e : QEntry) (s : State) : Eff :=
  let poisoned := (s.rlt u).table.poisoned e.block
  match e.source with
  | .foreground x j _ _ _ =>
    if e.cmd = .read ∧ poisoned then
      (s.setChan u ((s.chan u).depart s.tick), [.stepEnds x j (.read .poisoned false false []) false, .select u, .quiet u])
    else (sendEntry u e (targetOf s u e) (programData s u e) poisoned (s.setChan u (noteStart (s.chan u) e)), [])
  | .move mid =>
    if e.cmd = .read ∧ poisoned then (s, [.select u, .quiet u, .moveReadEnds u mid .poisoned false])
    else (sendEntry u e (targetOf s u e) (programData s u e) false (s.setChan u (noteStart (s.chan u) e)), [])
  | .commit | .patrol =>
    (sendEntry u e (targetOf s u e) (programData s u e) false (s.setChan u (noteStart (s.chan u) e)), [])

/-- An idle channel selects (R80). -/
def selectEntry (u : UnitId) (s : State) : Eff :=
  let c := s.chan u
  if c.link ≠ .idle then (s, [])
  else
    match c.choose with
    | none => (s, [])
    | some e => startEntry u e (s.setChan u { c with queue := c.queue.erase e })

/-! ### Arrivals (R77, R78) -/

/-- The logical block of a context's step (R21, R22). -/
def stepLogical (c : Context) (j : Nat) (cmd : StepCmd) : Nat :=
  match cmd with
  | .read => c.srcBase + j
  | .program | .clear => c.dstBase + j

/-- The move-on-weak indicator of a read (R76). -/
def moveOnWeak (r : Bytes) : Bool :=
  match recKind r with
  | .read | .digest | .copy => true
  | .verify => recRelocateWeak r
  | _ => false

/-- The entry of a context's step (R76). -/
def stepEntry (s : State) (x : CtxId) (j : Nat) (cmd : StepCmd) : QEntry :=
  let c := s.ctx x
  ⟨.foreground x j c.lane (stepRegion c.record cmd) (moveOnWeak c.record), cmd, s.blockOf (stepLogical c j cmd)⟩

/-- The context keeps a step the channel returned as HELD; with the abort mark set the step is withdrawn at once (R64). -/
def holdStep (x : CtxId) (j : Nat) (cmd : StepCmd) (s : State) : State :=
  let c := s.ctx x
  if c.abortMark then ctxUpdate x (c.endBlock j) s else s.setCtx x (c.setPhase j (.held cmd))

/-- The lock's list takes held steps at its tail (R77, R88). A withdrawn step has no place on it (R89). -/
def Channel.addHeld (c : Channel) (b : Nat) (hs : List (CtxId × Nat)) : Channel :=
  { c with locks := c.locks.map fun k => if k.block = b then { k with held := k.held ++ hs } else k }

/-- The steps that go on a held list: those of contexts without the abort mark. -/
def keptHeld (s : State) (hs : List (CtxId × Nat)) : List (CtxId × Nat) := hs.filter fun h => !(s.ctx h.1).abortMark

/-- A FOREGROUND entry arrives (R77). -/
def foregroundArrives (x : CtxId) (j : Nat) (cmd : StepCmd) (s : State) : Eff :=
  let u := s.unitOf (stepLogical (s.ctx x) j cmd)
  let e := stepEntry s x j cmd
  let c := s.chan u
  if c.state = .offline then (s, [.stepEnds x j .offline false])
  else if (c.lockOn e.block).isSome then (holdStep x j cmd (s.setChan u (c.addHeld e.block (keptHeld s [(x, j)]))), [])
  else if c.foregroundCount < Config.foregroundPlaces ∧ c.waiting = [] then
    (s.setChan u { c with queue := c.queue ++ [e] }, [.select u])
  else (s.setChan u { c with waiting := c.waiting ++ [e] }, [])

/-- A MOVE entry arrives (R78). -/
def moveEntryArrives (u : UnitId) (mid : Nat) (cmd : StepCmd) (b : Nat) (s : State) : Eff :=
  let c := s.chan u
  if c.state = .offline then
    (s, [if cmd = .read then .moveReadEnds u mid .offline false else .moveWriteEnds u mid .offline])
  else (s.setChan u { c with queue := c.queue ++ [⟨.move mid, cmd, b⟩] }, [.select u])

/-- A COMMIT entry arrives (R78). -/
def commitEntryArrives (u : UnitId) (cmd : StepCmd) (b : Nat) (s : State) : Eff :=
  let c := s.chan u
  if c.state = .offline then (s, [if cmd = .read then .loadReadEnds u none else .copyEnds u (.offline false)])
  else (s.setChan u { c with queue := c.queue ++ [⟨.commit, cmd, b⟩] }, [.select u])

/-! ### Moves (R88) -/

/-- Context and block of a FOREGROUND entry. -/
def QEntry.step? (e : QEntry) : Option (CtxId × Nat × StepCmd) :=
  match e.source with
  | .foreground x j _ _ _ => some (x, j, e.cmd)
  | _ => none

/-- A FOREGROUND entry that names unit block `b`. -/
def QEntry.foregroundOn (e : QEntry) (b : Nat) : Bool := e.isForeground && e.block == b

/-- A starting move settles the mark on its from-block (R87). -/
def Channel.settleMark (c : Channel) (m : Move) : Channel :=
  if m.req.finding.isSome then c.dropMark m.req.src else c.rewriteMark m.req.src

/-- The FOREGROUND steps on a block that are not performed, in arrival order (R88). -/
def Channel.stepsOn (c : Channel) (b : Nat) : List (CtxId × Nat × StepCmd) :=
  ((c.queue ++ c.waiting).filter fun e => e.foregroundOn b).filterMap QEntry.step?

/-- The FOREGROUND entries on a block leave queue and waiting list, and each queue place they leave admits the head of the
waiting list (R77, R88). -/
def Channel.giveBack (c : Channel) (b : Nat) (tick : Tick) : Channel :=
  (c.queue.filter fun e => e.foregroundOn b).foldl (fun d _ => d.depart tick)
    { c with
      queue := c.queue.filter fun e => !e.foregroundOn b
      waiting := c.waiting.filter fun e => !e.foregroundOn b }

/-- The channel sets a move lock (R88): the mark is settled (R87), and foreground entries on the block are returned HELD in
arrival order. -/
def setLock (u : UnitId) (m : Move) (s : State) : State :=
  let c := s.chan u
  let b := m.req.src
  let steps := c.stepsOn b
  let d := (c.settleMark m).giveBack b s.tick
  forEach steps (fun h => holdStep h.1 h.2.1 h.2.2)
    (s.setChan u { d with locks := d.locks ++ [⟨b, m.mid, keptHeld s (steps.map fun h => (h.1, h.2.1))⟩] })

/-- The relocation table asks the channel to start a move (R88, R87, R106). -/
def moveStart (u : UnitId) (mid : Nat) (s : State) : Eff :=
  match (s.rlt u).move mid with
  | none => (s, [])
  | some m =>
    let c := s.chan u
    let b := m.req.src
    if m.state ≠ .starting then (s, [])
    else if c.state = .offline then abandonMove u m .unitOffline s
    else if m.req.finding.isSome ∧ c.markOn b = some .rewritten then startDropped u m (s.setChan u (c.dropMark b))
    else if c.performing.any (fun e => e.foregroundOn b) then
      (s.setChan u (if m.req.finding.isSome then c.dropMark b else c), [])
    else startAccepted u m (setLock u m s)

/-- The starts deferred behind a foreground performance on `b` are taken (R88). -/
def takeDeferred (u : UnitId) (b : Nat) (s : State) : Eff :=
  (s, (((s.rlt u).moves.filter fun m => m.state == .starting && m.req.src == b).map Move.mid).map (Msg.moveStart u))

/-! ### Ends of entries (R84 to R86) -/

/-- The performance of an entry ends: the link is idle, and a FOREGROUND entry departs. -/
def Channel.endEntry (c : Channel) (e : QEntry) (tick : Tick) : Channel :=
  let c := { c with link := .idle }
  if e.isForeground then c.depart tick else c

/-- What follows the end of a performance: starts deferred behind a FOREGROUND entry, the next selection (R80), the quiet report
when the queue has become empty (R79), and the outcome to its holders, which for a PATROL read goes before the report (R126)
(log entries 8 and 21). -/
def afterEntry (u : UnitId) (e : QEntry) (outs : List Msg) : List Msg :=
  (if e.isForeground then [.takeDeferred u e.block] else []) ++ .select u
    :: if e.isPatrol then outs ++ [.quiet u] else .quiet u :: outs

/-- The channel's part of a read end (R83, R87). -/
def Channel.noteReadEnd (c : Channel) (e : QEntry) (cls : ReadClass) (weak : Bool) (data : Bytes) : Channel :=
  match e.source with
  | .move mid =>
    if c.moveBuf.any (fun b => b.mid == mid) then
      match cls with
      | .clean | .corrected | .blank => { c with moveBuf := some ⟨mid, some data⟩ }
      | .uncorrectable | .poisoned => { c with moveBuf := none }
    else c
  | .patrol =>
    match cls with
    | .clean | .blank => c.dropMark e.block
    | .corrected => if weak then c else c.dropMark e.block
    | .uncorrectable | .poisoned => c
  | .foreground _ _ _ _ _ | .commit => c

/-- A request the channel makes (R101). -/
def channelRequest (cause : Cause) (b : Nat) (lane : LaneId) (region : Nat) (target : Option Nat) : MoveReq where
  src := b
  cause := cause
  lane := some lane
  region := some region
  readTarget := target
  waiters := []
  finding := none
  blank := false
  dataFrom := none

/-- What a READ's outcome hands on (R85). -/
def readOutcome (u : UnitId) (e : QEntry) (target : Nat) (cls : ReadClass) (weak : Bool) (data : Bytes) : List Msg :=
  match e.source with
  | .foreground x j lane region mow =>
    let handed := weak && mow
    [.stepEnds x j (.read cls weak handed data) (isSpare target)]
      ++ (if handed then [.moveRequest u (channelRequest .readWeak e.block lane region (some target))] else [])
      ++ (if cls = .uncorrectable then [.moveRequest u (channelRequest .readLost e.block lane region (some target))] else [])
  | .patrol => [.patrolReadEnds u cls weak (isSpare target)]
  | .move mid => [.moveReadEnds u mid (if cls = .uncorrectable then .uncorrectable else .data) (isSpare target)]
  | .commit => [.loadReadEnds u (if cls = .clean ∨ cls = .corrected then some data else none)]

/-- A READ ends with an answer (R84, R85). -/
def readEnds (u : UnitId) (e : QEntry) (target : Nat) (cls : ReadClass) (weak : Bool) (data : Bytes) (s : State) : Eff :=
  (s.setChan u (((s.chan u).noteReadEnd e cls weak data).endEntry e s.tick),
    afterEntry u e (readOutcome u e target cls weak data))

/-- The PROGRAM_FAIL request of a foreground step (R86, R101). -/
def failRequest (e : QEntry) (x : CtxId) (j : Nat) (lane : LaneId) (region : Nat) : MoveReq :=
  { channelRequest .programFail e.block lane region none with
    waiters := [⟨x, j, false⟩], blank := e.cmd == .clear, dataFrom := some (x, j) }

/-- What the end of a PROGRAM or CLEAR performed on `target` hands on (R86). -/
def writeOutcome (u : UnitId) (e : QEntry) (target : Nat) (ok poisoned : Bool) : List Msg :=
  match e.source with
  | .foreground x j lane region _ =>
    if ok then
      if poisoned then [.stepEnds x j .programPoisoned (isSpare target), .poisonClear u e.block x j]
      else [.stepEnds x j .programOk (isSpare target)]
    else [.stepEnds x j .programFail (isSpare target), .moveRequest u (failRequest e x j lane region)]
  | .move mid => [.moveWriteEnds u mid (if ok then .ok else .programFail)]
  | .commit => [.copyEnds u (if ok then .ok else .programFail)]
  | .patrol => []

/-- The move buffer is freed at the event at which a program of its move ends OK (R83). -/
def Channel.noteWriteEnd (c : Channel) (e : QEntry) (ok : Bool) : Channel :=
  match e.source with
  | .move mid => if ok && c.moveBuf.any (fun b => b.mid == mid) then { c with moveBuf := none } else c
  | .foreground _ _ _ _ _ | .patrol | .commit => c

/-- A PROGRAM or CLEAR ends with an answer (R86). -/
def writeEnds (u : UnitId) (e : QEntry) (target : Nat) (ok poisoned : Bool) (s : State) : Eff :=
  (s.setChan u (((s.chan u).noteWriteEnd e ok).endEntry e s.tick), afterEntry u e (writeOutcome u e target ok poisoned))

/-! ### Unit loss (R93) -/

/-- The code of an unanswered command in UNIT_OFFLINE (R93). -/
def StepCmd.code : StepCmd → Nat
  | .read => 2
  | .program => 3
  | .clear => 4

/-- How an entry that the loss ends is reported; `sent` says whether its command had gone out, `onSpare` whether to a spare
(R82). MOVE entries are reported with their moves (R118), a PATROL entry with the unit (R136). -/
def lossOutcome (u : UnitId) (sent onSpare : Bool) (e : QEntry) : List Msg :=
  match e.source with
  | .foreground x j _ _ _ => [.stepEnds x j .offline onSpare]
  | .commit => [if e.cmd = .read then .loadReadEnds u none else .copyEnds u (.offline sent)]
  | .move _ | .patrol => []

/-- The move whose read the loss ends on a spare: a redirected MOVE read's outcome records it (R82). -/
def lostMoveOnSpare (e : QEntry) (target : Nat) : Option Nat :=
  match e.source with
  | .move mid => if e.cmd = .read ∧ isSpare target then some mid else none
  | .foreground _ _ _ _ _ | .patrol | .commit => none

/-- The second NO_RESPONSE of a step sent to `target` (R93). Patrol is told first, so that the lost unit is STOPPED_UNIT
when the ends of its findings are tested for the end of the pass (R136; the order is log entry 8). UNIT_OFFLINE is posted
before the events the loss sets off elsewhere (log entry 69). -/
def unitLoss (u : UnitId) (e : QEntry) (target : Nat) (s : State) : Eff :=
  let c := s.chan u
  let t := s.setChan u { c with
    state := .offline
    link := .idle
    queue := []
    waiting := []
    locks := []
    marks := []
    moveBuf := none
    lastDeparture := if c.entries.any QEntry.isForeground then some s.tick else c.lastDeparture }
  (postEvent .unitOffline (t.blockOccurrence u e.block e.cmd.code s.cme.gen none) t,
    .patrolLost u (e.isPatrol && isSpare target) :: lossOutcome u true (isSpare target) e
      ++ (c.queue ++ c.waiting).flatMap (lossOutcome u false false)
      ++ (c.locks.flatMap Lock.held).map (fun h => .stepEnds h.1 h.2 .offline false)
      ++ [.movesLost u (lostMoveOnSpare e target)])

/-! ### Warm reset (R96) -/

/-- A warm reset at the channel: unstarted FOREGROUND entries are withdrawn and marks go; the last foreground departure is
kept, and patrol's settle time is counted from it (R96, log entry 56). -/
def chanReset (u : UnitId) (s : State) : Eff :=
  let c := s.chan u
  let dropped := (c.queue ++ c.waiting).filter QEntry.isForeground
  let d := { c with
    queue := c.queue.filter fun e => !e.isForeground
    waiting := []
    marks := [] }
  (s.setChan u d,
    (dropped.filterMap QEntry.step?).map (fun h => .stepEnds h.1 h.2.1 .withdrawn false)
      ++ (if d.quiet && !c.quiet then [.quiet u] else []))

end Sys2Proof.Machine
end

