-- ==== Sys2Proof/Machine/PatrolUnit.lean ====
section
/-! DEFINITION. The patrol unit (chapter 6): offers (R79, R124), pace and settle (R125, R126), the judging of reads (R127),
findings (R128, R129), the start and end of a pass (R122, R130) and unit loss (R136). -/

namespace Sys2Proof.Machine

/-- A change of one unit's items. -/
def modPatrolUnit (u : UnitId) (f : PatrolUnit → PatrolUnit) (s : State) : State := s.setPatrolUnit u (f (s.patrolUnit u))

/-- A unit goes to a sub-state. -/
def setSub (u : UnitId) (sub : SubState) (s : State) : State := modPatrolUnit u (fun p => { p with sub := sub }) s

/-- The pace interval in microseconds (R125). -/
def PatrolCfg.interval (c : PatrolCfg) : Tick := BitVec.ofNat 64 (1000000 / c.pace)

/-! ### Offers (R79, R124) -/

/-- How the channel answers an offer (R124). -/
inductive OfferAnswer
  | accepted | moving | poisoned | busy
  | settling (departure : Tick)
  | offline
  deriving DecidableEq, Repr

/-- The tick at which the settle interval after the departure is over (R126). -/
def settleEnd (s : State) (departure : Tick) : Tick := departure + BitVec.ofNat 64 s.patrol.cfg.settle

/-- The channel's test of an offer of block `b` (R79, R82). A foreground departure before a warm reset counts (R75, R96; log
entry 56). -/
def offerAnswer (s : State) (u : UnitId) (b : Nat) : OfferAnswer :=
  let c := s.chan u
  let judged : OfferAnswer :=
    if (c.lockOn b).isSome then .moving
    else if (s.rlt u).table.poisoned b then .poisoned
    else .accepted
  if !c.state.inService then .offline
  else if !c.quiet || !c.waiting.isEmpty then .busy
  else
    match c.lastDeparture with
    | none => judged
    | some d => if reached s.tick (settleEnd s d) then judged else .settling d

/-- A unit stops: its timers stop, its cursor stays (R136). -/
def stopUnit (u : UnitId) (s : State) : State :=
  modPatrolUnit u (fun p => { p with sub := .stoppedUnit, paceTimer := none, settleTimer := none }) s

/-- An accepted offer starts the pace timer (R125). -/
def offerTaken (u : UnitId) (s : State) : State :=
  modPatrolUnit u
    (fun p => { p with sub := .readOut, paceTimer := some (s.tick + s.patrol.cfg.interval), settleTimer := none }) s

/-- The cursor moves past a block; behind the last block the unit is FINISHED (R123). -/
def advanceCursor (u : UnitId) (s : State) : State := modPatrolUnit u (fun p => { p with cursor := p.cursor + 1 }) s

/-- The unit has passed its last block. -/
def PatrolUnit.over (p : PatrolUnit) : Bool := decide (Config.dataBlocks ≤ p.cursor)

/-- A READY unit offers the block at its cursor (R124). -/
def offerBlock (u : UnitId) (s : State) : Eff :=
  let b := (s.patrolUnit u).cursor
  match offerAnswer s u b with
  | .accepted => startEntry u ⟨.patrol, .read, b⟩ (offerTaken u s)
  | .moving =>
    let s := advanceCursor u s
    if (s.patrolUnit u).over then (setSub u .finished s, [.passCheck]) else (s, [.patrolReady u])
  | .poisoned => (offerTaken u s, [.patrolReadEnds u .poisoned false false])
  | .busy => (modPatrolUnit u (fun p => { p with sub := .suspended, settleTimer := none }) s, [])
  | .settling d => (modPatrolUnit u (fun p => { p with sub := .suspended, settleTimer := some (settleEnd s d) }) s, [])
  | .offline => (stopUnit u s, [.passCheck])

/-- A unit becomes READY (R124): it offers when the device is RUNNING and no stop mark is set, and waits without a timer at
pace 0. -/
def becomeReady (u : UnitId) (s : State) : Eff :=
  let s := setSub u .ready s
  if !s.patrol.running || s.dev.state != .running || s.patrol.stopMark then (s, [])
  else if s.patrol.cfg.pace = 0 then (modPatrolUnit u (fun p => { p with sub := .paceWait, paceTimer := none }) s, [])
  else offerBlock u s

/-! ### Read ends and findings (R127 to R129) -/

/-- What a block adds to the tallies when the cursor advances past it (R127). -/
def Tallies.add (t : Tallies) (cls : ReadClass) : Tallies :=
  match cls with
  | .clean => { t with read := t.read + 1 }
  | .corrected => { t with read := t.read + 1, corrected := t.corrected + 1 }
  | .blank => { t with read := t.read + 1, blankSkipped := t.blankSkipped + 1 }
  | .uncorrectable | .poisoned => { t with read := t.read + 1, lostFound := t.lostFound + 1 }

def addTally (cls : ReadClass) (s : State) : State :=
  s.setPatrol { s.patrol with tallies := s.patrol.tallies.add cls }

/-- A block is dealt with: tallies, cursor, and FINISHED, PACE_WAIT or READY (R123, R125). -/
def blockDone (u : UnitId) (cls : ReadClass) (s : State) : Eff :=
  let s := advanceCursor u (addTally cls s)
  let p := s.patrolUnit u
  if p.over then (setSub u .finished s, [.passCheck])
  else if p.paceTimer.isSome then (setSub u .paceWait s, [.passCheck])
  else (setSub u .ready s, [.patrolReady u, .passCheck])

/-- The finding a patrol read gives (R101, R128). -/
def findingRequest (s : State) (u : UnitId) (lost : Bool) : MoveReq where
  src := (s.patrolUnit u).cursor
  cause := if lost then .readLost else .patrolWeak
  lane := none
  region := none
  readTarget := none
  waiters := []
  finding := some ⟨s.patrol.passNumber, lost⟩
  blank := false
  dataFrom := none

/-- A patrol read ends (R127, R128). An end that comes outside READ_OUT of the open pass changes nothing (R123, R137). -/
def patrolReadEnds (u : UnitId) (cls : ReadClass) (weak : Bool) (s : State) : Eff :=
  if s.patrol.running && (s.patrolUnit u).sub == .readOut then
    match cls with
    | .clean | .blank | .poisoned => blockDone u cls s
    | .corrected => if weak then (s, [.moveRequest u (findingRequest s u false)]) else blockDone u cls s
    | .uncorrectable => (s, [.moveRequest u (findingRequest s u true)])
  else (s, [])

/-- The finding is settled at the channel: the mark on its block goes (R87, R128). -/
def settleFinding (u : UnitId) (b : Nat) (s : State) : State := s.setChan u ((s.chan u).dropMark b)

/-- The classification a finding is tallied by (R127). -/
def FindingTag.cls (t : FindingTag) : ReadClass := if t.lost then .uncorrectable else .corrected

/-- The relocation table's first report on a finding (R128). -/
def findingAnswered (u : UnitId) (b : Nat) (tag : FindingTag) (ans : FindingAnswer) (s : State) : Eff :=
  if s.patrol.running && tag.pass == s.patrol.passNumber && (s.patrolUnit u).sub == .readOut then
    match ans with
    | .taken => blockDone u tag.cls (modPatrolUnit u (fun p => { p with findings := p.findings ++ [b] }) s)
    | .absorbed | .ended => blockDone u tag.cls (settleFinding u b s)
    | .full => (setSub u .moveWait (settleFinding u b s), [.passCheck])
  else (s, [])

/-- A finding ends (R129). -/
def findingEnded (u : UnitId) (b : Nat) (tag : FindingTag) (res : FindingEnd) (s : State) : Eff :=
  if s.patrol.running && tag.pass == s.patrol.passNumber then
    let s := modPatrolUnit u (fun p => { p with findings := p.findings.erase b }) s
    if res = .moved ∧ ¬ tag.lost then
      (s.setPatrol { s.patrol with tallies := { s.patrol.tallies with weakMoved := s.patrol.tallies.weakMoved + 1 } },
        [.passCheck])
    else (s, [.passCheck])
  else (s, [])

/-! ### The course of a pass (R122, R130) -/

/-- The items of a unit as a pass starts (R122). -/
def PatrolUnit.atStart (s : State) (u : UnitId) : PatrolUnit :=
  if s.isMember u then
    { PatrolUnit.cold with sub := if (s.chan u).state.inService then .ready else .stoppedUnit }
  else PatrolUnit.cold

/-- A pass starts (R122). -/
def startPass (s : State) : Eff :=
  (s.setPatrol { s.patrol with
      passNumber := s.patrol.passNumber + 1
      running := true
      startStamp := s.tick
      tallies := Tallies.zero
      units := Vector.ofFn (PatrolUnit.atStart s) },
    (s.members.filter fun u => (s.chan u).state.inService).map Msg.patrolReady ++ [.passCheck])

/-- The member units that are STOPPED_UNIT. -/
def stoppedUnits (s : State) : Nat := s.members.countP fun u => (s.patrolUnit u).sub == .stoppedUnit

/-- The log entry of the open pass (R130); its end generation is filled in at the commit (R131). -/
def passEntry (s : State) (outcome : PassOutcome) : LogEntry where
  pass := s.patrol.passNumber
  outcome := outcome
  unitsStopped := stoppedUnits s
  startStamp := s.patrol.startStamp
  endStamp := s.tick
  endGen := 0
  tallies := s.patrol.tallies

/-- A COMPLETE pass is followed by the next one (R130, step 5). -/
def restarts (s : State) (outcome : PassOutcome) : Bool :=
  outcome == .complete && s.patrol.cfg.auto && decide (0 < s.patrol.cfg.pace) && decide (stoppedUnits s < s.members.length)

/-- The PATROL_PASS_END event of a pass (R130, step 2). -/
def passPosted (outcome : PassOutcome) (s : State) : State :=
  postEvent .patrolPassEnd { code := some outcome.code, gen := some s.cme.gen } s

/-- The items of the pass return to their reset values, and the next pass starts or patrol is IDLE (R130, steps 4 and 5).
The start stamp keeps its value (log entry 40). -/
def passClosed (restart : Bool) (s : State) : Eff :=
  (s.setPatrol { s.patrol with
      running := false
      stopMark := false
      stopList := []
      tallies := Tallies.zero
      units := Vector.replicate 4 PatrolUnit.cold },
    if restart then [.passRestart] else [])

/-- The pass ends (R130), in the order of its steps: log entry, event, reports to the waiting contexts, reset of the items,
next pass. -/
def endPass (outcome : PassOutcome) (s : State) : Eff :=
  (s, .change (.log (passEntry s outcome)) :: .passPosted outcome
    :: s.patrol.stopList.map (fun x => .passEnded x s.patrol.passNumber) ++ [.passClosed (restarts s outcome)])

/-- No member unit is READ_OUT. -/
def noneReadOut (s : State) : Bool := s.members.all fun u => (s.patrolUnit u).sub != .readOut

/-- Every member unit is FINISHED or STOPPED_UNIT and no finding is outstanding (R130). -/
def passComplete (s : State) : Bool :=
  s.members.all fun u =>
    let p := s.patrolUnit u
    (p.sub == .finished || p.sub == .stoppedUnit) && p.findings.isEmpty

/-- The end conditions of R130 are tested. Where both hold at one event the pass ends STOPPED (log entry 11). -/
def passCheck (s : State) : Eff :=
  if !s.patrol.running then (s, [])
  else if s.patrol.stopMark && noneReadOut s then endPass .stopped s
  else if passComplete s then endPass .complete s
  else (s, [])

/-! ### Reports to the unit (R126, R128, R136) -/

/-- A quiet report (R79, R126): none is made while an entry is performed or queued. A unit that is not SUSPENDED disregards it.
"Since reset" is taken as since the last cold reset (log entry 56). -/
def quietReport (u : UnitId) (s : State) : Eff :=
  if (s.chan u).quiet && s.patrol.running && (s.patrolUnit u).sub == .suspended then
    match (s.chan u).lastDeparture with
    | none => becomeReady u s
    | some d =>
      if reached s.tick (settleEnd s d) then becomeReady u s
      else (modPatrolUnit u (fun p => { p with settleTimer := some (settleEnd s d) }) s, [])
  else (s, [])

/-- The relocation table reports a free slot (R128). -/
def freeSlotReport (u : UnitId) (s : State) : Eff :=
  if s.patrol.running && (s.patrolUnit u).sub == .moveWait then becomeReady u s else (s, [])

/-- The channel reports the unit OFFLINE (R136). A FINISHED unit becomes STOPPED_UNIT too (log entry 43). -/
def patrolLost (u : UnitId) (s : State) : Eff :=
  if s.patrol.running && s.isMember u then (stopUnit u s, [.passCheck]) else (s, [])

/-- A pass is ended by a warm reset (R137). -/
def patrolReset (s : State) : Eff := if s.patrol.running then endPass .reset s else (s, [])

/-- At RUN every READY unit of an open pass offers (R135). -/
def readyUnits (s : State) : List Msg :=
  if s.patrol.running then
    (s.members.filter fun u => (s.patrolUnit u).sub == .ready).map Msg.patrolReady
  else []

/-- A SET puts the settings in force (R134); raising pace from 0 makes every unit READY that waits without a timer
(R125). -/
def patrolSet (cfg : PatrolCfg) (s : State) : Eff :=
  let waiting := s.members.filter fun u => (s.patrolUnit u).sub == .paceWait && (s.patrolUnit u).paceTimer.isNone
  (s.setPatrol { s.patrol with cfg := cfg },
    if s.patrol.cfg.pace = 0 ∧ 0 < cfg.pace ∧ s.patrol.running then waiting.map Msg.patrolReady else [])

end Sys2Proof.Machine
end

