-- ==== Sys2Proof/Machine/CommitEngine.lean ====
section
/-! DEFINITION. The commit engine (chapter 7): batches (R144), the take and the image (R139, R145), writing and copies (R146,
R147), and the completion (R148, R149) with the region table's part of it (R20). -/

namespace Sys2Proof.Machine

/-! ### Changes applied to the durable tables (R139) -/

/-- The durable fields of a region after a change of generation `g` (R139). -/
def RegionOp.apply (op : RegionOp) (g : Nat) (live : Option RegionDef) : Option RegionDef :=
  match op with
  | .define base length owners label => some ⟨base, length, owners, .opened, label, none⟩
  | .delete => none
  | .guard => live.map fun d => { d with state := .guarded }
  | .release => live.map fun d => { d with state := .opened }
  | .fix => live.map fun d => { d with state := .fixed, fixedGen := some g }

/-- An entry at its from-block's place, replacing the one of that block (R97). -/
def insertEntry (e : RelEntry) : List RelEntry → List RelEntry
  | [] => [e]
  | f :: rest =>
    if e.src < f.src then e :: f :: rest
    else if e.src = f.src then e :: rest
    else f :: insertEntry e rest

/-- A new entry or a re-point (R109): the former spare becomes dead. -/
def UnitTable.setEntry (t : UnitTable) (e : RelEntry) : UnitTable :=
  ⟨insertEntry e t.entries,
    match t.find e.src with
    | some old => t.dead ++ [old.spare]
    | none => t.dead⟩

/-- A poison clear (R114). -/
def UnitTable.clearPoison (t : UnitTable) (b g : Nat) : UnitTable :=
  { t with entries := t.entries.map fun e => if e.src = b ∧ e.poisoned then { e with poisoned := false, gen := g } else e }

/-- A log entry in the slot after the pointer, with end generation `g` (R131). -/
def PatrolLog.write (l : PatrolLog) (e : LogEntry) (g : Nat) : PatrolLog :=
  ⟨l.slots.setIfInBounds (l.pointer % 16) (some { e with endGen := g }), l.pointer % 16 + 1⟩

/-- A change applied as at a success of generation `g` (R139). -/
def Durable.apply (g : Nat) (d : Durable) (chg : Change) : Durable :=
  match chg with
  | .region i _ _ op => { d with regions := d.regions.setIfInBounds i (op.apply g (d.regions[i]?).join) }
  | .entry u _ src spare cause poisoned _ =>
    { d with units := d.units.set u (d.units[u].setEntry ⟨src, spare, cause, poisoned, g⟩) }
  | .dead u k => { d with units := d.units.set u { d.units[u] with dead := d.units[u].dead ++ [k] } }
  | .poisonClear u b _ => { d with units := d.units.set u (d.units[u].clearPoison b g) }
  | .log e => { d with log := d.log.write e g }
  | .config _ => d

/-- The batch applied in the order its changes joined. -/
def Durable.applyAll (g : Nat) (batch : List Change) (d : Durable) : Durable := batch.foldl (Durable.apply g) d

/-! ### Completion (R148, R149, R20) -/

/-- The index of a region change. -/
def Change.region? : Change → Option (Nat × LaneId × CtxId × RegionOp)
  | .region i l x op => some (i, l, x, op)
  | _ => none

/-- The pending and closing marks of a batch's regions clear (R20, R23). -/
def clearMarks (batch : List Change) (s : State) : State :=
  forEach (batch.filterMap Change.region?)
    (fun c t => t.setRegion c.1 { t.region c.1 with pending := none, closing := false }) s

/-- The base a REGION_CHANGED reports: that of the DEFINE, or of the region as it stood (R20). -/
def changedBase (s : State) (i : Nat) (op : RegionOp) : Option Nat :=
  match op with
  | .define base _ _ _ => some base
  | _ => (s.region i).live.map RegionDef.base

/-- REGION_CHANGED for each change, in increasing index order (R20). -/
def regionEvents (before : State) (g : Nat) (batch : List Change) (s : State) : State :=
  forEach regionIndices
    (fun i t =>
      forEach ((batch.filterMap Change.region?).filter fun c => c.1 == i)
        (fun c t =>
          postEvent .regionChanged
            { code := some c.2.2.2.code, gen := some g, logical := changedBase before i c.2.2.2, lane := some c.2.1.val,
              region := some i } t)
        t)
    s

/-- An element before the first of a higher key. -/
def insertByKey {α : Type} (e : Nat × α) : List (Nat × α) → List (Nat × α)
  | [] => [e]
  | f :: rest => if e.1 < f.1 then e :: f :: rest else f :: insertByKey e rest

/-- The entry changes of unit `u` in ascending from-block order (R117). -/
def entriesInOrder (u : UnitId) (batch : List Change) : List (Nat × Cause × Option LaneId) :=
  (batch.filterMap fun c =>
    match c with
    | .entry v _ src _ cause _ lane => if v = u then some (src, cause, lane) else none
    | _ => none).foldr insertByKey []

/-- RELOCATED for each entry, units ascending and from-blocks ascending (R110, R117). -/
def relocatedEvents (g : Nat) (batch : List Change) (s : State) : State :=
  forEach four
    (fun u t =>
      forEach (entriesInOrder u batch)
        (fun e t => postEvent .relocated (t.blockOccurrence u e.1 e.2.1.code g e.2.2) t) t)
    s

/-- SPARE_LOW for each unit whose free count the commit lowered to the threshold or below (R116), units ascending (log entry
54). -/
def spareLowEvents (before : State) (g : Nat) (s : State) : State :=
  forEach four
    (fun u t =>
      let free := (t.rlt u).table.freeCount
      if free < (before.rlt u).table.freeCount ∧ 0 < t.settings.spareLow ∧ free ≤ t.settings.spareLow then
        postEvent .spareLow { code := some free, gen := some g, media := some u.val } t
      else t)
    s

/-- Each ONLINE unit left without a free spare becomes DEGRADED (R92), units ascending (log entry 54). -/
def degradeUnits (g : Nat) (s : State) : State :=
  forEach four
    (fun u t =>
      if (t.chan u).state = .online ∧ t.isMember u ∧ (t.rlt u).table.freeCount = 0 then
        postEvent .unitDegraded { gen := some g, media := some u.val } (t.setChan u { t.chan u with state := .degraded })
      else t)
    s

/-- The place of a slot record (R141). -/
def slotIndex (u : UnitId) (sl : Slot) : Nat := 2 * u.val + (match sl with | .a => 0 | .b => 1)

/-- The slot record after a copy's end (R141). -/
def recordCopy (im : Image) (k : Copy) (slots : Vector SlotRecord 4) : Vector SlotRecord 4 :=
  match k.state with
  | .written => slots.setIfInBounds (slotIndex k.media k.slot) (some (im.gen, im.wseq))
  | .failed _ _ => if k.performed then slots.setIfInBounds (slotIndex k.media k.slot) none else slots
  | .writing => slots

/-- The slot records at a completion: the copies of a first attempt, then those of the last. -/
def recordCopies (f : InFlight) (slots : Vector SlotRecord 4) : Vector SlotRecord 4 :=
  (f.earlier ++ f.copies).foldl (fun v k => recordCopy f.image k v) slots

/-- MIRROR_COPY_FAILED for each failed copy, in unit order (R147). -/
def mirrorEvents (f : InFlight) (s : State) : State :=
  forEach f.copies
    (fun k t =>
      match k.state with
      | .failed offline block =>
        postEvent .mirrorCopyFailed
          { code := some (if offline then 2 else 1), gen := some f.image.gen, block := block, media := some k.media.val } t
      | .writing | .written => t)
    s

/-- The holders of a change outside the relocation tables: the region operation's or SET's context (R20, R148, R149). -/
def Change.contextReport (ok : Bool) : Change → List Msg
  | .region _ _ x _ => [.changeEnds x ok]
  | .config x => [.changeEnds x ok]
  | _ => []

/-- Every relocation table takes the end of its changes (R110, R111): all its moves leave their slots and their locks go, the ends
are then told in batch order, and at last the freed slots take their requests in batch order (log entry 57). -/
def batchEnds (f : ChangeFate) (batch : List Change) (s : State) : Eff :=
  let e := effEach batch (rltChangeEnds f) s
  (e.1, e.2 ++ batch.filterMap (Change.freedSlot s))

/-- A successful commit completes (R148). Its events are posted by kind: mirror copies, regions, relocations, spare low,
degraded (log entry 54). The holders' ends are worked off before the engine leaves, so a change they set off joins the batch taken
there (log entry 74). -/
def commitSucceeds (f : InFlight) (s : State) : Eff :=
  let g := f.image.gen
  let t := mirrorEvents f s
  let t := t.setCme { t.cme with
    gen := g, curWseq := f.image.wseq, slots := recordCopies f t.cme.slots, inFlight := none }
  let t := clearMarks f.batch (t.setDurable (t.durable.applyAll g f.batch))
  let t := degradeUnits g (spareLowEvents s g (relocatedEvents g f.batch (regionEvents s g f.batch t)))
  let e := batchEnds .live f.batch t
  (e.1, f.batch.flatMap (Change.contextReport true) ++ e.2 ++ [.engineLeaves])

/-- A failed commit completes (R149). COMMIT_FAILED is posted before the events its holders' ends set off (log entry 69),
and a change those ends set off joins the batch taken as the engine leaves (log entry 74). -/
def commitFails (f : InFlight) (code : Nat) (s : State) : Eff :=
  let t := s.setCme { s.cme with slots := recordCopies f s.cme.slots, inFlight := none }
  let t := postEvent .commitFailed { code := some code, gen := some s.cme.gen } (clearMarks f.batch t)
  let e := batchEnds .discarded f.batch t
  (e.1, f.batch.flatMap (Change.contextReport false) ++ e.2 ++ [.engineLeaves])

/-! ### Writing (R146, R147) -/

/-- The slot a commit writes on a unit (R141). -/
def Cme.targetSlot (c : Cme) (u : UnitId) : Slot :=
  match c.currentSlot u with
  | some .a => .b
  | some .b => .a
  | none =>
    match c.slotRecord u .a, c.slotRecord u .b with
    | none, _ => .a
    | some _, none => .b
    | some a, some b => if a.1 < b.1 ∨ (a.1 = b.1 ∧ a.2 ≤ b.2) then .a else .b

/-- A copy about to be written. -/
def Copy.begin (u : UnitId) (sl : Slot) : Copy := ⟨u, sl, 0, false, .writing⟩

/-- The program of a copy's next block (R146). -/
def Copy.program (k : Copy) : Msg := .commitEntryArrives k.media .program (k.slot.firstBlock + k.next)

/-- Writing begins (R146). -/
def writingBegin (s : State) : Eff :=
  match s.cme.inFlight with
  | none => (s, [])
  | some f =>
    let copies := s.mirrorsInService.map fun u => Copy.begin u (s.cme.targetSlot u)
    if copies.isEmpty then commitFails f 2 s
    else
      (s.setCme { s.cme with state := .writing, inFlight := some { f with copies := copies } }, copies.map Copy.program)

/-- A copy after one of its programs ended (R146). -/
def Copy.after (k : Copy) (blocks : Nat) (out : CopyOutcome) : Copy :=
  match out with
  | .ok => { k with next := k.next + 1, performed := true, state := if k.next + 1 = blocks then .written else .writing }
  | .programFail => { k with performed := true, state := .failed false (some (k.slot.firstBlock + k.next)) }
  | .offline sent =>
    { k with
      performed := k.performed || sent
      state := .failed true (if k.performed || sent then some (k.slot.firstBlock + k.next) else none) }

/-- The copies of a second attempt (R147): the same slots, on the units of the first set still in service. -/
def retryCopies (s : State) (copies : List Copy) : List Copy :=
  (copies.filter fun k => (s.chan k.media).state.inService).map fun k => Copy.begin k.media k.slot

/-- An attempt has ended (R147). -/
def attemptEnds (f : InFlight) (s : State) : Eff :=
  if f.copies.any fun k => k.state == .written then commitSucceeds f s
  else if f.second then commitFails f 1 s
  else
    let copies := retryCopies s f.copies
    if copies.isEmpty then commitFails f 1 s
    else
      (s.setCme { s.cme with
          state := .retrying
          inFlight := some { f with second := true, copies := copies, earlier := f.copies } },
        copies.map Copy.program)

/-- A COMMIT program ends (R146). -/
def copyEnds (u : UnitId) (out : CopyOutcome) (s : State) : Eff :=
  match s.cme.inFlight with
  | none => (s, [])
  | some f =>
    match f.copies.find? fun k => k.media == u && k.state == .writing with
    | none => (s, [])
    | some k =>
      let n := k.after f.image.blocks out
      let f := { f with copies := f.copies.map fun c => if c.media = u then n else c }
      let t := s.setCme { s.cme with inFlight := some f }
      if n.state = .writing then (t, [n.program])
      else if f.copies.any fun c => c.state == .writing then (t, [])
      else attemptEnds f t

/-! ### The take (R145) -/

/-- The block of a change lies in a region that is GUARDED or FIXED (R145). -/
def inClosedRegion (s : State) (u : UnitId) (b : Nat) : Bool :=
  match s.regionOfBlock u b with
  | some i => (s.region i).inState .guarded || (s.region i).inState .fixed
  | none => false

/-- A change the take removes from its batch (R145). -/
def removedAtTake (s : State) (chg : Change) : Bool :=
  match chg with
  | .entry u _ src _ cause _ _ => cause == .programFail && inClosedRegion s u src
  | .poisonClear u b _ => inClosedRegion s u b
  | _ => false

/-- The regions a batch closes: those of its GUARDs and FIXes (R23, R145). -/
def closingRegions (batch : List Change) : List Nat :=
  batch.filterMap fun c =>
    match c with
    | .region i _ _ .guard => some i
    | .region i _ _ .fix => some i
    | _ => none

def markClosing (is : List Nat) (s : State) : State :=
  forEach is (fun i t => t.setRegion i { t.region i with closing := true }) s

/-- The image of a batch (R139). -/
def formImage (s : State) (g w : Nat) (batch : List Change) : Image where
  gen := g
  wseq := w
  width := s.width
  patrol := s.patrol.cfg
  passNumber := s.patrol.passNumber
  tables := s.durable.applyAll g batch

/-- The generation or the write sequence can rise no further (R142). -/
def Cme.exhausted (c : Cme) : Bool := decide (Config.maxGeneration ≤ c.gen) || decide (Config.maxGeneration ≤ c.wseq)

/-- The engine takes the accumulating batch (R145). -/
def takeBatch (s : State) : Eff :=
  let all := s.cme.accumulating
  let g := s.cme.gen + 1
  let c := { s.cme with state := .closing, accumulating := [] }
  if s.cme.exhausted then commitFails ⟨all, formImage s g s.cme.wseq all, false, [], []⟩ 3 (s.setCme c)
  else
    let batch := all.filter fun chg => !removedAtTake s chg
    let removed := all.filter (removedAtTake s)
    let w := s.cme.wseq + 1
    let t := s.setCme { c with wseq := w, inFlight := some ⟨batch, formImage s g w batch, false, [], []⟩ }
    let e := batchEnds .removed removed (markClosing (closingRegions batch) t)
    (e.1, e.2 ++ [.closingCheck])

/-- A foreground program or clear step of the region. -/
def QEntry.writesRegion (e : QEntry) (i : Nat) : Bool :=
  match e.source with
  | .foreground _ _ _ region _ => e.cmd != .read && region == i
  | _ => false

/-- The region's program and clear steps in a channel (R145). -/
def stepsInChannels (s : State) (i : Nat) : Nat :=
  (four.map fun u => (s.chan u).entries.countP fun e => e.writesRegion i).sum

/-- Every closing region has no step in a channel. -/
def closingDone (s : State) : Bool :=
  regionIndices.all fun i => !(s.region i).closing || stepsInChannels s i == 0

/-- In CLOSING, writing begins when the closing regions' steps are gone (R145). -/
def closingCheck (s : State) : Eff :=
  if s.cme.state = .closing ∧ s.cme.inFlight.isSome ∧ closingDone s then writingBegin s else (s, [])

/-! ### Arrival of a change (R144) and the end of a completion (R148) -/

/-- The log entries of a batch. -/
def Change.isLog : Change → Bool
  | .log _ => true
  | _ => false

/-- The first log entry leaves. -/
def dropOldestLog : List Change → List Change
  | [] => []
  | c :: rest => if c.isLog then rest else c :: dropOldestLog rest

/-- A change joins a batch; a seventeenth log entry displaces the oldest (R144). -/
def joinBatch (chg : Change) (batch : List Change) : List Change :=
  if chg.isLog ∧ Config.logSlots ≤ batch.countP Change.isLog then dropOldestLog batch ++ [chg] else batch ++ [chg]

/-- A change arrives (R144). -/
def changeArrives (chg : Change) (s : State) : Eff :=
  let t := s.setCme { s.cme with accumulating := joinBatch chg s.cme.accumulating }
  match s.cme.state with
  | .idle => takeBatch t
  | .closing | .writing | .retrying => (t, [])
  | .loading => (s, [])

/-- A completion leaves the engine (R148, R149): the next batch is taken, or the engine is IDLE. -/
def engineLeaves (s : State) : Eff :=
  if s.cme.state = .loading then (s, [])
  else if s.cme.accumulating.isEmpty then (s.setCme { s.cme with state := .idle }, []) else takeBatch s

end Sys2Proof.Machine
end

