-- ==== Sys2Proof/Machine/Lanes.lean ====
section
/-! DEFINITION. The lane fetch units (chapter 8): status entries (R169, R170), reads (R160 to R165), parking (R166, R167),
retirement (R169), faults (R172), abort (R173, R174), and the dispatch arbiter's eligibility and walk (R55 to R57). -/

namespace Sys2Proof.Machine

/-- A change of one lane. -/
def modLane (l : LaneId) (f : Lane → Lane) (s : State) : State := s.setLane l (f (s.lane l))

/-! ### Window and status entry -/

/-- A record of the window is final (R168). -/
def WinRec.isFinal (r : WinRec) : Bool :=
  match r.cond with
  | .final _ => true
  | .staged | .running _ => false

/-- The dispatched, unretired records (R55, R164). -/
def Lane.dispatched (l : Lane) : Nat := l.window.countP WinRec.granted

/-- Every record of the window is final. -/
def Lane.allFinal (l : Lane) : Bool := l.window.all WinRec.isFinal

/-- The newest dispatched record. -/
def Lane.newest (l : Lane) : Option WinRec := (l.window.filter WinRec.granted).getLast?

/-- The lane is parked (R158). -/
def Lane.parked (l : Lane) : Bool := l.state == .parkedEnd || l.state == .parkedUnposted

/-- The lane status entry as it stands (section 8.1). -/
def Lane.status (l : Lane) : LaneStatus where
  retireSeq := l.retireSeq
  state := l.state
  fault := l.fault
  refused := l.refused
  resume := l.resume
  faultAddr := l.faultAddr
  expSeq := l.expSeq
  dispatched := l.dispatched
  staged := l.staged.isSome

/-- The lane asks for its status entry, when it differs from the one last asked for (R169). -/
def askStatus (l : LaneId) (s : State) : State :=
  let e := (s.lane l).status
  if (s.lane l).lastStatus = some e then s
  else askWrite (.laneStatus l) e.bytes (modLane l (fun k => { k with lastStatus := some e }) s)

/-! ### Reads (R159, R161, R164) -/

/-- The address of a lane's configuration entry (section 8.1). -/
def State.cfgAddr (s : State) (l : LaneId) : Addr := s.anchor + BitVec.ofNat 64 (64 + 64 * l.val)

/-- The lane issues a fetch when it is SEEKING with a fetch target, no read is in flight and the device is RUNNING
(R161). -/
def issueFetch (l : LaneId) (s : State) : State :=
  match (s.lane l).state, (s.lane l).target, (s.lane l).reading with
  | .seeking, some a, none =>
    if s.dev.state = .running then
      (modLane l (fun k => { k with reading := some (.fetch a) }) s).emit [.hostRead a 128]
    else s
  | _, _, _ => s

/-- The lane issues the read of a record's link (R164). -/
def issueLinkRead (l : LaneId) (a : Addr) (s : State) : State :=
  (modLane l (fun k => { k with state := .seeking, reading := some (.link a), poll := none }) s).emit [.hostRead a 8]

/-- A parked lane re-reads (R166, R167, R175). -/
def reread (l : LaneId) (s : State) : State :=
  match (s.lane l).state with
  | .parkedEnd =>
    match (s.lane l).newest with
    | some r => issueLinkRead l r.addr s
    | none => s
  | .parkedUnposted => issueFetch l (modLane l (fun k => { k with state := .seeking, poll := none }) s)
  | _ => s

/-- The poll timer's expiry for a lane that parks now (R166). -/
def pollFrom (s : State) (l : LaneId) : Option Tick :=
  if (s.lane l).cfg.poll = 0 then none else some (s.tick + BitVec.ofNat 64 (s.lane l).cfg.poll)

/-- A lane parks (R166). -/
def park (l : LaneId) (st : LaneState) (s : State) : State :=
  askStatus l (modLane l (fun k => { k with state := st, reading := none, poll := pollFrom s l }) s)

/-! ### Retirement (R169) -/

/-- The NOTIFY causes of retired records, in seq order (R169, R183). -/
def handCauses (l : LaneId) (run : List WinRec) (s : State) : State :=
  forEach (run.filter WinRec.notify) (fun _ t => routeCause (t.lane l).cfg.notify t) s

/-- The seq of the last record of a run. -/
def lastSeq (old : Seq) (run : List WinRec) : Seq :=
  match run.getLast? with
  | some r => r.seq
  | none => old

/-- The longest run at the head of the window that can be retired while the lane is not OFF (R169). -/
def Lane.retirable (l : Lane) : List WinRec := l.window.takeWhile fun r => r.isFinal && r.linkRead

/-- The retire cursor advances (R169). -/
def laneRetire (l : LaneId) (s : State) : State :=
  let run := (s.lane l).retirable
  if run.isEmpty then s
  else
    handCauses l run
      (askStatus l
        (modLane l (fun k => { k with window := k.window.drop run.length, retireSeq := lastSeq k.retireSeq run }) s))

/-- Every record of the window is retired (R159, R174). -/
def retireAll (l : LaneId) (s : State) : State :=
  modLane l (fun k => { k with window := [], retireSeq := lastSeq k.retireSeq k.window }) s

/-- A DRAINING lane turns OFF when no read of its own is in flight and every record of its window is final (R174). -/
def laneOff (l : LaneId) (s : State) : State :=
  let k := s.lane l
  if k.state = .draining ∧ k.reading = none ∧ k.allFinal then
    handCauses l k.window
      (askStatus l
        (modLane l (fun n => { n with state := .off, resume := k.drainNext.getD 0, drainNext := none, target := none })
          (retireAll l s)))
  else s

/-- A context's record of the lane is still held. -/
def laneBusy (l : LaneId) (s : State) : Bool := eight.any fun x => (s.ctx x).state != .free && (s.ctx x).lane == l

/-- In HALTED a lane under a warm reset turns OFF once its contexts are FREE, without a retire advance or a status write
(R176, log entry 32). -/
def laneHaltedOff (l : LaneId) (s : State) : State :=
  let k := s.lane l
  if k.state = .draining ∧ laneBusy l s = false then
    modLane l
      (fun n => { n with
        state := .off
        window := []
        resume := match k.window with | r :: _ => r.addr | [] => k.drainNext.getD 0
        drainNext := none
        target := none }) s
  else s

/-! ### Faults (R172) -/

/-- A lane enters FAULTED (R172). -/
def laneFault (l : LaneId) (code : LaneFault) (a : Addr) (s : State) : State :=
  postEvent .laneFault { code := some code.code, gen := some s.cme.gen, lane := some l.val }
    (askStatus l
      (modLane l
        (fun k => { k with
          state := .faulted, fault := code, faultAddr := a, resume := a, target := none, reading := none, poll := none })
        s))

/-! ### Abort (R173, R176) -/

/-- The device part of a staged record cancelled without dispatch (R34, R173). -/
def cancelledPart (r : Bytes) (gen : Nat) (tick : Tick) : DevicePart :=
  ({ Context.empty with record := r, abortMark := true, startStamp := tick }).devicePart gen tick

/-- The staged record of the window becomes final. -/
def cancelInWindow (w : List WinRec) : List WinRec :=
  w.map fun r => if r.cond = .staged then { r with cond := .final .cancelled } else r

/-- The address of the staged record. -/
def Lane.stagedAddr (l : Lane) : Option Addr := (l.window.find? fun r => r.cond == .staged).map WinRec.addr

/-- The lane cancels its staged record with the writes of R173. -/
def cancelStaged (l : LaneId) (s : State) : State :=
  match (s.lane l).staged, (s.lane l).stagedAddr with
  | some r, some a =>
    (modLane l (fun k => { k with staged := none, window := cancelInWindow k.window }) s).emit
      (resultWrites a (cancelledPart r s.cme.gen s.tick) .cancelled)
  | _, _ => s

/-- The abort reaches the contexts that hold records of the lane (R67, R173). -/
def abortContexts (l : LaneId) (s : State) : State :=
  forEach eight (fun x t => if (t.ctx x).lane = l then ctxAbort x t else t) s

/-- A lane takes an ABORT (R173). -/
def laneAbort (l : LaneId) (s : State) : State :=
  match (s.lane l).state with
  | .off | .draining => s
  | _ =>
    laneOff l
      (askStatus l
        (abortContexts l
          (cancelStaged l
            (modLane l (fun k => { k with state := .draining, poll := none, drainNext := k.target, target := none }) s))))

/-- A warm reset taken in HALTED aborts a lane without writes: a staged record is dropped unwritten (R176). -/
def laneHaltedAbort (l : LaneId) (s : State) : State :=
  match (s.lane l).state with
  | .off | .draining => s
  | _ =>
    modLane l
      (fun k => { k with
        state := .draining
        poll := none
        drainNext := match k.stagedAddr with | some a => some a | none => k.target
        target := none
        staged := none
        window := k.window.filter fun r => r.cond != .staged }) s

/-- A lane at the entry to HALTED (R176, log entry 15). -/
def laneHalt (l : LaneId) (s : State) : State := modLane l (fun k => { k with reading := none, poll := none }) s

/-! ### Signals (R159, R167) and RUN (R175) -/

/-- The refused-signal count rises and the rise is written (R159, R169). At its greatest value the count does not rise, and
nothing is written. -/
def refuseSignal (l : LaneId) (s : State) : State :=
  if (s.lane l).refused < Config.maxRefused then askStatus l (modLane l (fun k => { k with refused := k.refused + 1 }) s)
  else s

/-- A START proceeds as from OFF (R159). -/
def startFromOff (l : LaneId) (s : State) : State :=
  (modLane l (fun k => { k with state := .seeking, reading := some .config, fault := .none, faultAddr := 0 }) s).emit
    [.hostRead (s.cfgAddr l) 64]

/-- The lane retires its whole window as at turning OFF: status entry, then causes (R159, section 8.9). The entry shows the
lane as it was before the START (log entry 45). -/
def retireAtStart (l : LaneId) (s : State) : State :=
  let run := (s.lane l).window
  if run.isEmpty then s else handCauses l run (askStatus l (retireAll l s))

/-- A lane takes START (R159). -/
def laneStart (l : LaneId) (s : State) : State :=
  match (s.lane l).state with
  | .off => startFromOff l s
  | .faulted => if (s.lane l).allFinal then startFromOff l (retireAtStart l s) else refuseSignal l s
  | _ => refuseSignal l s

/-- A lane takes LOOK in a RUNNING device (R167). -/
def laneLook (l : LaneId) (s : State) : State := if (s.lane l).parked then reread l s else s

/-- A lane as the device enters RUNNING (R175). -/
def laneRun (l : LaneId) (s : State) : State :=
  match (s.lane l).state with
  | .seeking => issueFetch l s
  | .parkedEnd | .parkedUnposted => reread l s
  | _ => s

/-! ### Final records (R66, R168) -/

/-- The record of context `x` becomes final in the window. -/
def finalInWindow (x : CtxId) (fs : FinalState) (w : List WinRec) : List WinRec :=
  w.map fun r => if r.cond = .running x then { r with cond := .final fs } else r

/-- A context reports its record final (R66), and the lane tests retirement (R169). -/
def reportFinal (l : LaneId) (x : CtxId) (fs : FinalState) (s : State) : State :=
  laneRetire l (modLane l (fun k => { k with window := finalInWindow x fs k.window }) s)

/-- The link of the newest dispatched record counts as read non-zero (R165). -/
def markNewest : List WinRec → List WinRec
  | [] => []
  | r :: rest => if rest.any WinRec.granted then r :: markNewest rest else { r with linkRead := true } :: rest

/-! ### The dispatch arbiter (R55 to R57) -/

/-- FENCE allows the staged record (R56). -/
def Lane.fenceAllows (l : Lane) : Bool :=
  let busy := l.window.filter fun r => r.granted && !r.isFinal
  (!(l.window.any fun r => r.cond == .staged && r.fence) || busy.isEmpty) && !busy.any WinRec.fence

/-- A lane is eligible for a grant (R55). -/
def eligible (s : State) (l : LaneId) : Bool :=
  let k := s.lane l
  k.state == .staged && k.staged.isSome && s.dev.state == .running && decide (k.dispatched < s.dar.cap[l]) && k.fenceAllows

/-- The four lanes from the one the pointer names (R57). -/
def walkFrom (p : LaneId) : List LaneId := [p, p + 1, p + 2, p + 3]

/-- The credits, reloaded to the weights when eligible lanes have none (R57). -/
def grantCredits (s : State) : Vector Nat 4 :=
  if four.any (fun l => eligible s l && decide (0 < s.dar.credit[l])) then s.dar.credit else s.dar.weight

/-- The lane the walk grants (R57). -/
def grantLane (s : State) : Option LaneId :=
  (walkFrom s.dar.pointer).find? fun l => eligible s l && decide (0 < (grantCredits s)[l])

/-- The lowest FREE context (R57). -/
def freeCtx (s : State) : Option CtxId := eight.find? fun x => (s.ctx x).state == .free

end Sys2Proof.Machine
end

