-- ==== Sys2Proof/Machine/DeviceStates.lean ====
section
/-! DEFINITION. The device as a whole (chapter 10): probe with the start-up reads and the image choice (R153, R154, R192,
R193), the entry to HALTED (R198), STOPPED (R197), the end of a warm reset (R200) and the cold reset (R201). -/

namespace Sys2Proof.Machine

/-! ### Start-up reads (R153) -/

/-- The read of a system block for the image load. -/
def loadRead (u : UnitId) (sl : Slot) (k : Nat) : Msg := .commitEntryArrives u .read (sl.firstBlock + k)

def State.load (s : State) (u : UnitId) : UnitLoad := s.cme.loads[u]
def State.setLoad (s : State) (u : UnitId) (v : UnitLoad) : State := s.setCme { s.cme with loads := s.cme.loads.set u v }

/-- A slot is judged: the next one is read, or the probe's conditions are tested (R153). -/
def slotJudged (u : UnitId) (sl : Slot) (copy : Option Image) (s : State) : Eff :=
  let v := s.load u
  match sl with
  | .a => (s.setLoad u { v with slot := some .b, blocks := [], copyA := copy }, [loadRead u .b 0])
  | .b => (s.setLoad u { v with slot := none, blocks := [], copyB := copy }, [.probeCheck])

/-- The copy in the blocks read, if it is valid (R140). -/
def judgeCopy (blocks : List Bytes) : Option Image :=
  if copyOk blocks.flatten then some (imageOfBytes blocks.flatten) else none

/-- A start-up read ends (R153). A unit that has gone OFFLINE has no valid copy, and its remaining reads are not made. -/
def loadReadEnds (u : UnitId) (data : Option Bytes) (s : State) : Eff :=
  let v := s.load u
  match v.slot with
  | none => (s, [])
  | some sl =>
    if (s.chan u).state = .offline then (s.setLoad u ⟨none, [], none, none⟩, [.probeCheck])
    else
      match data with
      | none => slotJudged u sl none s
      | some d =>
        let blocks := v.blocks ++ [d]
        let first := blocks.headD []
        if v.blocks.isEmpty && !headerOk u sl d then slotJudged u sl none s
        else if blocks.length < hdrBlocks first then
          (s.setLoad u { v with blocks := blocks }, [loadRead u sl blocks.length])
        else slotJudged u sl (judgeCopy blocks) s

/-! ### Image choice and layout (R154, R193) -/

/-- The valid copies, lower units and slot A first. -/
def validCopies (s : State) : List Image :=
  four.flatMap fun u => (s.load u).copyA.toList ++ (s.load u).copyB.toList

/-- The image `a` counts below `b`: lower generation, or the same and a lower write sequence (R154). -/
def Image.below (a b : Image) : Bool := decide (a.gen < b.gen) || (a.gen == b.gen && decide (a.wseq < b.wseq))

/-- The chosen copy (R154). -/
def chooseImage : List Image → Option Image
  | [] => none
  | a :: rest =>
    match chooseImage rest with
    | some b => if a.below b then some b else some a
    | none => some a

/-- The unit answered IDENTIFY validly (R91). -/
def present (s : State) (u : UnitId) : Bool := (s.chan u).identified == some true

/-- The stripe width of a fresh start: the present units are exactly 0 to n - 1 (R193). -/
def freshWidth (s : State) : Option Nat :=
  [1, 2, 4].find? fun n => four.all fun u => present s u == decide (u.val < n)

/-- The record of a slot after the choice (R154). -/
def slotRecordOf (best : Image) : Option Image → SlotRecord
  | some im => if im.gen = best.gen ∧ im.wseq < best.wseq then none else some (im.gen, im.wseq)
  | none => none

/-- The chosen copy is loaded (R154); a unit that is not a member has an empty table (R98). The move slots and request lists are
those the cold reset emptied. -/
def loadImage (im : Image) (s : State) : State :=
  let c := s.cme
  { s with
    regions := mapVec (fun live => { RegionEntry.undefined with live := live }) im.tables.regions
    rlts := Vector.ofFn fun (u : Fin 4) => { s.rlts[u] with table := if u.val < im.width then im.tables.units[u] else ⟨[], []⟩ }
    log := im.tables.log
    patrol := { s.patrol with cfg := im.patrol, passNumber := im.passNumber }
    cme := { c with
      gen := im.gen
      wseq := ((validCopies s).map Image.wseq).foldl max 0
      curWseq := im.wseq
      slots := #v[slotRecordOf im c.loads[0].copyA, slotRecordOf im c.loads[0].copyB,
        slotRecordOf im c.loads[1].copyA, slotRecordOf im c.loads[1].copyB] } }

/-- A unit's state by the table of R91; a unit lost during its start-up reads stays OFFLINE. -/
def settledState (s : State) (u : UnitId) : UnitState :=
  let c := s.chan u
  if c.identified = some true then
    if c.state = .offline then .offline
    else if s.isMember u && (s.rlt u).table.freeCount == 0 then .degraded
    else .online
  else if s.isMember u then .offline
  else .absent

/-- The tables of a fresh start: no region, no relocation entry, an empty log, the settings and pass number of a fresh start,
generation and write sequence 0 (R154, R120). -/
def Image.fresh : Image :=
  ⟨0, 0, 0, PatrolCfg.fresh, 0, ⟨Vector.replicate 32 none, Vector.replicate 4 ⟨[], []⟩, PatrolLog.empty⟩⟩

/-- With no valid copy the device starts fresh, every slot record invalid (R154). -/
def freshStart (s : State) : State := loadImage Image.fresh s

/-- The start-up reads are over: the engine is IDLE (R153). -/
def loadsOver (s : State) : State := s.setCme { s.cme with state := .idle, loads := Vector.replicate 4 UnitLoad.cold }

/-- The channels settle and the device enters STOPPED (R192). -/
def probePasses (n : Nat) (s : State) : State :=
  let t := { s with width := n }
  let t := forEach four
    (fun u t => t.setChan u { t.chan u with state := settledState t u, member := t.isMember u }) t
  (loadsOver t).setDev { t.dev with state := .stopped }

/-! ### HALTED (R198) -/

/-- A route at the entry to HALTED: its hold timer stops (R180). -/
def Route.frozen (r : Route) : Route := { r with timer := none }

/-- The device enters HALTED (R198). The outcomes of the host accesses in flight are discarded, whenever they come. -/
def haltEntry (cause : FaultCode) (s : State) : State :=
  let t := (s.setDev { s.dev with state := .halted, fault := cause, runPending := false }).setLif s.lif.cutOff
  let t := t.setNtu { t.ntu with
    writes := [], handed := 0, routeA := t.ntu.routeA.frozen, routeB := t.ntu.routeB.frozen }
  forEach eight ctxHalt (forEach four laneHalt t)

/-- The layout check fails (R193): the engine is IDLE (R153), without a generation, and the device HALTED. The units' states are
not settled: R192 settles them when the check passes (log entry 66). -/
def probeFails (s : State) : State := haltEntry .probeLayout (loadsOver s)

/-- Every IDENTIFY step has ended and every unit that answered validly has had both slots judged (R192). -/
def probeDone (s : State) : Bool :=
  four.all fun u =>
    match (s.chan u).identified with
    | none => false
    | some true => (s.load u).slot.isNone
    | some false => true

/-- The probe's conditions are tested; when they hold, image choice and layout check follow (R192, R193). -/
def probeCheck (s : State) : State :=
  if s.dev.state = .probing ∧ probeDone s then
    match chooseImage (validCopies s) with
    | some im => probePasses im.width (loadImage im s)
    | none =>
      match freshWidth s with
      | some n => probePasses n (freshStart s)
      | none => probeFails (freshStart s)
  else s

/-! ### STOPPED and the end of a warm reset (R197, R200) -/

/-- Every context is FREE. -/
def allFree (s : State) : Bool := eight.all fun x => (s.ctx x).state == .free

/-- STOPPING is over (R197). -/
def drained (s : State) : Bool :=
  allFree s && four.all (fun l => (s.lane l).reading == none) && s.cme.state == .idle

/-- A STOPPING device enters STOPPED (R197). A warm reset in progress ends by its own rule alone (log entry 16). -/
def stoppedCheck (s : State) : State :=
  if s.dev.state = .stopping ∧ s.dev.resetInProgress = false ∧ drained s then s.setDev { s.dev with state := .stopped } else s

/-- The work of a warm reset is done (R200). -/
def resetDone (s : State) : Bool :=
  s.dev.resetInProgress && allFree s && four.all (fun l => (s.lane l).state == .off)
    && four.all (fun u => (s.rlt u).moves.isEmpty) && s.cme.state == .idle
    && (s.halted || (s.ntu.writes.isEmpty && s.ntu.handed == 0))

/-- The warm reset ends (R200). -/
def resetEnd (s : State) : State :=
  (idleRoutes { s with anchor := 0, anchorHigh := 0 }).setDev
    { s.dev with state := .stopped, fault := .none, resetInProgress := false }

def resetEndCheck (s : State) : State := if resetDone s then resetEnd s else s

/-- DRAINING lanes that may turn OFF do so (R174, R176). -/
def settleLanes (s : State) : State :=
  forEach four
    (fun l t => if t.halted then (if t.dev.resetInProgress then laneHaltedOff l t else t) else laneOff l t) s

/-- The tests an event ends with: lanes turning OFF, STOPPED, the end of a warm reset. -/
def finishEvent (s : State) : State := resetEndCheck (stoppedCheck (settleLanes s))

/-! ### Cold reset (R201) -/

/-- Each channel sends IDENTIFY (R192). -/
def beginProbe (s : State) : State :=
  forEach four
    (fun u t =>
      let c := t.chan u
      (t.setChan u { c with link := .identify false (c.sent + 1) (answerExpiry t), sent := c.sent + 1 }).emit
        [.media u (c.sent + 1) .identify])
    s

/-- The level of the reset input after a cold reset of this source (section 10.8, log entry 7). -/
def inputAfter (source : ResetSource) (asserted : Bool) : Bool :=
  match source with
  | .powerOn => false
  | .resetInput => true
  | .busReset => asserted

/-- Every block at its cold values, PROBING; the queue, the record of the links, the counts of sendings and of settings reads, the
host bus's message enable and the unit present inputs are not the device's reset state and stay. Host accesses issued before are
not completed toward any block (R201). -/
def coldState (source : ResetSource) (s : State) : State :=
  { State.reset with
    pending := s.pending
    out := s.out
    messagesEnabled := s.messagesEnabled
    unitPresent := s.unitPresent
    dev := ⟨.probing, .none, false, false, inputAfter source s.dev.resetAsserted⟩
    lif := s.lif.cutOff
    chans := mapVec (fun c => Channel.cold c.sent) s.chans }

end Sys2Proof.Machine
end

