-- ==== Sys2Proof/Machine/Effects.lean ====
section
/-! DEFINITION. The internal effects of one event: what each message does (`handle`), and the working off of a list of them,
the effects of one before the next (`drain`). -/

namespace Sys2Proof.Machine

/-- An internal effect that hands on nothing. -/
def quietly (s : State) : Eff := (s, [])

/-- What an internal effect does. Whether a step was performed on a spare changes nothing (R82). -/
def handle (m : Msg) (s : State) : Eff :=
  match m with
  | .foregroundArrives x j cmd => foregroundArrives x j cmd s
  | .moveEntryArrives u mid cmd b => moveEntryArrives u mid cmd b s
  | .commitEntryArrives u cmd b => commitEntryArrives u cmd b s
  | .select u => selectEntry u s
  | .quiet u => quietReport u s
  | .takeDeferred u b => takeDeferred u b s
  | .moveStart u mid => moveStart u mid s
  | .reissue x j => reissueStep x j s
  | .stepEnds x j out _ => stepEnds x j out s
  | .moveBatched x j => quietly (moveBatched x j s)
  | .blockEnds x j res => quietly (blockEnds x j res s)
  | .changeEnds x ok => quietly (changeEnds x ok s)
  | .passEnded x n => quietly (passEnded x n s)
  | .moveRequest u q => takeRequest u q s
  | .moveReadEnds u mid out _ => moveReadEnds u mid out s
  | .moveWriteEnds u mid out => moveWriteEnds u mid out s
  | .slotFreed u => slotFreed u s
  | .movesLost u _ => movesLost u s
  | .patrolReady u => becomeReady u s
  | .patrolReadEnds u cls weak _ => patrolReadEnds u cls weak s
  | .findingAnswered u b tag ans => findingAnswered u b tag ans s
  | .findingEnded u b tag res => findingEnded u b tag res s
  | .freeSlotReport u => freeSlotReport u s
  | .patrolLost u _ => patrolLost u s
  | .passPosted outcome => quietly (passPosted outcome s)
  | .passClosed restart => passClosed restart s
  | .passRestart => startPass s
  | .passCheck => passCheck s
  | .change chg => changeArrives chg s
  | .poisonClear u b x j => takePoisonClear u b x j s
  | .closingCheck => closingCheck s
  | .copyEnds u out => copyEnds u out s
  | .engineLeaves => engineLeaves s
  | .loadReadEnds u data => loadReadEnds u data s
  | .probeCheck => quietly (probeCheck s)

/-- The internal effects of an event are worked off in order, those an effect sets off before the rest. The count bounds
how many are (log entry 3). -/
def drain : Nat → List Msg → State → State
  | 0, _, s => s
  | _ + 1, [], s => s
  | n + 1, m :: rest, s =>
    let e := handle m s
    drain n (e.2 ++ rest) e.1

/-- An event's own effect with all it sets off. -/
def workOff (e : Eff) : State := drain Config.cascadeBound e.2 e.1

/-- An event that may end other work: its effects, then the closing regions' test (R145), then the tests of
`finishEvent`. -/
def runEvent (e : Eff) : State := finishEvent (workOff (e.1, e.2 ++ [.closingCheck]))

end Sys2Proof.Machine
end

