-- ==== Sys2Proof/Machine/ControlCommands.lean ====
section
/-! DEFINITION. The meanings of the register writes and resets (chapter 10, R159, R167, R173, R186). -/

namespace Sys2Proof.Machine

/-- The outcome of a command. -/
abbrev Res := Host.Outcome State Fault Refusal

/-! ### Resets -/

/-- COLD_RESET (R201): every block takes its cold values; the probe begins, unless the reset input is held (section
10.8). -/
def coldReset (source : ResetSource) (s : State) : State :=
  let t := coldState source s
  if t.dev.resetAsserted then t else beginProbe t

def execColdReset (source : ResetSource) (s : State) : Res := .next (coldReset source s)

/-- RESET_INPUT_RELEASE (R201): the probe begins. -/
def execResetInputRelease (s : State) : Res :=
  .next (if s.dev.resetAsserted then beginProbe (s.setDev { s.dev with resetAsserted := false }) else s)

/-- A warm reset is taken (R200). -/
def resetTaken (s : State) : Bool :=
  !s.dev.resetInProgress
    && match s.dev.state with
      | .stopped | .running | .stopping => true
      | .halted => s.dev.fault != .probeLayout
      | .probing => false

/-- The device and the DAR at a warm reset (R200, R58). -/
def resetDevice (s : State) : State :=
  let t := s.takeAction
  { t with
    dev := { t.dev with
      resetInProgress := true, runPending := false, state := if s.halted then .halted else .stopping }
    dar := { t.dar with credit := t.dar.weight, pointer := 0 } }

/-- The warm reset reaches lanes, channels, patrol and relocation tables (R200), in this order (log entry 61). -/
def resetBlocks (s : State) : Eff :=
  andThen
    (fun t => (forEach four (fun l t => if t.halted then laneHaltedAbort l t else laneAbort l t) t, []))
    (andThen (effEach four chanReset) (andThen patrolReset (effEach four rltReset))) s

/-- RESET (R200). -/
def warmReset (s : State) : State :=
  let e := resetBlocks (resetDevice s)
  finishEvent (forEach eight ctxSettle (workOff (e.1, e.2 ++ [.closingCheck])))

def execReset (s : State) : Res := .next (if resetTaken s then warmReset s else s)

/-! ### RUN and STOP (R196, R197) -/

/-- RUN pending is set and the settings are read (R196); the read is the next in number (log entry 75). The action counts as taken
here and at the end of the read (log entry 26). -/
def runRequested (s : State) : State :=
  let t := s.takeAction
  ((t.setDev { t.dev with runPending := true }).setLif { t.lif with settingsReads := t.lif.settingsReads + 1 }).emit
    [.hostRead s.anchor 64]

def execRun (s : State) : Res :=
  .next
    (match s.dev.state with
    | .stopped =>
      if s.dev.runPending then s
      else if s.anchor = 0 then s.refuseAction .noAnchor
      else runRequested s
    | .running => s
    | .stopping | .probing => s.refuseAction .controlRefused
    | .halted => s)

/-- The settings the read gives; after a bus error those in force stay (R156). -/
def settingsAfter (old : Settings) : HostResult Bytes → Settings
  | .data bs => settingsOf bs
  | .busError => old

/-- The device enters RUNNING (R196): settings, lanes, routes. The lanes read in ascending order (log entry 60). Where both
routes send, A sends first (log entry 53). -/
def enterRunning (read : HostResult Bytes) (s : State) : State :=
  let t := s.takeAction
  let t := { t with
    dev := { t.dev with state := .running, runPending := false }
    settings := settingsAfter t.settings read }
  applyThreshold .b (applyThreshold .a (forEach four laneRun t))

/-- RUN_TAKEN (R196). The data of a withdrawn read is discarded: the pending RUN's read is the one issued last (log entry 75). The
routes take their new thresholds before patrol's units offer (log entry 52). -/
def execRunTaken (read : HostResult Bytes) (s : State) (number : Nat := 0) : Res :=
  .next
    (if s.dev.runPending && number == s.lif.settingsReads then
      let t := enterRunning read s
      workOff (t, readyUnits t)
    else s)

/-- STOP (R197). -/
def execStop (s : State) : Res :=
  .next
    (match s.dev.state with
    | .running => finishEvent (s.takeAction.setDev { s.takeAction.dev with state := .stopping })
    | .stopped => if s.dev.runPending then s.takeAction.setDev { s.takeAction.dev with runPending := false } else s
    | .stopping => s
    | .probing => s.refuseAction .controlRefused
    | .halted => s)

/-- CONTROL_REFUSED (R189). -/
def execControlRefused (_bits : BitVec 3) (s : State) : Res := .next (s.refuseAction .controlRefused)

/-- IGNORED_WRITE (R188). -/
def execIgnoredWrite (_offset _width : Nat) (_value : Word32) (s : State) : Res := .next s

/-! ### Anchor (R194, R195) -/

/-- Anchor writes are taken (R194). -/
def anchorWritable (s : State) : Bool :=
  s.dev.state == .stopped && four.all (fun l => (s.lane l).state == .off) && !s.dev.runPending && !s.dev.resetInProgress

/-- ANCHOR_HI (R194). -/
def execAnchorHi (value : Word32) (s : State) : Res :=
  .next (if anchorWritable s then { s.takeAction with anchorHigh := value } else s.refuseAction .anchorRefused)

/-- A lane at the device-area initialization: its refused-signal count falls to 0 and its entry counts as asked (R157). -/
def Lane.atInit (l : Lane) : Lane :=
  let k := { l with refused := 0 }
  { k with lastStatus := some k.status }

/-- The initialization writes in their order (R195). -/
def initWrites (s : State) : List WriteReq :=
  ⟨.identity, identityBytes s.width s.tick⟩
    :: (List.finRange 10).map (fun k => ⟨.slot k, (⟨0, EventDetail.zero⟩ : EventSlot).bytes⟩)
    ++ four.map fun l => ⟨.laneStatus l, (s.lane l).atInit.status.bytes⟩

/-- A non-zero anchor is set: the device-area initialization (R195). -/
def initDeviceArea (s : State) : State :=
  let ws := initWrites s
  let t := idleRoutes { s with lanes := mapVec Lane.atInit s.lanes }
  t.setNtu { t.ntu with writes := ws, slots := Vector.replicate 10 ⟨0, EventDetail.zero⟩ }

/-- The anchor is set or cleared (R194). -/
def setAnchor (a : Addr) (s : State) : State :=
  let t := { s with anchor := a }
  if a = 0 then t.setNtu { t.ntu with writes := [] } else initDeviceArea t

/-- ANCHOR_LO (R194). -/
def execAnchorLo (value : Word32) (s : State) : Res :=
  .next
    (if anchorWritable s && value.extractLsb' 0 12 == 0 then setAnchor (s.anchorHigh ++ value) s.takeAction
    else s.refuseAction .anchorRefused)

/-! ### Lane signals (R159, R167, R173) -/

/-- The lanes a mask names. They take the action in ascending order (log entry 59). -/
def maskLanes (mask : BitVec 4) : List LaneId := four.filter fun l => mask.getLsbD l.val

/-- The device takes START signals (R159). -/
def startsTaken (s : State) : Bool :=
  s.anchor != 0 && !s.dev.resetInProgress
    && (s.dev.state == .stopped || s.dev.state == .running || s.dev.state == .stopping)

/-- START (R159). -/
def execStart (mask : BitVec 4) (s : State) : Res :=
  .next (if startsTaken s then forEach (maskLanes mask) laneStart s else s)

/-- LOOK (R167). -/
def execLook (mask : BitVec 4) (s : State) : Res :=
  .next (if s.anchor ≠ 0 ∧ s.dev.state = .running then forEach (maskLanes mask) laneLook s else s)

/-- ABORT (R173). In HALTED a lane takes no signal (R176). -/
def execAbort (mask : BitVec 4) (s : State) : Res :=
  .next (if s.halted then s else finishEvent (forEach (maskLanes mask) laneAbort s))

/-! ### Acknowledgement (R186) -/

/-- The routes an ATTN write names, A before B: where both send at the acknowledgement, A's message stands first (log entry
53). -/
def maskRoutes (mask : BitVec 2) : List RouteId :=
  (if mask.getLsbD 0 then [.a] else []) ++ (if mask.getLsbD 1 then [.b] else [])

/-- ACKNOWLEDGE (R186). -/
def execAcknowledge (mask : BitVec 2) (s : State) : Res :=
  .next (if s.anchor = 0 ∨ s.halted then s else forEach (maskRoutes mask) acknowledgeRoute s)

end Sys2Proof.Machine
end

