-- ==== Sys2Proof/Machine/GrantCommands.lean ====
section
/-! DEFINITION. The grants: the DAR's choice (R57), the grant at lane and context (R59, R164), the check order (R33) and what
each operation does once accepted (chapter 2, R60). A row of the table is the grant of a record of its operation: where
the record the DAR would grant is of another operation, or no grant can be made, the command does not occur and changes
nothing (log entry 2). -/

namespace Sys2Proof.Machine

/-! ### The grant (R57, R59, R164) -/

/-- The grant the DAR makes: lane, context and staged record. -/
def grantOf (s : State) : Option (LaneId × CtxId × Bytes) :=
  match grantLane s, freeCtx s with
  | some l, some x => (s.lane l).staged.map fun r => (l, x, r)
  | _, _ => none

/-- The staged record of the window is dispatched to context `x` (R164, R168). -/
def dispatchInWindow (x : CtxId) (w : List WinRec) : List WinRec :=
  w.map fun r => if r.cond = .staged then { r with cond := .running x, granted := true } else r

/-- The DAR after a grant to lane `l` (R57). -/
def Dar.granted (d : Dar) (credits : Vector Nat 4) (l : LaneId) : Dar :=
  { d with credit := credits.set l (credits[l] - 1), pointer := l + 1 }

/-- The context as it takes the record (R59). -/
def Context.granted (r : Bytes) (addr : Addr) (l : LaneId) (right : Bool) (tick : Tick) : Context :=
  { Context.empty with
    state := .issuing, record := r, addr := addr, lane := l, tableRight := right, startStamp := tick, crc := crcInit }

/-- The event of a grant at the arbiter, the lane and the context: RUNNING is written, and then the lane reads the record's
link (R59, R164). That the write goes out before the link read, and the link read before any access the context itself makes at
this event, is log entry 55. -/
def takeGrant (l : LaneId) (x : CtxId) (r : Bytes) (s : State) : State :=
  let k := s.lane l
  let a := k.stagedAddr.getD 0
  let t := (s.setCtx x (Context.granted r a l k.cfg.tableRight s.tick)).emit [.hostWrite (a + 12) [running]]
  issueLinkRead l a
    (modLane l (fun n => { n with staged := none, window := dispatchInWindow x n.window, resume := a })
      { t with dar := t.dar.granted (grantCredits s) l })

/-- A record is refused at a step of the check order, or at LOADING (R33, R30). -/
def refuseRecord (x : CtxId) (st : Status) (s : State) : State :=
  enterFinishing x (s.setCtx x { s.ctx x with refusal := some st })

/-- Steps 3 to 8, and the operation's effect when they pass (R33). -/
def checkAccess (k : OpKind) (accept : CtxId → State → Eff) (x : CtxId) (s : State) : Eff :=
  let c := s.ctx x
  match firstFail (accessChecks s k c.record c.lane c.tableRight) with
  | some st => (refuseRecord x st s, [])
  | none => accept x s

/-- The context goes to LOADING and reads its segment list (R30). -/
def loadList (x : CtxId) (s : State) : State :=
  let c := s.ctx x
  (s.setCtx x { c with state := .loading, listReading := true }).emit
    [.hostRead (recListAddr c.record) (16 * recSegCount c.record)]

/-- The check order on a granted record (R33, R30, R59). What it reads or writes goes out behind the lane's link read, which
`takeGrant` has issued (log entry 55). -/
def checkRecord (k : OpKind) (accept : CtxId → State → Eff) (x : CtxId) (s : State) : Eff :=
  let c := s.ctx x
  match firstFail (argumentChecks s k c.record) with
  | some st => (refuseRecord x st s, [])
  | none =>
    if recSeglist c.record then (loadList x s, [])
    else checkAccess k accept x (s.setCtx x { c with segs := if k.needsSegments then inlineSegments c.record else [] })

/-- The grant of a record of operation `k`. -/
def grantRow (k : OpKind) (accept : CtxId → State → Eff) (s : State) : State :=
  match grantOf s with
  | some (l, x, r) => if recKind r = k then workOff (checkRecord k accept x (takeGrant l x r s)) else s
  | none => s

/-! ### Accepted operations -/

/-- An accepted data record: users rise, the first logical blocks of its windows are noted, the context is ISSUING (R9,
R21). -/
def acceptData (x : CtxId) (s : State) : State :=
  let c := s.ctx x
  let k := recKind c.record
  let used := usedRegions k c.record
  let src := windowStart s (recRegion c.record) (recOffset c.record)
  let dst := if k = .copy then windowStart s (argDstRegion c.record) (argDstOffset c.record) else src
  (raiseUsers used s).setCtx x { c with state := .issuing, srcBase := src, dstBase := dst, raised := used }

/-- READ, WRITE, FILL, COPY, VERIFY, DIGEST: blocks are taken one by one (R61). -/
def acceptBlocks (x : CtxId) (s : State) : Eff := (acceptData x s, [])

/-- The DIRECTED request of a RELOCATE (R47, R101). -/
def directedRequest (s : State) (x : CtxId) : MoveReq where
  src := s.blockOf (s.ctx x).srcBase
  cause := .directed
  lane := some (s.ctx x).lane
  region := some (recRegion (s.ctx x).record)
  readTarget := none
  waiters := [⟨x, 0, true⟩]
  finding := none
  blank := false
  dataFrom := none

/-- RELOCATE: the request goes to the unit's relocation table and the block waits on the move (R47, R61). A move that starts
may return a closing region's last step in a channel HELD, so the closing regions are tested at this event (R145). -/
def acceptRelocate (x : CtxId) (s : State) : Eff :=
  let t := acceptData x s
  (ctxUpdate x { t.ctx x with cursor := 1, blocks := [⟨0, .awaitMove⟩] } t,
    [.moveRequest (s.unitOf (t.ctx x).srcBase) (directedRequest t x), .closingCheck])

/-- BARRIER (R52). -/
def acceptBarrier (x : CtxId) (s : State) : Eff := (enterFinishing x s, [])

/-- The bytes of chunk `i` of a snapshot. -/
def chunkOf (snap : Bytes) (i : Nat) : Bytes := (snap.drop (Config.blockSize * i)).take Config.blockSize

/-- The buffer write of a snapshot's chunk is issued, one host write for each segment it meets; one chunk is in flight at a time
(R50, log entries 10 and 64). -/
def issueChunk (x : CtxId) (s : State) : State :=
  let c := s.ctx x
  let data := c.bufferData c.cursor
  (ctxUpdate x { c with cursor := c.cursor + 1, blocks := [⟨c.cursor, .bufferWrite⟩] } s).emit
    (pieceWrites (bufferPieces c.segs (Config.blockSize * c.cursor) data.length) data)

/-- TABLE_READ: the snapshot fills the staging buffers as one event, and its first buffer write is issued (R50, R62). -/
def acceptTableRead (x : CtxId) (s : State) : Eff :=
  let c := s.ctx x
  let snap := snapshot s (argSelector c.record) (argUnit c.record)
  (issueChunk x
    (s.setCtx x
      { c with
        state := .issuing
        bufs := Vector.ofFn fun (i : Fin 4) => ⟨some i.val, some (chunkOf snap i.val)⟩
        snapGen := some (BitVec.ofNat 32 s.cme.gen)
        snapSize := snapshotSize (argSelector c.record) }), [])

/-- START_PASS: the pass begins at this event (R60, R132). -/
def acceptStartPass (x : CtxId) (s : State) : Eff :=
  let e := startPass s
  (enterFinishing x (e.1.setCtx x { e.1.ctx x with result := e.1.patrol.passNumber.setWidth 64 }), e.2)

/-- STOP_PASS: no change while patrol is IDLE, else the stop mark is set and the context waits (R60, R133). -/
def acceptStopPass (x : CtxId) (s : State) : Eff :=
  let c := s.ctx x
  if s.patrol.running then
    ((s.setCtx x { c with state := .drainingSteps, waitPass := true }).setPatrol
        { s.patrol with stopMark := true, stopList := s.patrol.stopList ++ [x] }, [.passCheck])
  else (enterFinishing x (s.setCtx x { c with result := s.patrol.passNumber.setWidth 64 }), [])

/-- The settings of a SET (R48). -/
def setSettings (r : Bytes) : PatrolCfg := ⟨argPace r, argSettle r, argWeak r, argAuto r == 1⟩

/-- SET: the settings are in force at this event, and the context waits for the next commit (R49, R60, R134). The units that
become READY offer before the commit is asked for (log entry 44). -/
def acceptSet (x : CtxId) (s : State) : Eff :=
  let c := s.ctx x
  let e := patrolSet (setSettings c.record) (s.setCtx x { c with state := .commitWait, waitCommit := true })
  (e.1, e.2 ++ [.change (.config x)])

/-- A region operation: no change, or the change pending and the context waiting on its commit (R10, R14 to R18). -/
def acceptRegionOp (k : OpKind) (x : CtxId) (s : State) : Eff :=
  let c := s.ctx x
  if opNoChange s k c.record then (enterFinishing x s, [])
  else
    let i := opIndex k c.record
    ((s.setRegion i { s.region i with pending := some (opChange k c.record) }).setCtx x
        { c with state := .commitWait, waitCommit := true },
      [.change (.region i c.lane x (opChange k c.record))])

/-- LOCKDOWN: the flag is set (R19). -/
def acceptLockdown (x : CtxId) (s : State) : Eff := (enterFinishing x { s with lockdown := true }, [])

/-- A record without a known operation is never accepted: step 1 refuses it (R28). -/
def acceptNothing (x : CtxId) (s : State) : Eff := (enterFinishing x s, [])

/-! ### The rows -/

/-- READ (R37). -/
def execRead (s : State) : Res := .next (grantRow .read acceptBlocks s)
/-- WRITE (R44). -/
def execWrite (s : State) : Res := .next (grantRow .write acceptBlocks s)
/-- FILL (R45). -/
def execFill (s : State) : Res := .next (grantRow .fill acceptBlocks s)
/-- COPY (R46). -/
def execCopy (s : State) : Res := .next (grantRow .copy acceptBlocks s)
/-- VERIFY (R39). -/
def execVerify (s : State) : Res := .next (grantRow .verify acceptBlocks s)
/-- DIGEST (R41). -/
def execDigest (s : State) : Res := .next (grantRow .digest acceptBlocks s)
/-- RELOCATE (R47). -/
def execRelocate (s : State) : Res := .next (grantRow .relocate acceptRelocate s)
/-- BARRIER (R52). -/
def execBarrier (s : State) : Res := .next (grantRow .barrier acceptBarrier s)
/-- TABLE_READ (R50). -/
def execTableRead (s : State) : Res := .next (grantRow .tableRead acceptTableRead s)
/-- START_PASS (R132). -/
def execStartPass (s : State) : Res := .next (grantRow .startPass acceptStartPass s)
/-- STOP_PASS (R133). -/
def execStopPass (s : State) : Res := .next (grantRow .stopPass acceptStopPass s)
/-- SET (R134). -/
def execSetPatrol (s : State) : Res := .next (grantRow .setPatrol acceptSet s)
/-- REGION_DEFINE (R14). -/
def execRegionDefine (s : State) : Res := .next (grantRow .regionDefine (acceptRegionOp .regionDefine) s)
/-- REGION_DELETE (R15). -/
def execRegionDelete (s : State) : Res := .next (grantRow .regionDelete (acceptRegionOp .regionDelete) s)
/-- REGION_GUARD (R16). -/
def execRegionGuard (s : State) : Res := .next (grantRow .regionGuard (acceptRegionOp .regionGuard) s)
/-- REGION_RELEASE (R17). -/
def execRegionRelease (s : State) : Res := .next (grantRow .regionRelease (acceptRegionOp .regionRelease) s)
/-- REGION_FIX (R18). -/
def execRegionFix (s : State) : Res := .next (grantRow .regionFix (acceptRegionOp .regionFix) s)
/-- LOCKDOWN (R19). -/
def execLockdown (s : State) : Res := .next (grantRow .lockdown acceptLockdown s)
/-- BAD_OP (R33). -/
def execBadOp (s : State) : Res := .next (grantRow .badOp acceptNothing s)

end Sys2Proof.Machine
end

