-- ==== Sys2Proof/Machine/ContextCommands.lean ====
section
/-! DEFINITION. The contexts' own events: the end of a list read (R30), the take of a block (R61), the ends of host reads and
buffer writes (R37, R44, R50), the final write (R66) and the error of a record write (R36). An event the context does not
wait for changes nothing (log entry 2), nor does the end of an access issued before a halt or a cold reset (`State.awaits`). -/

namespace Sys2Proof.Machine

/-! ### LIST_READ_END (R30) -/

/-- The effect of an accepted record of an operation that takes segments. -/
def acceptListed (k : OpKind) : CtxId → State → Eff := if k = .tableRead then acceptTableRead else acceptBlocks

/-- The list read of context `x` ends (R30): an aborted record ends without further checks. -/
def listReadEnds (x : CtxId) (read : HostResult Bytes) (s : State) : Eff :=
  let c := { s.ctx x with listReading := false }
  let k := recKind c.record
  let t := s.setCtx x c
  if c.abortMark then (enterFinishing x t, [])
  else
    match read with
    | .busError => (refuseRecord x .hostMemory t, [])
    | .data bs =>
      let segs := segmentsOf (recSegCount c.record) bs
      if segmentsOk k c.record segs then checkAccess k (acceptListed k) x (s.setCtx x { c with segs := segs })
      else (refuseRecord x .badArg t, [])

def execListReadEnd (x : CtxId) (read : HostResult Bytes) (s : State) (epoch : Nat := 0) : Res :=
  .next
    (if s.awaits epoch ∧ (s.ctx x).state = .loading ∧ (s.ctx x).listReading then workOff (listReadEnds x read s) else s)

/-! ### TAKE_BLOCK (R61) -/

/-- The context may take its next block into issue (R61). -/
def canTakeBlock (s : State) (x : CtxId) : Bool :=
  let c := s.ctx x
  !s.halted && c.state == .issuing && recKind c.record != .tableRead && decide (c.cursor < recCount c.record)
    && c.failure.isNone && !c.abortMark && c.freeBuffer.isSome && decide (c.outstandingSteps < Config.maxOutstanding)

/-- The block at the cursor is taken: a staging buffer is bound, the cursor advances (R61). -/
def Context.take (c : Context) (p : BlockPhase) (data : Option Bytes) : Context :=
  { c.bind c.cursor data with cursor := c.cursor + 1, blocks := c.blocks ++ [⟨c.cursor, p⟩] }

/-- The unit of the context's next block is OFFLINE (R71). -/
def nextUnitOffline (s : State) (x : CtxId) : Bool :=
  (s.chan (s.unitOf ((s.ctx x).srcBase + (s.ctx x).cursor))).state == .offline

/-- The command of a FILL's steps (R45). -/
def fillCommand (r : Bytes) : StepCmd := if recBlank r then .clear else .program

/-- What a FILL's staging buffer holds (R61). -/
def fillData (r : Bytes) : Bytes := if recBlank r then zeroBlock else fillBlock r

/-- The context takes its next block into issue (R61, R44, R45, R71). -/
def takeBlock (x : CtxId) (s : State) : Eff :=
  let c := s.ctx x
  let j := c.cursor
  match recKind c.record with
  | .write =>
    if nextUnitOffline s x then (s.setCtx x ((c.take .hostRead none).failBlock j .unitOffline), [])
    else ((s.setCtx x (c.take .hostRead none)).emit (pieceReads (c.pieces j)), [])
  | .fill =>
    issueProgram x j (fillCommand c.record)
      (s.setCtx x (c.take (.outstanding (fillCommand c.record)) (some (fillData c.record))))
  | _ => issueStep x j .read (s.setCtx x (c.take (.outstanding .read) none))

def execTakeBlock (x : CtxId) (s : State) : Res :=
  .next
    (if canTakeBlock s x then
      let e := takeBlock x s
      runEvent (ctxSettle x e.1, e.2)
    else s)

/-! ### HOST_READ_END (R44) -/

/-- The lowest block whose host read failed. -/
def lowerHostFail (f : Option Nat) (j : Nat) : Option Nat := some (match f with | none => j | some i => min i j)

/-- A host read failed for a block below `j`, so no step is issued for `j` (R44, log entry 13). -/
def Context.hostFailedBelow (c : Context) (j : Nat) : Bool := c.hostFailed.any fun i => decide (i < j)

/-- The host read of block `j` of a WRITE ends (R44, R67). -/
def hostReadEnds (x : CtxId) (j : Nat) (read : HostResult Bytes) (s : State) : Eff :=
  let c := s.ctx x
  if c.abortMark || c.hostFailedBelow j then (ctxUpdate x (c.endBlock j) s, [])
  else
    match read with
    | .busError =>
      (ctxUpdate x { c.failBlock j .hostMemory with hostFailed := lowerHostFail c.hostFailed j } s, [])
    | .data bs => issueProgram x j .program (s.setCtx x (c.putData j bs))

def execHostReadEnd (x : CtxId) (j : Nat) (read : HostResult Bytes) (s : State) (epoch : Nat := 0) : Res :=
  .next (if s.awaits epoch ∧ (s.ctx x).phase j = some .hostRead then runEvent (hostReadEnds x j read s) else s)

/-! ### BUFFER_WRITE_END (R37, R50) -/

/-- The bytes of chunk `j` of a snapshot of `size` bytes. -/
def chunkSize (size j : Nat) : Nat := min Config.blockSize (size - Config.blockSize * j)

/-- A buffer write of a TABLE_READ ends: the bytes count, and the next chunk goes out (R50). A chunk whose bytes lie in several
segments ends as one buffer write, so an error on any piece of it counts none of its bytes (log entry 64). -/
def chunkEnds (x : CtxId) (j : Nat) (error : Bool) (s : State) : State :=
  let c := { s.ctx x with blocks := [] }
  if error then ctxUpdate x { c with otherFail := some .hostMemory } s
  else
    let d := { c with written := c.written + chunkSize c.snapSize j }
    if d.issueOver then ctxUpdate x d s else issueChunk x (s.setCtx x d)

/-- A buffer write ends (R37, R63). -/
def bufferWriteEnds (x : CtxId) (j : Nat) (error : Bool) (s : State) : State :=
  let c := s.ctx x
  if recKind c.record = .tableRead then chunkEnds x j error s
  else if error then ctxUpdate x (c.failBlock j .hostMemory) s
  else ctxUpdate x (c.succeed j) s

def execBufferWriteEnd (x : CtxId) (j : Nat) (error : Bool) (s : State) (epoch : Nat := 0) : Res :=
  .next (if s.awaits epoch ∧ (s.ctx x).phase j = some .bufferWrite then bufferWriteEnds x j error s else s)

/-! ### FINAL_WRITE (R66) and RESULT_ERROR (R36) -/

/-- The result is written, the record reported final, the context FREE (R66). -/
def finalWrite (x : CtxId) (fs : FinalState) (part : DevicePart) (s : State) : State :=
  let c := s.ctx x
  reportFinal c.lane x fs (freeContext x (s.emit (resultWrites c.addr part fs)))

def execFinalWrite (x : CtxId) (s : State) : Res :=
  .next
    (match (s.ctx x).state, (s.ctx x).final with
    | .finishing, some (fs, part) => if s.halted then s else finishEvent (finalWrite x fs part s)
    | _, _ => s)

/-- A halt cause is taken in RUNNING, STOPPING and STOPPED (R198). -/
def haltsTaken (s : State) : Bool :=
  s.dev.state == .running || s.dev.state == .stopping || s.dev.state == .stopped

/-- RESULT_ERROR (R36, R198, log entry 29). -/
def execResultError (s : State) (epoch : Nat := 0) : Res :=
  .next (if s.awaits epoch ∧ haltsTaken s then finishEvent (haltEntry .resultError s) else s)

end Sys2Proof.Machine
end

