-- ==== Sys2Proof/Machine/LaneCommands.lean ====
section
/-! DEFINITION. The lanes' own events: the ends of their host reads (R160, R162, R165, and R173 during a drain) and the poll
timer's expiry (R166). An end of a read the lane has not in flight changes nothing (log entry 2), nor does that of a read issued before
a halt or a cold reset (`State.awaits`). -/

namespace Sys2Proof.Machine

/-- The read in flight is over. -/
def readOver (l : LaneId) (s : State) : State := modLane l (fun k => { k with reading := none }) s

/-- The lane is DRAINING, so a read's outcome is information only (R173). -/
def laneDraining (l : LaneId) (s : State) : Bool := (s.lane l).state == .draining

/-! ### CONFIG_READ_END (R160) -/

/-- The fields of a lane after a good configuration (R160). -/
def Lane.configured (k : Lane) (bs : Bytes) : Lane :=
  { k with
    cfg := laneCfgOf bs
    reading := none
    target := some (cfgHead bs)
    expSeq := (laneCfgOf bs).initSeq
    retireSeq := (laneCfgOf bs).initSeq - 1
    resume := cfgHead bs }

/-- The DAR after a good configuration (R58). -/
def Dar.configured (d : Dar) (l : LaneId) (bs : Bytes) : Dar :=
  { d with weight := d.weight.set l (cfgWeight bs), cap := d.cap.set l (cfgCap bs), credit := d.credit.set l (cfgWeight bs) }

/-- The configuration entry is tested and loaded (R160). -/
def configRead (l : LaneId) (read : HostResult Bytes) (s : State) : State :=
  match read with
  | .busError => laneFault l .fetchError (s.cfgAddr l) s
  | .data bs =>
    if !recordAddrOk (cfgHead bs) then laneFault l .badLink (cfgHead bs) s
    else if !cfgRangesOk bs then laneFault l .badConfig (s.cfgAddr l) s
    else
      let t := modLane l (fun k => k.configured bs) s
      issueFetch l (askStatus l { t with dar := t.dar.configured l bs })

/-- CONFIG_READ_END (R160, R173). -/
def execConfigReadEnd (l : LaneId) (read : HostResult Bytes) (s : State) (epoch : Nat := 0) : Res :=
  .next
    (if s.awaits epoch ∧ (s.lane l).reading = some .config then
      finishEvent (if laneDraining l s then readOver l s else configRead l read s)
    else s)

/-! ### FETCH_END (R162) -/

/-- The window's record of a fetch that stages it (R168). -/
def stagedRecord (a : Addr) (r : Bytes) : WinRec := ⟨recSeq r, a, .staged, false, false, recFence r, recNotify r⟩

/-- The record fetched becomes the staged record (R162). -/
def Lane.stage (k : Lane) (a : Addr) (r : Bytes) : Lane :=
  { k with
    state := .staged
    reading := none
    target := none
    expSeq := k.expSeq + 1
    staged := some r
    window := k.window ++ [stagedRecord a r]
    resume := a }

/-- The four tests of a fetch (R162). -/
def fetched (l : LaneId) (a : Addr) (read : HostResult Bytes) (s : State) : State :=
  match read with
  | .busError => laneFault l .fetchError a s
  | .data r =>
    if recState r ≠ posted then park l .parkedUnposted s
    else if recSeq r ≠ (s.lane l).expSeq then laneFault l .seqBreak a s
    else modLane l (fun k => k.stage a r) s

/-- FETCH_END (R162, R173). -/
def execFetchEnd (l : LaneId) (read : HostResult Bytes) (s : State) (epoch : Nat := 0) : Res :=
  .next
    (match s.awaits epoch, (s.lane l).reading with
    | true, some (.fetch a) =>
      finishEvent
        (if laneDraining l s then modLane l (fun k => { k with drainNext := some a }) (readOver l s)
        else fetched l a read s)
    | _, _ => s)

/-! ### LINK_READ_END (R165) -/

/-- The link counts as read non-zero. -/
def linkReadNonZero (l : LaneId) (s : State) : State := modLane l (fun k => { k with window := markNewest k.window }) s

/-- A link that leads on: fetch target, resume address, retirement, fetch (R165, R170). -/
def followLink (l : LaneId) (link : Addr) (s : State) : State :=
  issueFetch l
    (laneRetire l
      (modLane l (fun k => { k with reading := none, target := some link, resume := link }) (linkReadNonZero l s)))

/-- The outcomes of a link read (R165). A bad link is read non-zero, so its record may retire at this event, before the
LANE_FAULT event is posted (log entry 46). -/
def linkRead (l : LaneId) (a : Addr) (read : HostResult Addr) (s : State) : State :=
  match read with
  | .busError => laneFault l .fetchError a s
  | .data link =>
    if link = 0 then park l .parkedEnd s
    else if link.toNat % 128 ≠ 0 then laneFault l .badLink a (laneRetire l (linkReadNonZero l s))
    else followLink l link s

/-- A link read that ends during a drain (R173). -/
def drainedLink (l : LaneId) (read : HostResult Addr) (s : State) : State :=
  match read with
  | .busError => s
  | .data link =>
    if link = 0 ∨ link.toNat % 128 ≠ 0 then s
    else laneRetire l (modLane l (fun k => { k with drainNext := some link, resume := link }) (linkReadNonZero l s))

/-- LINK_READ_END (R165, R173). -/
def execLinkReadEnd (l : LaneId) (read : HostResult Addr) (s : State) (epoch : Nat := 0) : Res :=
  .next
    (match s.awaits epoch, (s.lane l).reading with
    | true, some (.link a) =>
      finishEvent (if laneDraining l s then drainedLink l read (readOver l s) else linkRead l a read s)
    | _, _ => s)

/-! ### POLL_EXPIRY (R166) -/

/-- The poll timer stops. -/
def stopPoll (l : LaneId) (s : State) : State := modLane l (fun k => { k with poll := none }) s

/-- POLL_EXPIRY (R166): a running timer whose expiry has been reached stops, and a parked lane of a RUNNING device
re-reads. -/
def execPollExpiry (l : LaneId) (s : State) : Res :=
  .next
    (match (s.lane l).poll with
    | some t =>
      if reached s.tick t then
        if (s.lane l).parked && s.dev.state == .running then reread l (stopPoll l s) else stopPoll l s
      else s
    | none => s)

end Sys2Proof.Machine
end

