-- ==== Sys2Proof/Machine/ChannelCommands.lean ====
section
/-! DEFINITION. The channels' events: the units' answers (R72, R84 to R86, R91) and the answer timer's expiry (R73, R74,
R93), and patrol's timers (R125, R126). An answer whose attempt has ended, or that the command cannot return, is discarded
(R73, log entry 4). -/

namespace Sys2Proof.Machine

/-! ### IDENTIFY_ANSWER (R91) -/

/-- The judged answer of the IDENTIFY step. -/
def identified (u : UnitId) (valid : Bool) (s : State) : State :=
  s.setChan u { s.chan u with link := .idle, identified := some valid }

/-- The IDENTIFY step of a channel ends: a valid unit goes on to its system-area reads (R153, R192). -/
def identifyEnds (u : UnitId) (valid : Bool) (s : State) : Eff :=
  (identified u valid s, if valid then [loadRead u .a 0] else [.probeCheck])

/-- The block size and block count of an accepted unit (R91). -/
def identityValid (size count : Word32) : Bool := size == 4096#32 && count == 66592#32

/-- IDENTIFY_ANSWER (R91, R73). -/
def execIdentifyAnswer (u : UnitId) (attempt : Nat) (answer : IdentityAnswer) (s : State) : Res :=
  .next
    (match (s.chan u).link, answer with
    | .identify _ n _, .identity size count =>
      if n = attempt then runEvent (identifyEnds u (identityValid size count) s) else s
    | _, _ => s)

/-! ### READ_ANSWER (R84, R85) -/

/-- The classification, weakness and data of an answer (R84); none for a class READ cannot return (R73). -/
def classify (weak : Nat) (answer : ReadAnswer) : Option (ReadClass × Bool × Bytes) :=
  match answer with
  | .clean d => some (.clean, false, d)
  | .corrected k d => if 1 ≤ k ∧ k ≤ 8 then some (.corrected, decide (weak < k), d) else none
  | .blank => some (.blank, false, zeroBlock)
  | .uncorrectable => some (.uncorrectable, false, [])

/-- The start-up reads take only data a unit returned: a BLANK block has none (R140, R153). -/
def execReadAnswer (u : UnitId) (attempt : Nat) (answer : ReadAnswer) (s : State) : Res :=
  .next
    (match (s.chan u).link, classify s.patrol.cfg.weak answer with
    | .performing e target _ n _ _ _, some (cls, weak, data) =>
      if n = attempt ∧ e.cmd = .read then runEvent (readEnds u e target cls weak data s) else s
    | _, _ => s)

/-! ### PROGRAM_ANSWER and CLEAR_ANSWER (R86) -/

/-- An answer to a program or clear, when that is the command outstanding. -/
def writeAnswered (cmd : StepCmd) (u : UnitId) (attempt : Nat) (answer : ProgramAnswer) (s : State) : State :=
  match (s.chan u).link with
  | .performing e target _ n _ _ poisoned =>
    if n = attempt ∧ e.cmd = cmd then runEvent (writeEnds u e target (answer == .ok) poisoned s) else s
  | _ => s

/-- PROGRAM_ANSWER (R86). -/
def execProgramAnswer (u : UnitId) (attempt : Nat) (answer : ProgramAnswer) (s : State) : Res :=
  .next (writeAnswered .program u attempt answer s)

/-- CLEAR_ANSWER (R86). -/
def execClearAnswer (u : UnitId) (attempt : Nat) (answer : ProgramAnswer) (s : State) : Res :=
  .next (writeAnswered .clear u attempt answer s)

/-! ### NO_RESPONSE (R73, R74, R93) -/

/-- The second NO_RESPONSE of IDENTIFY: no valid answer, and the unit's loss (R91, R93, log entry 19). -/
def identifyLost (u : UnitId) (s : State) : Eff :=
  let t := s.setChan u { s.chan u with link := .idle, state := .offline, identified := some false }
  (postEvent .unitOffline { code := some 1, gen := some s.cme.gen, media := some u.val } t, [.probeCheck])

/-- The command goes out again as the second attempt, to the same block with the same data (R74). -/
def sendAgain (u : UnitId) (link : Nat → Tick → Link) (cmd : MediaCmd) (s : State) : State :=
  let c := s.chan u
  (s.setChan u { c with link := link (c.sent + 1) (answerExpiry s), sent := c.sent + 1 }).emit
    [.media u (c.sent + 1) cmd]

/-- An attempt ends NO_RESPONSE (R73, R74, R93). -/
def attemptExpires (u : UnitId) (s : State) : State :=
  match (s.chan u).link with
  | .identify second _ _ =>
    if second then runEvent (identifyLost u s) else sendAgain u (fun n t => .identify true n t) .identify s
  | .performing e target second _ _ data poisoned =>
    if second then runEvent (unitLoss u e target s)
    else sendAgain u (fun n t => .performing e target true n t data poisoned) (mediaCommand e.cmd target data) s
  | .idle => s

/-- The answer timer of this attempt runs and its expiry has been reached. -/
def attemptDue (s : State) (u : UnitId) (attempt : Nat) : Bool :=
  match (s.chan u).link with
  | .identify _ n t => n == attempt && reached s.tick t
  | .performing _ _ _ n t _ _ => n == attempt && reached s.tick t
  | .idle => false

/-- NO_RESPONSE (R73). -/
def execNoResponse (u : UnitId) (attempt : Nat) (s : State) : Res :=
  .next (if attemptDue s u attempt then attemptExpires u s else s)

/-! ### Patrol's timers (R125, R126) -/

/-- The pace timer of a unit expires (R125): a unit in PACE_WAIT becomes READY. At pace 0 it stays in PACE_WAIT, in a device
that is not RUNNING too, where R135 alone would make it READY (log entry 51). -/
def paceExpires (u : UnitId) (s : State) : Eff :=
  let t := modPatrolUnit u (fun p => { p with paceTimer := none }) s
  if (s.patrolUnit u).sub = .paceWait ∧ 0 < s.patrol.cfg.pace then becomeReady u t else (t, [])

/-- PACE_EXPIRY (R125). -/
def execPaceExpiry (u : UnitId) (s : State) : Res :=
  .next
    (match (s.patrolUnit u).paceTimer with
    | some t => if reached s.tick t then workOff (paceExpires u s) else s
    | none => s)

/-- The settle timer of a unit expires (R126): a SUSPENDED unit becomes READY. -/
def settleExpires (u : UnitId) (s : State) : Eff :=
  let t := modPatrolUnit u (fun p => { p with settleTimer := none }) s
  if (s.patrolUnit u).sub = .suspended then becomeReady u t else (t, [])

/-- SETTLE_EXPIRY (R126). -/
def execSettleExpiry (u : UnitId) (s : State) : Res :=
  .next
    (match (s.patrolUnit u).settleTimer with
    | some t => if reached s.tick t then workOff (settleExpires u s) else s
    | none => s)

end Sys2Proof.Machine
end

