-- ==== Sys2Proof/Machine/NotifyCommands.lean ====
section
/-! DEFINITION. The notification unit's own events: the issue of its write list (R178), the completion and the error of a
write (R180, R200), and the hold timers (R185). -/

namespace Sys2Proof.Machine

/-- The device-area bytes the page layout does not list, between the lane status entries and the event slots and behind the
slots, written as zero (R155, R195). -/
def unlistedZeros (anchor : Addr) : List Output :=
  [.hostWrite (anchor + 1344) (zeros 192), .hostWrite (anchor + 2176) (zeros 1920)]

/-- What the LIF issues for a request (R178): a slot goes out as 60 detail bytes, then its count; the identity entry, which
only an initialization asks for, with the zeros of the unlisted bytes behind it (R195, log entry 37). -/
def requestOutput (anchor : Addr) (r : WriteReq) : List Output :=
  let a := anchor + BitVec.ofNat 64 r.target.offset
  match r.target with
  | .slot _ => [.hostWrite (a + 4) (r.content.drop 4), .hostWrite a (r.content.take 4)]
  | .message route => [.message route]
  | .identity => .hostWrite a r.content :: unlistedZeros anchor
  | .laneStatus _ => [.hostWrite a r.content]

/-- DEVICE_AREA_WRITE (R178): the head of the write list goes to the LIF. -/
def execDeviceAreaWrite (s : State) : Res :=
  .next
    (match s.ntu.writes with
    | [] => s
    | r :: rest =>
      let os := requestOutput s.anchor r
      (s.setNtu { s.ntu with writes := rest, handed := s.ntu.handed + os.length }).emit os)

/-- DEVICE_AREA_WRITE_COMPLETED (R200): a write handed to the LIF completes without error. -/
def execDeviceAreaWriteCompleted (s : State) (epoch : Nat := 0) : Res :=
  .next (if s.awaits epoch ∧ 0 < s.ntu.handed then resetEndCheck (s.setNtu { s.ntu with handed := s.ntu.handed - 1 }) else s)

/-- DEVICE_AREA_ERROR (R180, R198): a write handed to the LIF ends with a bus error. -/
def execDeviceAreaError (s : State) (epoch : Nat := 0) : Res :=
  .next (if s.awaits epoch ∧ 0 < s.ntu.handed ∧ haltsTaken s then finishEvent (haltEntry .deviceAreaError s) else s)

/-- HOLD_EXPIRY (R185): the hold timer of a HOLDING route expires and the route sends. -/
def execHoldExpiry (r : RouteId) (s : State) : Res :=
  .next
    (match (s.route r).state, (s.route r).timer with
    | .holding, some t => if reached s.tick t then sendRoute r s else s
    | _, _ => s)

end Sys2Proof.Machine
end

