-- ==== Sys2Proof/Machine/Dispatch.lean ====
section
/-! DEFINITION. The dispatch: one arm for each command, each a direct call of its meaning. -/

namespace Sys2Proof.Machine

def exec (i : Instr) (s : State) : Host.Outcome State Fault Refusal :=
  match i with
  | .coldReset source => Sys2Proof.Machine.execColdReset source s
  | .run => Sys2Proof.Machine.execRun s
  | .runTaken read number => Sys2Proof.Machine.execRunTaken read s number
  | .stop => Sys2Proof.Machine.execStop s
  | .reset => Sys2Proof.Machine.execReset s
  | .anchorHi value => Sys2Proof.Machine.execAnchorHi value s
  | .anchorLo value => Sys2Proof.Machine.execAnchorLo value s
  | .start mask => Sys2Proof.Machine.execStart mask s
  | .look mask => Sys2Proof.Machine.execLook mask s
  | .abort mask => Sys2Proof.Machine.execAbort mask s
  | .acknowledge mask => Sys2Proof.Machine.execAcknowledge mask s
  | .ignoredWrite offset width value => Sys2Proof.Machine.execIgnoredWrite offset width value s
  | .read => Sys2Proof.Machine.execRead s
  | .write => Sys2Proof.Machine.execWrite s
  | .fill => Sys2Proof.Machine.execFill s
  | .copy => Sys2Proof.Machine.execCopy s
  | .verify => Sys2Proof.Machine.execVerify s
  | .digest => Sys2Proof.Machine.execDigest s
  | .relocate => Sys2Proof.Machine.execRelocate s
  | .barrier => Sys2Proof.Machine.execBarrier s
  | .tableRead => Sys2Proof.Machine.execTableRead s
  | .startPass => Sys2Proof.Machine.execStartPass s
  | .stopPass => Sys2Proof.Machine.execStopPass s
  | .setPatrol => Sys2Proof.Machine.execSetPatrol s
  | .regionDefine => Sys2Proof.Machine.execRegionDefine s
  | .regionDelete => Sys2Proof.Machine.execRegionDelete s
  | .regionGuard => Sys2Proof.Machine.execRegionGuard s
  | .regionRelease => Sys2Proof.Machine.execRegionRelease s
  | .regionFix => Sys2Proof.Machine.execRegionFix s
  | .lockdown => Sys2Proof.Machine.execLockdown s
  | .badOp => Sys2Proof.Machine.execBadOp s
  | .listReadEnd x result epoch => Sys2Proof.Machine.execListReadEnd x result s epoch
  | .takeBlock x => Sys2Proof.Machine.execTakeBlock x s
  | .hostReadEnd x j result epoch => Sys2Proof.Machine.execHostReadEnd x j result s epoch
  | .bufferWriteEnd x j error epoch => Sys2Proof.Machine.execBufferWriteEnd x j error s epoch
  | .finalWrite x => Sys2Proof.Machine.execFinalWrite x s
  | .resultError epoch => Sys2Proof.Machine.execResultError s epoch
  | .configReadEnd l result epoch => Sys2Proof.Machine.execConfigReadEnd l result s epoch
  | .fetchEnd l result epoch => Sys2Proof.Machine.execFetchEnd l result s epoch
  | .linkReadEnd l result epoch => Sys2Proof.Machine.execLinkReadEnd l result s epoch
  | .pollExpiry l => Sys2Proof.Machine.execPollExpiry l s
  | .identifyAnswer u attempt answer => Sys2Proof.Machine.execIdentifyAnswer u attempt answer s
  | .readAnswer u attempt answer => Sys2Proof.Machine.execReadAnswer u attempt answer s
  | .programAnswer u attempt answer => Sys2Proof.Machine.execProgramAnswer u attempt answer s
  | .clearAnswer u attempt answer => Sys2Proof.Machine.execClearAnswer u attempt answer s
  | .noResponse u attempt => Sys2Proof.Machine.execNoResponse u attempt s
  | .paceExpiry u => Sys2Proof.Machine.execPaceExpiry u s
  | .settleExpiry u => Sys2Proof.Machine.execSettleExpiry u s
  | .deviceAreaWrite => Sys2Proof.Machine.execDeviceAreaWrite s
  | .deviceAreaError epoch => Sys2Proof.Machine.execDeviceAreaError s epoch
  | .holdExpiry route => Sys2Proof.Machine.execHoldExpiry route s
  | .controlRefused bits => Sys2Proof.Machine.execControlRefused bits s
  | .deviceAreaWriteCompleted epoch => Sys2Proof.Machine.execDeviceAreaWriteCompleted s epoch
  | .resetInputRelease => Sys2Proof.Machine.execResetInputRelease s

end Sys2Proof.Machine
end

