-- ==== Sys2Proof/Machine/Step.lean ====
section
/-! DEFINITION. One step: the command at the front of the queue is run on the state with the queue's rest. On an empty queue
a microsecond passes (R190; DESIGN CHOICE, log entry 1). -/

namespace Sys2Proof.Machine

/-- A microsecond passes (R190). -/
def State.idle (s : State) : State := { s with tick := s.tick + 1 }

def step (s : State) : Host.Outcome State Fault Refusal :=
  match s.pending with
  | [] => .next s.idle
  | c :: rest => exec c { s with pending := rest }

/-- The command a table word spells, put at the front of the queue; no word spells one. -/
def State.withFetchWord (s : State) (nbits w : Nat) : State :=
  match decodeTableWord nbits w with
  | some c => { s with pending := c :: s.pending }
  | none => s

end Sys2Proof.Machine
end

