-- ==== Sys2Proof/Safety.lean ====
section
/-! DEFINITION. The predicates claims are stated with: invariants of the device, what a group of state parts unchanged means,
and when a grant takes a record. -/

namespace Sys2Proof.Machine

/-! ### Invariants -/

/-- The anchor page is 4,096-byte aligned (R194). -/
def AnchorAligned (s : State) : Prop := s.anchor.extractLsb' 0 12 = 0

/-- The fault codes that only HALTED shows (R189). -/
def FaultCode.isHaltCause : FaultCode → Bool
  | .probeLayout | .deviceAreaError | .resultError => true
  | .none | .anchorRefused | .noAnchor | .controlRefused => false

/-- The device's mode bits fit together: a RUN is pending only in STOPPED (R196), a warm reset is in progress only in
STOPPING and HALTED (R200), and the fault code is a halt cause exactly in HALTED (R189). -/
structure ModesLegal (s : State) : Prop where
  runPending : s.dev.runPending = true → s.dev.state = .stopped
  reset : s.dev.resetInProgress = true → s.dev.state = .stopping ∨ s.dev.state = .halted
  fault : s.dev.fault.isHaltCause = true ↔ s.dev.state = .halted

/-- A route's count and settings are within their widths (R156, R177). -/
def RouteInRange (v : Route) (cfg : RouteCfg) : Prop :=
  v.count ≤ Config.maxRouteCount ∧ cfg.hold ≤ 4095 ∧ 1 ≤ cfg.threshold ∧ cfg.threshold ≤ Config.maxRouteCount

/-- The counters and settings of the notification unit, the lanes and the arbiter stay within the widths and ranges the manual
gives them (R58, R156, R157, R160, R177, R181). -/
structure CountersInRange (s : State) : Prop where
  spareLow : s.settings.spareLow ≤ 1023
  routeA : RouteInRange s.ntu.routeA s.settings.routeA
  routeB : RouteInRange s.ntu.routeB s.settings.routeB
  slots : ∀ k : Fin 10, (s.ntu.slots[k]).count ≤ Config.maxEventCount
  refused : ∀ l : LaneId, (s.lane l).refused ≤ Config.maxRefused
  weights : ∀ l : LaneId, 1 ≤ s.dar.weight[l] ∧ s.dar.weight[l] ≤ 8
  caps : ∀ l : LaneId, 1 ≤ s.dar.cap[l] ∧ s.dar.cap[l] ≤ 4

/-- The commit in flight bears the generation after the current one, and before the probe is over there is neither a
generation nor a commit (R142, R143). -/
structure CommitOrdered (s : State) : Prop where
  inFlight : ∀ f, s.cme.inFlight = some f → f.image.gen = s.cme.gen + 1
  probing : s.dev.state = .probing → s.cme.state = .loading ∧ s.cme.inFlight = none ∧ s.cme.gen = 0

/-- The locks of a channel and the moves of its unit's table fit together (R88, R104): at most four moves, of one block each and
numbered apart; every lock is that of a move in a slot whose start the channel has taken, on its from-block; a block has at most
one lock; and no FOREGROUND entry naming a locked block is performed, queued or waiting. -/
structure LocksFit (c : Channel) (r : Rlt) : Prop where
  slots : r.moves.length ≤ 4
  blocks : (r.moves.map fun m => m.req.src).Nodup
  numbers : (r.moves.map Move.mid).Nodup
  numbered : ∀ m ∈ r.moves, m.mid < r.nextMid
  started : ∀ k ∈ c.locks, ∃ m ∈ r.moves, m.mid = k.mid ∧ m.req.src = k.block ∧ m.state ≠ .starting
  once : (c.locks.map Lock.block).Nodup
  kept : ∀ k ∈ c.locks, ∀ e ∈ c.entries, e.foregroundOn k.block = false

/-- On every unit, locks and moves fit together (R88, R104). -/
def MoveLocksFit (s : State) : Prop := ∀ u, LocksFit (s.chan u) (s.rlt u)

/-- The work of a warm reset is over (R200): every context FREE, every lane OFF, no move pending, the commit engine IDLE, and,
unless the device is HALTED, the write list empty and no write in flight. -/
structure ResetWorkOver (halted : Prop) (t : State) : Prop where
  contexts : ∀ x, (t.ctx x).state = .free
  lanes : ∀ l, (t.lane l).state = .off
  moves : ∀ u, (t.rlt u).moves = []
  engine : t.cme.state = .idle
  writes : halted ∨ (t.ntu.writes = [] ∧ t.ntu.handed = 0)

/-! ### Host accesses -/

/-- The epoch a command names as that of the host access it ends, if it ends one (log entry 75). The end of a settings read names the
number of its read instead. -/
def issuedIn : Instr → Option Nat
  | .listReadEnd _ _ epoch | .hostReadEnd _ _ _ epoch | .bufferWriteEnd _ _ _ epoch | .resultError epoch
  | .configReadEnd _ _ epoch | .fetchEnd _ _ epoch | .linkReadEnd _ _ epoch
  | .deviceAreaError epoch | .deviceAreaWriteCompleted epoch => some epoch
  | _ => none

/-! ### Parts that stay -/

/-- Device mode, stripe width, tick, anchor, settings, lockdown flag, message enable, unit present inputs, queue and the LIF's counts of
its accesses are those of `s`. -/
structure SameDevice (s t : State) : Prop where
  pending : t.pending = s.pending
  dev : t.dev = s.dev
  lif : t.lif = s.lif
  width : t.width = s.width
  tick : t.tick = s.tick
  anchor : t.anchor = s.anchor
  anchorHigh : t.anchorHigh = s.anchorHigh
  settings : t.settings = s.settings
  messagesEnabled : t.messagesEnabled = s.messagesEnabled
  unitPresent : t.unitPresent = s.unitPresent
  lockdown : t.lockdown = s.lockdown

/-- Channels, relocation tables, patrol, patrol log and commit engine are those of `s`. -/
structure SameMedia (s t : State) : Prop where
  chans : t.chans = s.chans
  rlts : t.rlts = s.rlts
  patrol : t.patrol = s.patrol
  log : t.log = s.log
  cme : t.cme = s.cme

/-- Contexts, regions and arbiter are those of `s`. -/
structure SameRecords (s t : State) : Prop where
  ctxs : t.ctxs = s.ctxs
  regions : t.regions = s.regions
  dar : t.dar = s.dar

/-! ### Moves -/

/-- Channel `c` after the ends of the moves of these numbers (R89): their locks, their entries not performed and their move buffer are
gone, everything else is as it was. -/
def withoutMoves (mids : List Nat) (c : Channel) : Channel :=
  { c with
    locks := c.locks.filter fun k => !mids.contains k.mid
    queue := c.queue.filter fun e => mids.all fun mid => e.source != .move mid
    moveBuf := c.moveBuf.filter fun b => !mids.contains b.mid }

/-- Block `b` is known lost: its entry is poisoned, or a poison move of it is in a slot or waits in the request list (R47, R115). -/
def LostBlock (r : Rlt) (b : Nat) : Prop :=
  r.table.poisoned b = true ∨ (∃ m ∈ r.moves, m.req.src = b ∧ m.req.cause = .readLost)
    ∨ ∃ q ∈ r.requests, q.src = b ∧ q.cause = .readLost

/-- The numbers of unit `u`'s moves that stand in a slot of `s` and have their entry in the batch. -/
def endedMoves (s : State) (u : UnitId) (batch : List Change) : List Nat :=
  batch.filterMap fun c =>
    match c with
    | .entry v mid _ _ _ _ _ => if v = u ∧ (s.rlt u).move mid ≠ none then some mid else none
    | _ => none

/-! ### Commits -/

/-- What the holders of a batch's changes are told at the commit's end, `ms` the messages handed on and `t` the state after it
(R20, R110, R111, R114): region operations and SETs; the batched moves, LIVE with their spare or DISCARDED, out of their slots,
the steps held under their locks released (R89) and their slots free (R104); FAILING spares and poison clears. -/
structure BatchReported (batch : List Change) (ok : Bool) (s t : State) (ms : List Msg) : Prop where
  regions : ∀ i l x op, .region i l x op ∈ batch →
    (t.region i).pending = none ∧ (t.region i).closing = false ∧ .changeEnds x ok ∈ ms
  settings : ∀ x, .config x ∈ batch → .changeEnds x ok ∈ ms
  moves : ∀ u mid src spare cause poisoned lane, .entry u mid src spare cause poisoned lane ∈ batch →
    (∀ src' spare' cause' poisoned' lane', .entry u mid src' spare' cause' poisoned' lane' ∈ batch → spare' = spare) →
    ∀ m, (s.rlt u).move mid = some m →
      (t.rlt u).move mid = none ∧ .slotFreed u ∈ ms
        ∧ (∀ k ∈ (s.chan u).locks, k.mid = mid → ∀ h ∈ k.held, .reissue h.1 h.2 ∈ ms)
        ∧ (∀ w ∈ m.req.waiters, .blockEnds w.ctx w.j (if ok then .live spare else .failed .commitFailed) ∈ ms)
        ∧ ∀ tag, m.req.finding = some tag →
            .findingEnded u m.req.src tag (if ok then .moved else .discarded) ∈ ms
  failing : ∀ u k, .dead u k ∈ batch → (s.rlt u).failing.Nodup → k ∉ (t.rlt u).failing
  clears : ∀ u b ws, .poisonClear u b ws ∈ batch →
    ∀ w ∈ ws, .blockEnds w.1 w.2 (if ok then .live 0 else .failed .commitFailed) ∈ ms
  others : SameDevice s t ∧ t.lanes = s.lanes ∧ t.ctxs = s.ctxs ∧ t.patrol = s.patrol

/-! ### Patrol -/

/-- A pass has started in `t` and nothing else has changed (R122): the next number, the tick as start stamp, tallies zero, every
member unit at block 0, READY in service and STOPPED_UNIT out of it, no timer running and no finding outstanding. -/
structure PassStarted (s t : State) : Prop where
  running : t.patrol.running = true
  number : t.patrol.passNumber = s.patrol.passNumber + 1
  stamp : t.patrol.startStamp = s.tick
  tallies : t.patrol.tallies = ⟨0, 0, 0, 0, 0⟩
  kept : t.patrol.cfg = s.patrol.cfg ∧ t.patrol.stopMark = s.patrol.stopMark ∧ t.patrol.stopList = s.patrol.stopList
  members : ∀ u : UnitId, u.val < s.width → t.patrolUnit u
    = ⟨0, if (s.chan u).state = .online ∨ (s.chan u).state = .degraded then .ready else .stoppedUnit, none, none, []⟩
  others : ∀ u : UnitId, s.width ≤ u.val → t.patrolUnit u = ⟨0, .ready, none, none, []⟩

/-- What the start of a pass sets off: the member units in service offer, in ascending order (log entry 5), and the end conditions
are tested (R122, R130). -/
def passOffers (s : State) : List Msg :=
  (four.filter fun u => u.val < s.width && ((s.chan u).state == .online || (s.chan u).state == .degraded)).map
    Msg.patrolReady ++ [.passCheck]

/-- Patrol has dealt with the block at unit `u`'s cursor as one of class `cls`: its tallies are added, the cursor is one on, and
the unit is FINISHED behind the last block, in PACE_WAIT while its pace timer runs, READY to offer else (R123, R125, R127). -/
structure BlockPassed (u : UnitId) (cls : ReadClass) (s t : State) (ms : List Msg) : Prop where
  cursor : (t.patrolUnit u).cursor = (s.patrolUnit u).cursor + 1
  tallies : t.patrol.tallies = { s.patrol.tallies with
    read := s.patrol.tallies.read + 1
    corrected := s.patrol.tallies.corrected + (if cls = .corrected then 1 else 0)
    blankSkipped := s.patrol.tallies.blankSkipped + (if cls = .blank then 1 else 0)
    lostFound := s.patrol.tallies.lostFound + (if cls = .uncorrectable ∨ cls = .poisoned then 1 else 0) }
  finished : 65536 ≤ (s.patrolUnit u).cursor + 1 → (t.patrolUnit u).sub = .finished ∧ ms = [.passCheck]
  waits : (s.patrolUnit u).cursor + 1 < 65536 → (s.patrolUnit u).paceTimer ≠ none →
    (t.patrolUnit u).sub = .paceWait ∧ ms = [.passCheck]
  ready : (s.patrolUnit u).cursor + 1 < 65536 → (s.patrolUnit u).paceTimer = none →
    (t.patrolUnit u).sub = .ready ∧ ms = [.patrolReady u, .passCheck]
  timer : (t.patrolUnit u).paceTimer = (s.patrolUnit u).paceTimer
  others : ∀ v, v ≠ u → t.patrolUnit v = s.patrolUnit v
  device : SameDevice s t ∧ t.out = s.out ∧ t.ctxs = s.ctxs ∧ t.rlts = s.rlts ∧ t.cme = s.cme

/-! ### The check order -/

/-- Every segment has a non-zero address and a length that is a multiple of 512 and at least 512, and the lengths add up to
the record's blocks, for a TABLE_READ to its snapshot (R29, R51). -/
structure SegmentsFit (k : OpKind) (r : Bytes) (gs : List Segment) : Prop where
  each : ∀ g ∈ gs, g.addr ≠ 0 ∧ g.len % 512 = 0 ∧ 512 ≤ g.len
  sum : (gs.map Segment.len).sum
    = if k = .tableRead then (match argSelector r with | 1 => 16384 | 2 => 1536 | _ => 1024) else recCount r * 4096

/-- The operations whose segments are required (R28). -/
def TakesSegments (k : OpKind) : Prop := k = .read ∨ k = .write ∨ k = .tableRead

/-- Step 2 of the check order passes record `r` of operation `k` (R27 to R29, and R13, R46, R48, R51 for the arguments). -/
structure ArgumentsOk (s : State) (k : OpKind) (r : Bytes) : Prop where
  upperFlags : (recFlags r).extractLsb' 5 3 = 0
  seglist : recSeglist r = true → TakesSegments k
  relocateWeak : recRelocateWeak r = true → k = .verify
  blank : recBlank r = true → k = .fill
  region : k.isData = true ∨ k = .regionDelete ∨ k = .regionGuard ∨ k = .regionRelease ∨ k = .regionFix → recRegion r ≤ 31
  blocks : k.isData = true → k ≠ .relocate → 1 ≤ recCount r ∧ recCount r ≤ 4096
  oneBlock : k = .relocate → recCount r = 1
  noBlocks : k.isData = false → recCount r = 0
  copy : k = .copy → argDstRegion r ≤ 31 ∧ argDstOffset r + recCount r ≤ 4294967296
    ∧ (argDstRegion r = recRegion r →
      recOffset r + recCount r ≤ argDstOffset r ∨ argDstOffset r + recCount r ≤ recOffset r)
  startPass : k = .startPass → 0 < s.patrol.cfg.pace
  setPatrol : k = .setPatrol → argAction r = 3 ∧ argPace r ≤ 2000 ∧ 100 ≤ argSettle r ∧ argSettle r ≤ 100000
    ∧ 1 ≤ argWeak r ∧ argWeak r ≤ 7 ∧ argAuto r ≤ 1
  tableRead : k = .tableRead → argSelector r ≤ 3
    ∧ (argSelector r = 1 → ∃ u : UnitId, u.val = argUnit r ∧ (s.chan u).state ≠ .absent)
  define : k = .regionDefine → argIndex r ≤ 31 ∧ 1 ≤ argLength r ∧ (argOwners r).toNat ≤ 15
  noSegments : ¬ TakesSegments k → recSegCount r = 0
  inlined : TakesSegments k → recSeglist r = false →
    1 ≤ recSegCount r ∧ recSegCount r ≤ 2 ∧ SegmentsFit k r (inlineSegments r)
  listed : TakesSegments k → recSeglist r = true →
    1 ≤ recSegCount r ∧ recSegCount r ≤ 64 ∧ recListAddr r ≠ 0 ∧ (recListAddr r).toNat % 16 = 0

/-! ### Lanes -/

/-- Lane `k` with its whole window retired: retire seq that of the last record, everything else as it was (R159, R169). -/
def retiredLane (k : Lane) : Lane :=
  { k with window := [], retireSeq := (k.window.getLast?.map WinRec.seq).getD k.retireSeq }

/-- The notification unit after lane `l` shows status entry `e` and has retired `run`: the entry's write when it differs from the one
last asked for, then one cause on the lane's route for each NOTIFY record, in seq order (R169, R183). -/
def statusThenCauses (l : LaneId) (last : Option LaneStatus) (e : LaneStatus) (run : List WinRec) (notify : RouteSel) (s : State) :
    State :=
  forEach (run.filter WinRec.notify) (fun _ u => routeCause notify u)
    (if last = some e then s else askWrite (.laneStatus l) e.bytes s)

/-- Lane `l` has entered FAULTED with a code and a fault address (R172): the fault record, fetch target, reads and poll timer as
the rule says; the status entry asked for when it differs from the one last asked for (R169); one LANE_FAULT occurrence with
lane, code and current generation in its slot. -/
structure LaneFaulted (l : LaneId) (code : LaneFault) (a : Addr) (s t : State) : Prop where
  state : (t.lane l).state = .faulted
  fault : (t.lane l).fault = code
  faultAddr : (t.lane l).faultAddr = a
  resume : (t.lane l).resume = a
  stopped : (t.lane l).target = none ∧ (t.lane l).reading = none ∧ (t.lane l).poll = none
  expSeq : (t.lane l).expSeq = (s.lane l).expSeq
  cfg : (t.lane l).cfg = (s.lane l).cfg
  asked : (t.lane l).lastStatus = some (t.lane l).status
  statusWrite : s.anchor ≠ 0 → s.dev.state ≠ .halted → (s.lane l).lastStatus ≠ some (t.lane l).status →
    (⟨.laneStatus l, (t.lane l).status.bytes⟩ : WriteReq) ∈ t.ntu.writes
  detail : (t.ntu.slots[EventKind.laneFault.slot]).detail
    = ({ code := some (match code with
          | .none => 0 | .seqBreak => 1 | .badLink => 2 | .fetchError => 3 | .badConfig => 4)
         gen := some s.cme.gen, lane := some l.val } : Occurrence).detail s.tick
  count : (t.ntu.slots[EventKind.laneFault.slot]).count
    = if (s.ntu.slots[EventKind.laneFault.slot]).count < 4294967295 then (s.ntu.slots[EventKind.laneFault.slot]).count + 1
      else (s.ntu.slots[EventKind.laneFault.slot]).count
  eventWrite : s.anchor ≠ 0 → s.dev.state ≠ .halted →
    (⟨.slot EventKind.laneFault.slot, (t.ntu.slots[EventKind.laneFault.slot]).bytes⟩ : WriteReq) ∈ t.ntu.writes

/-! ### Contexts -/

/-- Block `j` has left context `x`'s block table and its staging buffer is free, binding and data gone; the other buffers are as
they were (R62). -/
structure BlockGone (x : CtxId) (j : Nat) (s t : State) : Prop where
  phase : (t.ctx x).phase j = none
  freed : ∀ i : Fin 4, ((s.ctx x).bufs[i]).bound = some j → (t.ctx x).bufs[i] = ⟨none, none⟩
  others : ∀ i : Fin 4, ((s.ctx x).bufs[i]).bound ≠ some j → (t.ctx x).bufs[i] = (s.ctx x).bufs[i]

/-- The blocks of `c` whose phase `gone` names have left `d`'s block table and their staging buffers are free; the other blocks
and buffers are as they were (R62, R67, R70). -/
structure BlocksDropped (gone : BlockPhase → Bool) (c d : Context) : Prop where
  blocks : d.blocks = c.blocks.filter fun b => c.blocks.all fun g => g.j != b.j || !gone g.phase
  freed : ∀ (i : Fin 4) (g : BlockEntry), g ∈ c.blocks → gone g.phase = true → (c.bufs[i]).bound = some g.j →
    d.bufs[i] = ⟨none, none⟩
  others : ∀ i : Fin 4, (∀ g ∈ c.blocks, gone g.phase = true → (c.bufs[i]).bound ≠ some g.j) → d.bufs[i] = c.bufs[i]

/-- Nothing of a record is outstanding: no block but those read and waiting to fold, no commit of a change, no pass (R54). -/
structure NothingLeft (c : Context) : Prop where
  blocks : ∀ b ∈ c.blocks, b.phase = .fold
  commit : c.waitCommit = false
  pass : c.waitPass = false

/-- A context takes no further block into issue (R54): aborted, failed, or the last block taken (the last buffer write of a
TABLE_READ issued). -/
def IssueOver (c : Context) : Prop :=
  c.abortMark = true ∨ c.failure ≠ none ∨ c.otherFail ≠ none
    ∨ if recKind c.record = .tableRead then c.snapSize ≤ 4096 * c.cursor else recCount c.record ≤ c.cursor

/-- The three things a STOPPING device waits for (R197). -/
structure NothingToDrain (s : State) : Prop where
  contexts : ∀ x, (s.ctx x).state = .free
  lanes : ∀ l, (s.lane l).reading = none
  engine : s.cme.state = .idle

/-! ### Commits -/

/-- The slot records after a completion (R141): of the copies that decide a slot, the last one sets its record, a written copy
to the commit's generation and write sequence, one that failed after a performed program to invalid. -/
structure SlotsRecorded (f : InFlight) (s t : State) : Prop where
  kept : ∀ u sl,
    (∀ k ∈ f.earlier ++ f.copies, k.media = u → k.slot = sl → k.state ≠ .written ∧ (k.performed = false ∨ k.state = .writing)) →
    t.cme.slotRecord u sl = s.cme.slotRecord u sl
  decided : ∀ older k newer, f.earlier ++ f.copies = older ++ k :: newer → k.media.val < 2 →
    (∀ c ∈ newer, c.media = k.media → c.slot = k.slot → c.state ≠ .written ∧ (c.performed = false ∨ c.state = .writing)) →
    (k.state = .written → t.cme.slotRecord k.media k.slot = some (f.image.gen, f.image.wseq))
      ∧ (∀ offline block, k.state = .failed offline block → k.performed = true → t.cme.slotRecord k.media k.slot = none)

/-- The events of a successful commit, in the order the model posts them, by kind (log entry 54): MIRROR_COPY_FAILED of each
failed copy in unit order (R147); REGION_CHANGED of each region change by rising index (R20); RELOCATED of each entry, units and
from-blocks rising (R110, R117); SPARE_LOW of each unit whose free count fell to the threshold or below (R116);
UNIT_DEGRADED of each ONLINE member left without a free spare (R92). -/
structure CommitEvents (f : InFlight) (s t : State) (events : List (EventKind × Occurrence))
    (changes : List (Nat × LaneId × RegionOp)) (entries : List (UnitId × Nat × Cause × Option LaneId)) : Prop where
  allChanges : List.Perm changes (f.batch.filterMap fun c =>
    match c with
    | .region i l _ op => if i < 32 then some (i, l, op) else none
    | _ => none)
  changesRise : changes.Pairwise fun a b => a.1 ≤ b.1
  allEntries : List.Perm entries (f.batch.filterMap fun c =>
    match c with
    | .entry u _ src _ cause _ lane => some (u, src, cause, lane)
    | _ => none)
  entriesRise : entries.Pairwise fun a b => a.1 < b.1 ∨ (a.1 = b.1 ∧ a.2.1 ≤ b.2.1)
  byKind : events
    = (f.copies.filterMap fun k =>
        match k.state with
        | .failed offline block => some (EventKind.mirrorCopyFailed,
            { code := some (if offline then 2 else 1), gen := some f.image.gen, block := block, media := some k.media.val })
        | _ => none)
      ++ changes.map (fun c => (EventKind.regionChanged,
          { code := some (match c.2.2 with
              | .define _ _ _ _ => 0x10 | .delete => 0x11 | .guard => 0x12 | .release => 0x13 | .fix => 0x14)
            gen := some f.image.gen
            logical := match c.2.2 with
              | .define base _ _ _ => some base
              | _ => (s.region c.1).live.map RegionDef.base
            lane := some c.2.1.val, region := some c.1 }))
      ++ entries.map (fun e => (EventKind.relocated, t.blockOccurrence e.1 e.2.1
          (match e.2.2.1 with | .patrolWeak => 1 | .readWeak => 2 | .readLost => 3 | .programFail => 4 | .directed => 5)
          f.image.gen e.2.2.2))
      ++ (four.filterMap fun u =>
          if (t.rlt u).table.freeCount < (s.rlt u).table.freeCount ∧ 0 < s.settings.spareLow
              ∧ (t.rlt u).table.freeCount ≤ s.settings.spareLow then
            some (EventKind.spareLow,
              { code := some (t.rlt u).table.freeCount, gen := some f.image.gen, media := some u.val })
          else none)
      ++ (four.filterMap fun u =>
          if (s.chan u).state = .online ∧ u.val < s.width ∧ (t.rlt u).table.freeCount = 0 then
            some (EventKind.unitDegraded, { gen := some f.image.gen, media := some u.val })
          else none)
  posted : t.ntu = (forEach events (fun e => postEvent e.1 e.2) s).ntu

/-! ### Table images -/

/-- The header of a copy passes the tests of R140 that need block 0 alone, for the unit and slot it was read from. -/
structure HeaderValid (u : UnitId) (sl : Slot) (b : Bytes) : Prop where
  format : field b 0 4 = 1
  width : (byteAt b 16).toNat = 1 ∨ (byteAt b 16).toNat = 2 ∨ (byteAt b 16).toNat = 4
  blocks : 1 ≤ (byteAt b 17).toNat ∧ (byteAt b 17).toNat ≤ 15
  pointer : (byteAt b 20).toNat ≤ 16
  settings : (byteAt b 21).toNat ≤ 1 ∧ 1 ≤ (byteAt b 22).toNat ∧ (byteAt b 22).toNat ≤ 7 ∧ field b 24 2 ≤ 2000
    ∧ 100 ≤ field b 28 4 ∧ field b 28 4 ≤ 100000
  copyUnit : (byteAt b 18).toNat = u.val
  copySlot : (byteAt b 19).toNat = match sl with | .a => 1 | .b => 2
  mirror : u = 0 ∨ (u = 1 ∧ ((byteAt b 16).toNat = 2 ∨ (byteAt b 16).toNat = 4))
  counts : ∀ k, k < 4 → field b (36 + 2 * k) 2 ≤ 1024 ∧ ((byteAt b 16).toNat ≤ k → field b (36 + 2 * k) 2 = 0)
  content : (byteAt b 17).toNat
    = (3072 + 14 * (field b 36 2 + field b 38 2 + field b 40 2 + field b 42 2) + 4095) / 4096

/-- A copy read whole whose header passed is valid (R140): check word, generation, and the laws of the tables. Which laws are
tested beyond those R140 names, and which fields are not, is log entries 22 and 68. -/
structure CopyValid (b : Bytes) : Prop where
  check : (crc32c (splice b 4 (List.replicate 4 0))).toNat = field b 4 4
  gen : 1 ≤ field b 8 8
  windows : ∀ (i : Fin 32) (d : RegionDef), (imageOfBytes b).tables.regions[i] = some d →
    1 ≤ d.length ∧ d.base + d.length ≤ (byteAt b 16).toNat * 65536
  apart : ∀ (i k : Fin 32) (d e : RegionDef), k < i → (imageOfBytes b).tables.regions[i] = some d →
    (imageOfBytes b).tables.regions[k] = some e → d.base + d.length ≤ e.base ∨ e.base + e.length ≤ d.base
  states : ∀ (i : Fin 32) (d : RegionDef) (raw : Bytes), (imageOfBytes b).tables.regions[i] = some d →
    raw = (b.drop (512 + 32 * i.val)).take 32 → (byteAt raw 2).toNat ≤ 2 ∧ (byteAt raw 2 ≠ 2 → field raw 16 8 = 0)
  entries : ∀ (u : Fin 4) (t : UnitTable), (imageOfBytes b).tables.units[u] = t →
    (t.entries.map RelEntry.src).Pairwise (· < ·) ∧ (t.entries.map RelEntry.spare).Nodup
      ∧ ∀ e ∈ t.entries, e.spare ∉ t.dead ∧ e.spare < 1024 ∧ 1 ≤ e.gen ∧ e.gen ≤ field b 8 8
  causes : ∀ k, k < field b 36 2 + field b 38 2 + field b 40 2 + field b 42 2 →
    1 ≤ (byteAt b (3072 + 14 * k + 4)).toNat ∧ (byteAt b (3072 + 14 * k + 4)).toNat ≤ 5
  log : ∀ (i : Fin 16) (e : LogEntry), (imageOfBytes b).tables.log.slots[i] = some e →
    1 ≤ e.endGen ∧ e.endGen ≤ field b 8 8
      ∧ 1 ≤ (byteAt b (1536 + 64 * i.val + 4)).toNat ∧ (byteAt b (1536 + 64 * i.val + 4)).toNat ≤ 3

/-! ### Grants -/

/-- The row of the command table that is the grant of a record of operation `k`. -/
def grantCommand : OpKind → Instr
  | .read => .read
  | .write => .write
  | .fill => .fill
  | .copy => .copy
  | .verify => .verify
  | .digest => .digest
  | .relocate => .relocate
  | .barrier => .barrier
  | .tableRead => .tableRead
  | .startPass => .startPass
  | .stopPass => .stopPass
  | .setPatrol => .setPatrol
  | .regionDefine => .regionDefine
  | .regionDelete => .regionDelete
  | .regionGuard => .regionGuard
  | .regionRelease => .regionRelease
  | .regionFix => .regionFix
  | .lockdown => .lockdown
  | .badOp => .badOp

/-- The DAR grants lane `l`'s staged record `r`, of operation `k` and at address `a`, to context `x` (R57). -/
structure Grants (s : State) (l : LaneId) (x : CtxId) (r : Bytes) (k : OpKind) (a : Addr) : Prop where
  grant : grantOf s = some (l, x, r)
  kind : recKind r = k
  addr : (s.lane l).stagedAddr = some a

/-- The record passes every step of the check order and names no external segment list (R33). -/
structure PassesChecks (s : State) (l : LaneId) (r : Bytes) (k : OpKind) : Prop where
  arguments : firstFail (argumentChecks s k r) = none
  noList : recSeglist r = false
  access : firstFail (accessChecks s k r l (s.lane l).cfg.tableRight) = none

/-- What the grant itself leaves at the arbiter, the lane and the links (R57, R59, R164): one credit used, the pointer behind
the lane, the record dispatched, its link being read, its state byte RUNNING. -/
structure GrantTaken (s t : State) (l : LaneId) (x : CtxId) (a : Addr) : Prop where
  dar : t.dar = s.dar.granted (grantCredits s) l
  state : (t.lane l).state = .seeking
  staged : (t.lane l).staged = none
  reading : (t.lane l).reading = some (.link a)
  resume : (t.lane l).resume = a
  window : (t.lane l).window = dispatchInWindow x (s.lane l).window
  others : ∀ k : LaneId, k ≠ l → t.lane k = s.lane k

/-- The two accesses a grant puts on the host link: the state byte RUNNING and the read of the link (R59, R164; that they go out
in this order is log entry 55). -/
def grantOutputs (a : Addr) : List Output := [.hostWrite (a + 12) [running], .hostRead a 8]

/-- Context `x` has decided its record: FINISHING with final state `fs`, status `st` and result word `w` (R35, R66). -/
structure Decided (t : State) (x : CtxId) (fs : FinalState) (st : Status) (w : BitVec 64) : Prop where
  state : (t.ctx x).state = .finishing
  final : (t.ctx x).final.map Prod.fst = some fs
  status : (t.ctx x).final.map (fun f => f.2.status) = some st
  result : (t.ctx x).final.map (fun f => f.2.result) = some w

end Sys2Proof.Machine
end

