-- ==== Sys2Proof/Certificates/Slice0/Obligations.lean ====
section
/-! DEFINITION. The statements for the provers: what each command does, what it leaves unchanged, and the invariants every
step keeps. -/

open Sys2Proof Sys2Proof.Machine

/-! ### The queue -/

/-- A step runs the command at the front of the queue on the state with the queue's rest. That the device holds its commands
in a queue and takes the front one is the model's choice (log entry 2); the manual gives one event at a time (00_scope,
Time). -/
def Obligations.StepRunsFrontCommand : Prop :=
  ∀ (s : State) (c : Instr) (rest : List Instr), s.pending = c :: rest → step s = exec c { s with pending := rest }

/-- On an empty queue a microsecond passes and nothing else happens. The tick rises as R190 says. That the idle step is what
makes it rise is the model's choice (log entry 1). -/
def Obligations.IdleStepLetsAMicrosecondPass : Prop :=
  ∀ s : State, s.pending = [] → step s = .next { s with tick := s.tick + 1 }

/-- Every command ends in a next state and leaves the queue as it is. Every one but COLD_RESET leaves the tick as it is, and
the message enable of the host bus and the unit present inputs are no command's to change (R188, R190; queue, enable and
inputs are held as log entries 2, 6 and 28 say). -/
def Obligations.EveryCommandCompletes : Prop :=
  ∀ (c : Instr) (s : State), ∃ t, exec c s = .next t ∧ t.pending = s.pending ∧ t.messagesEnabled = s.messagesEnabled
    ∧ t.unitPresent = s.unitPresent ∧ ((∀ source, c ≠ .coldReset source) → t.tick = s.tick)

/-! ### Reset values and resets -/

/-- What the device is right after reset: PROBING, fault code none, no bit set, n, tick, anchor and held high half 0, lockdown
clear, every lane OFF, every context FREE, every region undefined, patrol idle, commit engine LOADING with generation 0, event
slots zero, write list empty, routes IDLE, and IDENTIFY out on every channel (R192, R201). That the regions are undefined and
patrol has its fresh values already while PROBING, before the image choice gives them, is log entry 24; that the reset input
is not held, that no command waits and that the LIF counts its accesses from 0 is the model's choice (log entries 2, 7 and
75). -/
def Obligations.ResetStateIsTheColdState : Prop :=
  State.reset.dev = ⟨.probing, .none, false, false, false⟩ ∧ State.reset.lif = ⟨0, 0⟩ ∧ State.reset.width = 0 ∧ State.reset.tick = 0
    ∧ State.reset.anchor = 0 ∧ State.reset.anchorHigh = 0 ∧ State.reset.lockdown = false
    ∧ State.reset.settings = ⟨0, ⟨0, 1⟩, ⟨0, 1⟩, Vector.replicate 10 .none⟩
    ∧ (∀ l, (State.reset.lane l).state = .off ∧ (State.reset.lane l).window = [] ∧ (State.reset.lane l).staged = none)
    ∧ (∀ x, (State.reset.ctx x).state = .free)
    ∧ (∀ i, (State.reset.region i).live = none)
    ∧ State.reset.dar = ⟨Vector.replicate 4 1, Vector.replicate 4 1, Vector.replicate 4 1, 0⟩
    ∧ State.reset.patrol.running = false
    ∧ State.reset.cme.state = .loading ∧ State.reset.cme.gen = 0
    ∧ (∀ k : Fin 10, State.reset.ntu.slots[k] = ⟨0, EventDetail.zero⟩) ∧ State.reset.ntu.writes = []
    ∧ (∀ r, (State.reset.route r).state = .idle)
    ∧ (∀ u, (State.reset.chan u).link = .identify false 1 2000)
    ∧ State.reset.pending = []

/-- The reset state has the invariants of the statements at the end. -/
def Obligations.ResetHasTheInvariants : Prop :=
  AnchorAligned State.reset ∧ ModesLegal State.reset ∧ MoveLocksFit State.reset ∧ CountersInRange State.reset
    ∧ CommitOrdered State.reset

/-- COLD_RESET gives every block its cold value from every state; the probe's IDENTIFY goes out on the four channels unless
the reset input is held (R192, R201, section 10.8). That regions, relocation tables, patrol settings and log have their empty
values at once, which R6, R98, R120 and R131 give at the image choice, is log entry 24. The level of the reset input after
each source, that the queue, the host bus's message enable, the unit present inputs, the links' record and the counts of
sendings and settings reads stay, and that the record then ends with the four sendings, lowest channel first, is the model's
choice (log entries 2, 4, 5, 6, 7, 28 and 75). What was issued to host memory before is cut off: a new epoch begins (R201; log
entry 75). RESET_INPUT_RELEASE starts the probe: every channel sends IDENTIFY with a fresh answer timer. With the input not
held it does nothing (R192, R201, section 10.8; log entry 7). -/
def Obligations.ColdResetAndReleaseStartTheProbe : Prop :=
  (∀ (source : ResetSource) (s : State), ∃ t, exec (.coldReset source) s = .next t
      ∧ t.dev = ⟨.probing, .none, false, false, inputAfter source s.dev.resetAsserted⟩
      ∧ t.lif = ⟨s.lif.settingsReads, s.lif.epoch + 1⟩
      ∧ t.tick = 0 ∧ t.anchor = 0 ∧ t.anchorHigh = 0 ∧ t.width = 0 ∧ t.lockdown = false ∧ t.settings = Settings.cold
      ∧ t.lanes = Vector.replicate 4 Lane.cold ∧ t.dar = Dar.cold ∧ t.ctxs = Vector.replicate 8 Context.empty
      ∧ t.regions = Vector.replicate 32 RegionEntry.undefined ∧ t.rlts = Vector.replicate 4 Rlt.cold
      ∧ t.patrol = Patrol.cold ∧ t.log = PatrolLog.empty ∧ t.cme = Cme.cold ∧ t.ntu = Ntu.cold
      ∧ t.pending = s.pending ∧ t.messagesEnabled = s.messagesEnabled ∧ t.unitPresent = s.unitPresent
      ∧ t.out = s.out ++ (if inputAfter source s.dev.resetAsserted then []
          else [0, 1, 2, 3].map fun u => .media u ((s.chan u).sent + 1) .identify)
      ∧ ∀ u, (t.chan u).sent = (s.chan u).sent + (if inputAfter source s.dev.resetAsserted then 0 else 1)
        ∧ (t.chan u).member = false ∧ (t.chan u).lastDeparture = none ∧ (t.chan u).identified = none
        ∧ (t.chan u).state = .absent ∧ (t.chan u).queue = [] ∧ (t.chan u).waiting = [] ∧ (t.chan u).locks = []
        ∧ (t.chan u).marks = [] ∧ (t.chan u).moveBuf = none
        ∧ (t.chan u).link
          = if inputAfter source s.dev.resetAsserted then .idle else .identify false ((s.chan u).sent + 1) 2000)
    ∧ (∀ s : State,
      (s.dev.resetAsserted = false → exec .resetInputRelease s = .next s)
      ∧ (s.dev.resetAsserted = true → ∃ t, exec .resetInputRelease s = .next t
        ∧ t.dev = { s.dev with resetAsserted := false } ∧ t.lif = s.lif
        ∧ (∀ u, t.chan u = { s.chan u with
            link := .identify false ((s.chan u).sent + 1) (s.tick + 2000), sent := (s.chan u).sent + 1 })
        ∧ t.out = s.out ++ [0, 1, 2, 3].map (fun u => .media u ((s.chan u).sent + 1) .identify)
        ∧ t.pending = s.pending ∧ t.tick = s.tick ∧ t.width = s.width
        ∧ t.lanes = s.lanes ∧ t.ctxs = s.ctxs ∧ t.regions = s.regions ∧ t.rlts = s.rlts ∧ t.cme = s.cme ∧ t.ntu = s.ntu))

/-- RESET is ignored in PROBING, in a HALTED entered with PROBE_LAYOUT and while a warm reset is in progress (R200). Taken: (1)
At the event the channels drop their FOREGROUND entries not yet started, each context told, and their marks (R96); the
relocation tables abandon every request and every move not in a batch, each waiting block ending without an entry, and the
channel takes the move's end: its entries, its buffer and its lock go, what is held under it is released, and the locks of
batched moves stay (R119, R89, R96); an open pass ends RESET by the steps of R130 (R137). The effects are worked off, then
lanes, contexts and device settle. (2) After it the credits are reloaded and the pointer is at lane 0 with weights and caps
kept (R58), every lane is OFF or DRAINING with its configuration kept (R173), and tick, n, lockdown flag and settings are
kept. (3) The device is STOPPED with fault none, anchor 0 and routes IDLE exactly when the work of R200 is over: contexts
FREE, lanes OFF, no move pending, engine IDLE, and outside HALTED the write list empty and no write in flight. Else it is
STOPPING (HALTED from HALTED) with the reset in progress. In both no RUN is pending. That a device whose reset work is not
over stays STOPPING even when R197's three conditions hold is log entry 16. -/
def Obligations.ResetIsIgnoredOrTaken : Prop :=
  (∀ s : State,
      s.dev.state = .probing ∨ (s.dev.state = .halted ∧ s.dev.fault = .probeLayout) ∨ s.dev.resetInProgress = true →
      exec .reset s = .next s)
    ∧ (∀ s : State, s.dev.resetInProgress = false → s.dev.state ≠ .probing →
      ¬ (s.dev.state = .halted ∧ s.dev.fault = .probeLayout) →
      ∃ (e : Eff) (t : State), exec .reset s = .next t
        ∧ t = finishEvent (forEach eight ctxSettle (workOff (e.1, e.2 ++ [.closingCheck])))
        ∧ (∀ u ended, ended = ((s.rlt u).moves.filter fun m => m.state != .batched).map Move.mid →
          (e.1.chan u).queue = (withoutMoves ended (s.chan u)).queue.filter (fun q => !q.isForeground)
          ∧ (e.1.chan u).locks.map (fun k => (k.block, k.mid))
            = (withoutMoves ended (s.chan u)).locks.map (fun k => (k.block, k.mid))
          ∧ (e.1.chan u).moveBuf = (withoutMoves ended (s.chan u)).moveBuf
          ∧ (∀ k ∈ (s.chan u).locks, k.mid ∈ ended → ∀ h ∈ k.held,
              (s.ctx h.1).state ≠ .issuing → (s.ctx h.1).state ≠ .drainingSteps → .reissue h.1 h.2 ∈ e.2)
          ∧ (e.1.chan u).waiting = []
          ∧ (e.1.chan u).marks = [] ∧ (e.1.chan u).link = (s.chan u).link
          ∧ (e.1.chan u).lastDeparture = (s.chan u).lastDeparture
          ∧ (∀ x j lane region weak cmd b,
              (⟨.foreground x j lane region weak, cmd, b⟩ : QEntry) ∈ (s.chan u).queue ++ (s.chan u).waiting →
              .stepEnds x j .withdrawn false ∈ e.2)
          ∧ (e.1.rlt u).moves = (s.rlt u).moves.filter (fun m => m.state == .batched) ∧ (e.1.rlt u).requests = []
          ∧ (∀ m ∈ (s.rlt u).moves, m.state ≠ .batched → ∀ w ∈ m.req.waiters, .blockEnds w.ctx w.j .gone ∈ e.2)
          ∧ (∀ q ∈ (s.rlt u).requests, ∀ w ∈ q.waiters, .blockEnds w.ctx w.j .gone ∈ e.2))
        ∧ (s.patrol.running = true → ∃ before after,
            e.2 = before ++ (.change (.log (passEntry s .reset)) :: .passPosted .reset
              :: s.patrol.stopList.map (fun x => .passEnded x s.patrol.passNumber) ++ [.passClosed false]) ++ after)
        ∧ t.dar = { s.dar with credit := s.dar.weight, pointer := 0 }
        ∧ (∀ l, ((t.lane l).state = .off ∨ (t.lane l).state = .draining) ∧ (t.lane l).cfg = (s.lane l).cfg)
        ∧ t.tick = s.tick ∧ t.width = s.width ∧ t.lockdown = s.lockdown ∧ t.settings = s.settings ∧ t.lif = s.lif
        ∧ t.dev.runPending = false
        ∧ (ResetWorkOver (s.dev.state = .halted) t →
            t.dev.resetInProgress = false ∧ t.dev.state = .stopped ∧ t.dev.fault = .none ∧ t.anchor = 0 ∧ t.anchorHigh = 0
              ∧ ∀ r, (t.route r).state = .idle)
        ∧ (¬ ResetWorkOver (s.dev.state = .halted) t →
            t.dev.resetInProgress = true ∧ t.dev.state = (if s.dev.state = .halted then .halted else .stopping)
              ∧ t.anchor = s.anchor ∧ t.anchorHigh = s.anchorHigh))

/-! ### The register window -/

/-- IGNORED_WRITE changes nothing, whatever offset, width and value it carries; CONTROL_REFUSED sets the fault code
CONTROL_REFUSED, unless the device is HALTED, and changes nothing else (R188, R189). -/
def Obligations.IgnoredAndRefusedControlWrites : Prop :=
  (∀ (offset width : Nat) (value : Word32) (s : State), exec (.ignoredWrite offset width value) s = .next s)
    ∧ (∀ (bits : BitVec 3) (s : State),
      exec (.controlRefused bits) s
        = .next (if s.dev.state = .halted then s else { s with dev := { s.dev with fault := .controlRefused } }))

/-- The RUN write, by device state: the settings read it sends is the next in number (R196, R189; log entry 75). That the
fault code is none from the RUN write itself on, the RUN counting as taken at its write and at the read's end, is log entry
26. -/
def Obligations.RunFollowsTheDeviceState : Prop :=
  ∀ s : State,
    (s.dev.state = .stopped → s.dev.runPending = true → exec .run s = .next s)
    ∧ (s.dev.state = .stopped → s.dev.runPending = false → s.anchor = 0 →
      exec .run s = .next { s with dev := { s.dev with fault := .noAnchor } })
    ∧ (s.dev.state = .stopped → s.dev.runPending = false → s.anchor ≠ 0 →
      exec .run s = .next
        { s with
          dev := { s.dev with fault := .none, runPending := true }
          lif := { s.lif with settingsReads := s.lif.settingsReads + 1 }
          out := s.out ++ [.hostRead s.anchor 64] })
    ∧ (s.dev.state = .running → exec .run s = .next s)
    ∧ (s.dev.state = .stopping ∨ s.dev.state = .probing →
      exec .run s = .next { s with dev := { s.dev with fault := .controlRefused } })
    ∧ (s.dev.state = .halted → exec .run s = .next s)

/-- RUN taken at the end of the settings read that the pending RUN has sent, the last one in number: the device is RUNNING, no
RUN pending, the settings those read (those before on a bus error), SEEKING lanes fetch, parked lanes re-read, every other
lane, a SEEKING one with a read in flight too, stays as it is (R156, R175, R196); that the lanes' reads go out in ascending
order is log entry 60. Each HOLDING route whose count is at or above the new threshold sends, its message last in the write
list, any other keeps its state and timer (R187); where both send, A's message stands before B's (log entry 53). Then every
READY unit of an open pass offers (R135); that the routes come first is log entry 52, and that the units offer in ascending
order log entry 5. The fault code none at the read's end is log entry 26; that an end without a RUN pending does nothing is
log entry 2. The end of a withdrawn read, one of a lower number, does nothing whether or not a new RUN is pending: its data is
discarded (R196; told apart by number: log entry 75). -/
def Obligations.RunTakenEntersRunning : Prop :=
  ∀ (read : HostResult Bytes) (s : State),
    (∀ number, s.dev.runPending = false ∨ number ≠ s.lif.settingsReads → exec (.runTaken read number) s = .next s)
    ∧ (s.dev.runPending = true → s.dev.state = .stopped →
      ∀ (set : Settings) (cfg : RouteId → RouteCfg) (sends : RouteId → Bool) (before : List WriteReq),
      set = settingsAfter s.settings read → cfg .a = set.routeA → cfg .b = set.routeB →
      (∀ r, sends r = true ↔ (s.route r).state = .holding ∧ (cfg r).threshold ≤ (s.route r).count) →
      before = s.ntu.writes.filter (fun w =>
        !(sends .a && w.target == .message .a) && !(sends .b && w.target == .message .b)) →
      ∃ t ready, exec (.runTaken read s.lif.settingsReads) s
          = .next (workOff (t, ready.map Msg.patrolReady))
        ∧ (s.patrol.running = false → ready = [])
        ∧ (s.patrol.running = true → ready = four.filter fun u => u.val < s.width && (s.patrolUnit u).sub == .ready)
        ∧ t.dev = { s.dev with state := .running, runPending := false, fault := .none }
        ∧ t.settings = set
        ∧ (∀ l, (s.lane l).state = .off ∨ (s.lane l).state = .staged ∨ (s.lane l).state = .faulted
            ∨ (s.lane l).state = .draining → t.lane l = s.lane l)
        ∧ (∀ l a, (s.lane l).state = .seeking → (s.lane l).target = some a → (s.lane l).reading = none →
            t.lane l = { s.lane l with reading := some (.fetch a) })
        ∧ (∀ l, (s.lane l).state = .seeking → (s.lane l).target = none ∨ (s.lane l).reading ≠ none → t.lane l = s.lane l)
        ∧ t.out = s.out ++ four.flatMap (fun l => match (s.lane l).state, (s.lane l).target, (s.lane l).reading, (s.lane l).newest with
            | .seeking, some a, none, _ | .parkedUnposted, some a, none, _ => [.hostRead a 128]
            | .parkedEnd, _, _, some r => [.hostRead r.addr 8]
            | _, _, _, _ => [])
        ∧ (∀ l a, (s.lane l).state = .parkedUnposted → (s.lane l).target = some a → (s.lane l).reading = none →
            t.lane l = { s.lane l with state := .seeking, poll := none, reading := some (.fetch a) })
        ∧ (∀ l r, (s.lane l).state = .parkedEnd → (s.lane l).newest = some r →
            t.lane l = { s.lane l with state := .seeking, poll := none, reading := some (.link r.addr) })
        ∧ (∀ r, t.route r
            = if sends r then { s.route r with state := .signalled, count := 0, timer := none } else s.route r)
        ∧ (s.anchor ≠ 0 → s.messagesEnabled = true → t.ntu.writes = before
            ++ (if sends .a then [⟨.message .a, []⟩] else []) ++ (if sends .b then [⟨.message .b, []⟩] else []))
        ∧ (s.anchor = 0 ∨ s.messagesEnabled = false → t.ntu.writes = s.ntu.writes)
        ∧ t.ntu.slots = s.ntu.slots
        ∧ t.pending = s.pending ∧ t.tick = s.tick ∧ t.width = s.width ∧ t.anchor = s.anchor ∧ t.anchorHigh = s.anchorHigh
        ∧ t.lockdown = s.lockdown ∧ t.dar = s.dar ∧ t.lif = s.lif ∧ SameMedia s t ∧ SameRecords s t
        ∧ (workOff (t, ready.map Msg.patrolReady)).lanes = t.lanes
        ∧ (workOff (t, ready.map Msg.patrolReady)).dev = t.dev)

/-- The STOP write, by device state; a RUNNING device with nothing left to drain is STOPPED at once (R197, R189). The
premise that no warm reset is in progress is one of `ModesLegal`.
STOPPING ends at the first event at which nothing is left to drain: every context FREE, no lane with a host read in flight, the
commit engine IDLE. Each command but a reset, from a STOPPING device that is not there yet, leaves it STOPPING and not there,
or STOPPED and there, or HALTED. While a warm reset is in progress STOPPING does not end so (log entry 16). -/
def Obligations.StopFollowsTheDeviceState : Prop :=
  (∀ s : State, ModesLegal s →
    (s.dev.state = .running → ∃ t, exec .stop s = .next t
      ∧ (NothingToDrain s → t.dev = { s.dev with state := .stopped, fault := .none })
      ∧ (¬ NothingToDrain s → t.dev = { s.dev with state := .stopping, fault := .none })
      ∧ SameMedia s t ∧ SameRecords s t ∧ t.anchor = s.anchor ∧ t.anchorHigh = s.anchorHigh ∧ t.tick = s.tick
      ∧ t.width = s.width ∧ t.settings = s.settings ∧ t.lockdown = s.lockdown ∧ t.out = s.out ∧ t.lif = s.lif
      ∧ (∀ l, (s.lane l).state ≠ .draining → t.lane l = s.lane l))
    ∧ (s.dev.state = .stopped → s.dev.runPending = true →
      exec .stop s = .next { s with dev := { s.dev with fault := .none, runPending := false } })
    ∧ (s.dev.state = .stopped → s.dev.runPending = false → exec .stop s = .next s)
    ∧ (s.dev.state = .stopping → exec .stop s = .next s)
    ∧ (s.dev.state = .probing → exec .stop s = .next { s with dev := { s.dev with fault := .controlRefused } })
    ∧ (s.dev.state = .halted → exec .stop s = .next s))
  ∧ (∀ s : State, s.dev.state = .stopping →
    (s.dev.resetInProgress = false → NothingToDrain s → (finishEvent s).dev = { s.dev with state := .stopped })
    ∧ (s.dev.resetInProgress = false → ¬ NothingToDrain s → (finishEvent s).dev = s.dev)
    ∧ (s.dev.resetInProgress = true → ¬ ResetWorkOver False (finishEvent s) → (finishEvent s).dev = s.dev))
  ∧ ∀ (c : Instr) (s t : State), ModesLegal s → s.dev.state = .stopping → s.dev.resetInProgress = false → ¬ NothingToDrain s →
    (∀ source, c ≠ .coldReset source) → c ≠ .reset → exec c s = .next t →
    (t.dev.state = .stopping ∧ ¬ NothingToDrain t) ∨ (t.dev.state = .stopped ∧ NothingToDrain t) ∨ t.dev.state = .halted

/-- ANCHOR_LO that is taken with a new anchor other than 0: the anchor is in force and the device-area initialization of R195
is made: the write list holds the identity entry, ten zero slots and the four lane status entries with the lanes' values and
refused-signal count 0, in this order, the slot copy is zero and the routes are IDLE. The entries have the layouts of section 8.1.
Contexts, regions, media blocks and settings stay (R194, R195). That the held refused-signal counts fall to 0 with the entries
written is log entry 17. -/
def Obligations.AnchorSetInitializesTheDeviceArea : Prop :=
  (∀ (value : Word32) (s : State), anchorWritable s = true → value.extractLsb' 0 12 = 0 → s.anchorHigh ++ value ≠ 0#64 →
    ∃ t, exec (.anchorLo value) s = .next t
      ∧ t.anchor = s.anchorHigh ++ value ∧ t.anchorHigh = s.anchorHigh ∧ t.dev = { s.dev with fault := .none }
      ∧ t.ntu.writes = [⟨.identity, leBytes 4 0x00AC0740 ++ leBytes 4 1 ++ leBytes 1 s.width ++ leBytes 1 4 ++ leBytes 1 4
            ++ List.replicate 5 0 ++ leBytes 8 s.tick.toNat ++ List.replicate 40 0⟩]
          ++ (List.finRange 10).map (fun k => ⟨.slot k, List.replicate 64 0⟩)
          ++ four.map (fun l => ⟨.laneStatus l, ({ (s.lane l).status with refused := 0 } : LaneStatus).bytes⟩)
      ∧ (∀ k : Fin 10, t.ntu.slots[k] = ⟨0, EventDetail.zero⟩)
      ∧ (∀ r, t.route r = ⟨.idle, 0, false, none⟩)
      ∧ (∀ l, t.lane l = { s.lane l with
          refused := 0, lastStatus := some { (s.lane l).status with refused := 0 } })
      ∧ SameMedia s t ∧ SameRecords s t ∧ t.settings = s.settings ∧ t.tick = s.tick ∧ t.width = s.width ∧ t.out = s.out)
  ∧ (∀ e : LaneStatus, e.bytes = leBytes 4 e.retireSeq.toNat
      ++ leBytes 1 (match e.state with
        | .off => 0 | .seeking => 1 | .staged => 2 | .parkedEnd => 3 | .parkedUnposted => 4 | .faulted => 5 | .draining => 6)
      ++ leBytes 1 (match e.fault with | .none => 0 | .seqBreak => 1 | .badLink => 2 | .fetchError => 3 | .badConfig => 4)
      ++ leBytes 2 e.refused ++ leBytes 8 e.resume.toNat ++ leBytes 8 e.faultAddr.toNat ++ leBytes 4 e.expSeq.toNat
      ++ leBytes 1 e.dispatched ++ leBytes 1 (if e.staged then 1 else 0) ++ List.replicate 34 0)
  ∧ ∀ k : Lane, k.status = ⟨k.retireSeq, k.state, k.fault, k.refused, k.resume, k.faultAddr, k.expSeq,
      (k.window.filter WinRec.granted).length, k.staged.isSome⟩

/-- ANCHOR_HI: in STOPPED, with every lane OFF, no RUN pending and no warm reset in progress, the value is the held high
half; else it is refused (R194, R189).
ANCHOR_LO that makes the anchor 0 clears it and discards the write list; one that is refused leaves all but the fault
code (R194). -/
def Obligations.AnchorWritesAreTakenOrRefused : Prop :=
  (∀ (value : Word32) (s : State),
      (anchorWritable s = true →
        exec (.anchorHi value) s = .next { s with dev := { s.dev with fault := .none }, anchorHigh := value })
      ∧ (anchorWritable s = false →
        exec (.anchorHi value) s
          = .next (if s.dev.state = .halted then s else { s with dev := { s.dev with fault := .anchorRefused } })))
    ∧ (∀ (value : Word32) (s : State),
      (anchorWritable s = true → value.extractLsb' 0 12 = 0 → s.anchorHigh ++ value = 0#64 →
        exec (.anchorLo value) s
          = .next { s with dev := { s.dev with fault := .none }, anchor := 0, ntu := { s.ntu with writes := [] } })
      ∧ (anchorWritable s = false ∨ value.extractLsb' 0 12 ≠ 0 →
        exec (.anchorLo value) s
          = .next (if s.dev.state = .halted then s else { s with dev := { s.dev with fault := .anchorRefused } })))

/-- What the window reads: IDENT the part code and revision; STATE the device state, reset in progress, RUN pending, anchor
set, fault code, lockdown and stripe width in their bits, every other bit 0 for a width of at most 7; ATTN exactly the
SIGNALLED routes; ANCHOR_LO and ANCHOR_HI the halves; TICK the low half of the tick; CONTROL, LANE_SIGNAL and the offsets 0x20
to 0x3F 0. A read of one, two or four bytes returns the addressed bytes of the register, least significant first (section
10.1, R186, R188, R189, R190, R194). -/
def Obligations.RegistersReadTheState : Prop :=
  ∀ s : State,
    s.register 0x00 = 0xAC074001#32
    ∧ (s.register 0x04).extractLsb' 0 3
      = (match s.dev.state with | .probing => 0#3 | .stopped => 1#3 | .running => 2#3 | .stopping => 3#3 | .halted => 4#3)
    ∧ ((s.register 0x04).getLsbD 3 = true ↔ s.dev.resetInProgress = true)
    ∧ ((s.register 0x04).getLsbD 4 = true ↔ s.dev.runPending = true)
    ∧ ((s.register 0x04).getLsbD 5 = true ↔ s.anchor ≠ 0)
    ∧ (s.register 0x04).extractLsb' 6 2 = 0#2
    ∧ (s.register 0x04).extractLsb' 8 4
      = (match s.dev.fault with
        | .none => 0#4 | .anchorRefused => 1#4 | .noAnchor => 2#4 | .controlRefused => 3#4 | .probeLayout => 8#4
        | .deviceAreaError => 9#4 | .resultError => 10#4)
    ∧ ((s.register 0x04).getLsbD 12 = true ↔ s.lockdown = true)
    ∧ (s.register 0x04).extractLsb' 13 3 = 0#3
    ∧ (s.register 0x04).extractLsb' 16 3 = BitVec.ofNat 3 s.width
    ∧ (s.width ≤ 7 → (s.register 0x04).extractLsb' 19 13 = 0#13)
    ∧ ((s.register 0x18).getLsbD 0 = true ↔ s.ntu.routeA.state = .signalled)
    ∧ ((s.register 0x18).getLsbD 1 = true ↔ s.ntu.routeB.state = .signalled)
    ∧ (s.register 0x18).extractLsb' 2 30 = 0#30
    ∧ s.register 0x0C = s.anchor.extractLsb' 0 32 ∧ s.register 0x10 = s.anchorHigh
    ∧ s.register 0x1C = s.tick.extractLsb' 0 32
    ∧ s.register 0x08 = 0 ∧ s.register 0x14 = 0 ∧ (∀ k, 8 ≤ k → k < 16 → s.register (4 * k) = 0)
    ∧ ∀ k i w : Nat, k < 16 → (w = 1 ∨ w = 2 ∨ w = 4) → i + w ≤ 4 →
      s.readWindow (4 * k + i) w = (List.range w).map fun j => (s.register (4 * k)).extractLsb' (8 * (i + j)) 8

/-! ### Lane signals -/

/-- START, for each lane of the mask: an OFF lane, or a FAULTED one whose records are all final, is SEEKING, its fault record
cleared, and the read of its configuration entry goes out. The FAULTED one first retires its window: retire seq that of the
last record, the status entry asked for when it differs from the one last asked for, then the cause of each NOTIFY record in
seq order; that this entry still shows FAULTED and the old fault is log entry 45. Any other lane counts the signal refused,
asks for its status entry when it differs from the one last asked for, and keeps the rest; at 65,535 the count does not rise
and nothing is asked (R159, R169); a lane outside the mask is unchanged. With no anchor, in a warm reset, in PROBING and in
HALTED nothing happens (R159). That the lanes of one mask act in ascending order, their reads, status entries and causes so
too, is log entry 59. -/
def Obligations.StartSignalsTheLanes : Prop :=
  ∀ (mask : BitVec 4) (s : State),
    (startsTaken s = false → exec (.start mask) s = .next s)
    ∧ (startsTaken s = true → ∀ proceeds : LaneId → Bool,
      (∀ l, proceeds l = true ↔ mask.getLsbD l.val = true
        ∧ ((s.lane l).state = .off ∨ ((s.lane l).state = .faulted ∧ (s.lane l).allFinal = true))) →
      ∃ t, exec (.start mask) s = .next t
      ∧ (∀ l, mask.getLsbD l.val = false → t.lane l = s.lane l)
      ∧ (∀ l, mask.getLsbD l.val = true →
          (s.lane l).state = .off ∨ ((s.lane l).state = .faulted ∧ (s.lane l).allFinal = true) →
          (t.lane l).state = .seeking ∧ (t.lane l).reading = some .config ∧ (t.lane l).fault = .none
            ∧ (t.lane l).faultAddr = 0 ∧ (t.lane l).cfg = (s.lane l).cfg
            ∧ ((s.lane l).state = .off → t.lane l
              = { s.lane l with state := .seeking, reading := some .config, fault := .none, faultAddr := 0 })
            ∧ ((s.lane l).state = .faulted → (t.lane l).window = [] ∧ t.lane l
              = { retiredLane (s.lane l) with
                  state := .seeking, reading := some .config, fault := .none, faultAddr := 0
                  lastStatus := if (s.lane l).window = [] then (s.lane l).lastStatus
                    else some (retiredLane (s.lane l)).status }))
      ∧ t.out = s.out ++ four.flatMap (fun l =>
          if proceeds l then [.hostRead (s.anchor + BitVec.ofNat 64 (64 + 64 * l.val)) 64] else [])
      ∧ t.ntu = (forEach four (fun l u =>
          if proceeds l then
            if (s.lane l).state = .off ∨ (s.lane l).window = [] then u
            else statusThenCauses l (s.lane l).lastStatus (retiredLane (s.lane l)).status (s.lane l).window
              (s.lane l).cfg.notify u
          else if mask.getLsbD l.val && decide ((s.lane l).refused < 65535) then
            statusThenCauses l (s.lane l).lastStatus { s.lane l with refused := (s.lane l).refused + 1 }.status [] .none u
          else u) s).ntu
      ∧ (∀ l, mask.getLsbD l.val = true → (s.lane l).state ≠ .off →
          ¬ ((s.lane l).state = .faulted ∧ (s.lane l).allFinal = true) →
          (65535 ≤ (s.lane l).refused → t.lane l = s.lane l)
          ∧ ((s.lane l).refused < 65535 →
            t.lane l = { s.lane l with refused := (s.lane l).refused + 1, lastStatus := some (t.lane l).status }
            ∧ ((s.lane l).lastStatus ≠ some (t.lane l).status →
              (⟨.laneStatus l, (t.lane l).status.bytes⟩ : WriteReq) ∈ t.ntu.writes)))
      ∧ ((∀ l, mask.getLsbD l.val = true → (s.lane l).state ≠ .off
            ∧ ¬ ((s.lane l).state = .faulted ∧ (s.lane l).allFinal = true) ∧ 65535 ≤ (s.lane l).refused) → t = s)
      ∧ SameDevice s t ∧ SameMedia s t ∧ SameRecords s t)

/-- LOOK, for each lane of the mask in a RUNNING device with an anchor: a parked lane re-reads, the read of its record or of
its newest record's link going out; any other is unchanged. Otherwise nothing happens (R167). That the lanes of one mask read
in ascending order is log entry 59. -/
def Obligations.LookMakesParkedLanesRead : Prop :=
  ∀ (mask : BitVec 4) (s : State),
    (s.anchor = 0 ∨ s.dev.state ≠ .running → exec (.look mask) s = .next s)
    ∧ (s.anchor ≠ 0 → s.dev.state = .running → ∃ t, exec (.look mask) s = .next t
      ∧ (∀ l, mask.getLsbD l.val = false ∨ (s.lane l).parked = false → t.lane l = s.lane l)
      ∧ (∀ l r, mask.getLsbD l.val = true → (s.lane l).state = .parkedEnd → (s.lane l).newest = some r →
          t.lane l = { s.lane l with state := .seeking, poll := none, reading := some (.link r.addr) })
      ∧ (∀ l a, mask.getLsbD l.val = true → (s.lane l).state = .parkedUnposted → (s.lane l).target = some a →
          (s.lane l).reading = none →
          t.lane l = { s.lane l with state := .seeking, poll := none, reading := some (.fetch a) })
      ∧ t.out = s.out ++ four.flatMap (fun l =>
          if mask.getLsbD l.val then
            match (s.lane l).state, (s.lane l).target, (s.lane l).reading, (s.lane l).newest with
            | .parkedUnposted, some a, none, _ => [.hostRead a 128]
            | .parkedEnd, _, _, some r => [.hostRead r.addr 8]
            | _, _, _, _ => []
          else [])
      ∧ SameDevice s t ∧ SameMedia s t ∧ SameRecords s t ∧ t.ntu = s.ntu)

/-- ABORT, outside HALTED. A lane is taken when the mask names it and it is neither OFF nor DRAINING: its poll timer stops,
its fetch target goes, its staged record becomes final in the window, CANCELLED, and its status entry is asked for (R173).
With no read of its own in flight and every record of the window then final it is OFF at this event: window empty, retire seq
that of the last record, resume address its fetch target or 0; else it is DRAINING (R174). Every other lane that is not
DRAINING is unchanged. Each taken lane with a staged record writes that record's device part, as two host writes (log entry
65), and CANCELLED (that the lanes act in ascending order is log entry 59): ABORTED, counts 0, first_fail all ones, the result
word of a record that did not complete, both stamps the tick (R173, R34). The contexts of taken lanes (R67): FREE, COMMIT_WAIT
and FINISHING are unchanged (that the mark stays clear in COMMIT_WAIT and FINISHING is log entry 42); LOADING takes the mark
alone; ISSUING and DRAINING_STEPS take the mark, their held steps are withdrawn, their buffers free, and leave every lock's
list, and with nothing left they are decided CANCELLED, ABORTED, else they are DRAINING_STEPS. Other contexts are unchanged.
During a warm reset the same holds, and the reset ends when its work is then over (R200). In HALTED nothing happens (R176). -/
def Obligations.AbortDrainsTheLanes : Prop :=
  ∀ (mask : BitVec 4) (s : State) (taken : LaneId → Bool) (withdrawn : CtxId → Bool),
    (∀ l, taken l = true ↔ mask.getLsbD l.val = true ∧ (s.lane l).state ≠ .off ∧ (s.lane l).state ≠ .draining) →
    (∀ x, withdrawn x = true ↔
      taken (s.ctx x).lane = true ∧ ((s.ctx x).state = .issuing ∨ (s.ctx x).state = .drainingSteps)) →
    (s.dev.state = .halted → exec (.abort mask) s = .next s)
    ∧ (s.dev.state ≠ .halted → ∃ t u, exec (.abort mask) s = .next u
      ∧ (s.dev.resetInProgress = false → u = t)
      ∧ (s.dev.resetInProgress = true → t.dev = s.dev
        ∧ (¬ ResetWorkOver False t → u = t)
        ∧ (ResetWorkOver False t →
          u.dev = { s.dev with state := .stopped, fault := .none, resetInProgress := false } ∧ u.anchor = 0 ∧ u.anchorHigh = 0
            ∧ (∀ r, (u.route r).state = .idle) ∧ u.lanes = t.lanes ∧ u.ctxs = t.ctxs ∧ u.chans = t.chans ∧ u.out = t.out
            ∧ u.regions = t.regions ∧ u.tick = t.tick ∧ u.dar = t.dar ∧ u.cme = t.cme ∧ u.rlts = t.rlts ∧ u.patrol = t.patrol))
      ∧ (∀ l window, taken l = true → ((s.lane l).staged.isSome = true → (s.lane l).stagedAddr.isSome = true) →
          window = (if (s.lane l).staged.isSome then
              (s.lane l).window.map fun r => if r.cond = .staged then { r with cond := .final .cancelled } else r
            else (s.lane l).window) →
          (t.lane l).poll = none ∧ (t.lane l).target = none ∧ (t.lane l).staged = none ∧ (t.lane l).cfg = (s.lane l).cfg
            ∧ (t.lane l).reading = (s.lane l).reading ∧ (t.lane l).fault = (s.lane l).fault
            ∧ (t.lane l).lastStatus = some (t.lane l).status
            ∧ ((s.lane l).reading = none → (∀ r ∈ window, ∃ fs, r.cond = .final fs) →
              (t.lane l).state = .off ∧ (t.lane l).window = [] ∧ (t.lane l).retireSeq = lastSeq (s.lane l).retireSeq window
                ∧ (t.lane l).resume = (s.lane l).target.getD 0)
            ∧ ((s.lane l).reading ≠ none ∨ (∃ r ∈ window, ∀ fs, r.cond ≠ .final fs) →
              (t.lane l).state = .draining ∧ (t.lane l).window = window ∧ (t.lane l).retireSeq = (s.lane l).retireSeq
                ∧ (t.lane l).resume = (s.lane l).resume ∧ (t.lane l).drainNext = (s.lane l).target))
      ∧ (∀ l, taken l = false → (s.lane l).state ≠ .draining → t.lane l = s.lane l)
      ∧ t.out = s.out ++ four.flatMap (fun l => match (s.lane l).staged, (s.lane l).stagedAddr with
          | some r, some a => if taken l then
              resultWrites a ⟨.aborted, 0, BitVec.allOnes 32, 0, 0,
                match recKind r with
                | .relocate => BitVec.allOnes 64
                | .regionDefine | .regionDelete | .regionGuard | .regionRelease | .regionFix | .lockdown =>
                  BitVec.ofNat 64 s.cme.gen
                | _ => 0, s.tick, s.tick⟩ .cancelled
            else []
          | _, _ => [])
      ∧ (∀ x, (taken (s.ctx x).lane = false ∨ (s.ctx x).state = .free ∨ (s.ctx x).state = .commitWait
            ∨ (s.ctx x).state = .finishing → t.ctx x = s.ctx x)
          ∧ (taken (s.ctx x).lane = true → (s.ctx x).state = .loading → t.ctx x = { s.ctx x with abortMark := true })
          ∧ ∀ kept, withdrawn x = true →
            kept = (s.ctx x).blocks.filter (fun b =>
              (s.ctx x).blocks.all fun h => h.j != b.j || (match h.phase with | .held _ => false | _ => true)) →
            ((∀ b ∈ kept, b.phase = .fold) → (s.ctx x).waitCommit = false → (s.ctx x).waitPass = false →
              t.ctx x = (enterFinishing x (s.setCtx x { s.ctx x with abortMark := true })).ctx x
                ∧ ((s.ctx x).refusal = none →
                  (t.ctx x).final.map (fun f => (f.1, f.2.status)) = some (.cancelled, .aborted)))
            ∧ ((∃ b ∈ kept, b.phase ≠ .fold) ∨ (s.ctx x).waitCommit = true ∨ (s.ctx x).waitPass = true →
              (t.ctx x).state = .drainingSteps ∧ (t.ctx x).abortMark = true ∧ (t.ctx x).blocks = kept
                ∧ BlocksDropped (fun p => match p with | .held _ => true | _ => false) (s.ctx x) (t.ctx x)
                ∧ (t.ctx x).failure = (s.ctx x).failure ∧ (t.ctx x).blocksOk = (s.ctx x).blocksOk
                ∧ (t.ctx x).waitCommit = (s.ctx x).waitCommit ∧ (t.ctx x).waitPass = (s.ctx x).waitPass))
      ∧ (∀ u, t.chan u = { s.chan u with
          locks := (s.chan u).locks.map fun k => { k with held := k.held.filter fun h => !withdrawn h.1 } })
      ∧ t.dar = s.dar ∧ t.anchor = s.anchor ∧ t.tick = s.tick ∧ t.cme = s.cme ∧ t.rlts = s.rlts ∧ t.patrol = s.patrol
      ∧ t.log = s.log ∧ t.regions = s.regions ∧ t.lockdown = s.lockdown ∧ t.settings = s.settings)

/-! ### Lane reads -/

/-- CONFIG_READ_END of a lane that is not DRAINING, for a read of the present epoch (log entry 75), by the tests of R160 in
their order: the three faults with their fault addresses and the old configuration kept, the status entry asked for and
LANE_FAULT posted (R172), or the entry loaded, the DAR told, and the head set as fetch target. -/
def Obligations.ConfigReadIsTestedAndLoaded : Prop :=
  ∀ (l : LaneId) (s : State), (s.lane l).reading = some .config → (s.lane l).state ≠ .draining →
    (∃ t, exec (.configReadEnd l .busError s.lif.epoch) s = .next t
      ∧ LaneFaulted l .fetchError (s.cfgAddr l) s t ∧ t.dar = s.dar)
    ∧ ∀ bs : Bytes, ∃ t, exec (.configReadEnd l (.data bs) s.lif.epoch) s = .next t
      ∧ (recordAddrOk (cfgHead bs) = false →
          LaneFaulted l .badLink (cfgHead bs) s t ∧ t.dar = s.dar)
      ∧ (recordAddrOk (cfgHead bs) = true → cfgRangesOk bs = false →
          LaneFaulted l .badConfig (s.cfgAddr l) s t ∧ t.dar = s.dar)
      ∧ (recordAddrOk (cfgHead bs) = true → cfgRangesOk bs = true →
          (t.lane l).state = (s.lane l).state ∧ (t.lane l).cfg = laneCfgOf bs ∧ (t.lane l).target = some (cfgHead bs)
            ∧ (t.lane l).expSeq = (laneCfgOf bs).initSeq ∧ (t.lane l).retireSeq = (laneCfgOf bs).initSeq - 1
            ∧ (t.lane l).resume = cfgHead bs
            ∧ t.dar.weight[l] = cfgWeight bs ∧ t.dar.cap[l] = cfgCap bs ∧ t.dar.credit[l] = cfgWeight bs
            ∧ ((s.lane l).state = .seeking → s.dev.state = .running →
              (t.lane l).reading = some (.fetch (cfgHead bs))))

/-- FETCH_END of a lane that is not DRAINING, for a read of the present epoch (log entry 75), by the four tests of R162: bus
error, not posted, sequence break, staged. The two faults ask for the status entry and post LANE_FAULT (R172). -/
def Obligations.FetchIsTestedAndStaged : Prop :=
  ∀ (l : LaneId) (a : Addr) (s : State), (s.lane l).reading = some (.fetch a) → (s.lane l).state ≠ .draining →
    (∃ t, exec (.fetchEnd l .busError s.lif.epoch) s = .next t
      ∧ LaneFaulted l .fetchError a s t ∧ (t.lane l).window = (s.lane l).window)
    ∧ ∀ r : Bytes, ∃ t, exec (.fetchEnd l (.data r) s.lif.epoch) s = .next t
      ∧ (recState r ≠ posted →
          (t.lane l).state = .parkedUnposted ∧ (t.lane l).target = (s.lane l).target ∧ (t.lane l).reading = none
            ∧ (t.lane l).window = (s.lane l).window ∧ (t.lane l).expSeq = (s.lane l).expSeq
            ∧ (t.lane l).poll
              = if (s.lane l).cfg.poll = 0 then none else some (s.tick + BitVec.ofNat 64 (s.lane l).cfg.poll))
      ∧ (recState r = posted → recSeq r ≠ (s.lane l).expSeq →
          LaneFaulted l .seqBreak a s t
            ∧ (t.lane l).window = (s.lane l).window ∧ (t.lane l).staged = (s.lane l).staged)
      ∧ (recState r = posted → recSeq r = (s.lane l).expSeq →
          (t.lane l).state = .staged ∧ (t.lane l).staged = some r ∧ (t.lane l).expSeq = (s.lane l).expSeq + 1
            ∧ (t.lane l).target = none ∧ (t.lane l).reading = none
            ∧ (t.lane l).window
              = (s.lane l).window ++ [⟨recSeq r, a, .staged, false, false, recFence r, recNotify r⟩])

/-- LINK_READ_END of a SEEKING lane, for a read of the present epoch (log entry 75), by the table of R165. A bus error faults
the lane at the record's address, its window as it was. 0 parks it at the chain's end, its window as it was and its poll timer
running from now unless the interval is 0 (R166). Any other link counts as read for the newest dispatched record, and the run
of final records with their links read at the window's head is retired: it leaves the window and the retire seq is its last
record's (R168, R169). A misaligned link then faults the lane at the record's address; an aligned one becomes fetch target and
resume address and, in a RUNNING device, is fetched (R170). A fault asks for the status entry and posts LANE_FAULT (R172).
Retirement itself: with an empty run nothing changes; else window and retire seq change as said, the status entry is asked
for, and after that each retired record with NOTIFY hands one cause on the lane's route, in window order; other lanes stay
(R169). That a misaligned link's retirement comes before its LANE_FAULT event is log entry 46. -/
def Obligations.LinkReadLeadsOnOrParks : Prop :=
  (∀ (l : LaneId) (a : Addr) (s : State), (s.lane l).reading = some (.link a) → (s.lane l).state = .seeking →
    (∃ t, exec (.linkReadEnd l .busError s.lif.epoch) s = .next t
      ∧ LaneFaulted l .fetchError a s t
      ∧ (t.lane l).window = (s.lane l).window ∧ (t.lane l).retireSeq = (s.lane l).retireSeq)
    ∧ (∃ t, exec (.linkReadEnd l (.data 0) s.lif.epoch) s = .next t
      ∧ (t.lane l).state = .parkedEnd ∧ (t.lane l).reading = none ∧ (t.lane l).window = (s.lane l).window
      ∧ (t.lane l).retireSeq = (s.lane l).retireSeq
      ∧ (t.lane l).poll
        = if (s.lane l).cfg.poll = 0 then none else some (s.tick + BitVec.ofNat 64 (s.lane l).cfg.poll))
    ∧ ∀ link : Addr, link ≠ 0 →
      ∀ window run : List WinRec, window = markNewest (s.lane l).window →
        run = window.takeWhile (fun r => r.isFinal && r.linkRead) →
      ∃ t, exec (.linkReadEnd l (.data link) s.lif.epoch) s = .next t
        ∧ (t.lane l).window = window.drop run.length ∧ (t.lane l).retireSeq = lastSeq (s.lane l).retireSeq run
        ∧ (link.toNat % 128 ≠ 0 → LaneFaulted l .badLink a s t)
        ∧ (link.toNat % 128 = 0 →
            (t.lane l).state = .seeking ∧ (t.lane l).target = some link ∧ (t.lane l).resume = link
              ∧ (s.dev.state = .running → (t.lane l).reading = some (.fetch link))))
  ∧ (∀ older : List WinRec, ∀ r : WinRec, r.granted = true → ∀ staged : List WinRec,
      (∀ q ∈ staged, q.granted = false) → markNewest (older ++ r :: staged) = older ++ { r with linkRead := true } :: staged)
  ∧ (∀ (old : Seq) (run : List WinRec) (r : WinRec), lastSeq old [] = old ∧ lastSeq old (run ++ [r]) = r.seq)
  ∧ (∀ (l : LaneId) (s : State), (s.lane l).retirable = (s.lane l).window.takeWhile fun r => r.isFinal && r.linkRead)
  ∧ (∀ (l : LaneId) (s : State), (s.lane l).retirable = [] → laneRetire l s = s)
  ∧ ∀ (l : LaneId) (s : State), (s.lane l).retirable ≠ [] →
    ∃ t, laneRetire l s
        = forEach ((s.lane l).retirable.filter WinRec.notify) (fun _ => routeCause (s.lane l).cfg.notify) t
      ∧ (t.lane l).window = (s.lane l).window.drop (s.lane l).retirable.length
      ∧ (t.lane l).retireSeq = lastSeq (s.lane l).retireSeq (s.lane l).retirable
      ∧ (t.lane l).lastStatus = some (t.lane l).status
      ∧ (s.anchor ≠ 0 → s.dev.state ≠ .halted → (s.lane l).lastStatus ≠ some (t.lane l).status →
          (⟨.laneStatus l, (t.lane l).status.bytes⟩ : WriteReq) ∈ t.ntu.writes)
      ∧ (t.lane l).state = (s.lane l).state ∧ (t.lane l).cfg = (s.lane l).cfg ∧ (t.lane l).resume = (s.lane l).resume
      ∧ (∀ k, k ≠ l → t.lane k = s.lane k) ∧ (∀ r, t.route r = s.route r) ∧ SameDevice s t ∧ SameMedia s t
      ∧ SameRecords s t

/-- A read of the present epoch (log entry 75) that ends while its lane is DRAINING is information only: no fault, nothing
staged, the configuration kept. A configuration read is discarded; a fetch leaves its address as the one the lane was about to
fetch; a link read non-zero and aligned marks the link read, sets that address to the link and tests retirement; any other end
of a link read changes nothing (R173, R169). Then the tests of the event's end are made: outside HALTED each DRAINING lane
turns OFF when no read of its own is in flight and every record of its window is final: the whole window is retired, the
resume address is the address it was about to fetch, or 0, its status entry is asked for, and after it each record with NOTIFY
hands on one cause, in window order (R174, R169). In HALTED a lane turns OFF only in a warm reset, once no context that is not
FREE holds a record of it: its window is emptied without a retire advance, a write or a cause, its resume address that of the
oldest record (R176; that this waits for the contexts alone, no read being in flight after the halt, is log entries 12, 15 and
32). -/
def Obligations.DrainingReadsAreInformationOnly : Prop :=
  (∀ (l : LaneId) (s : State), (s.lane l).state = .draining →
    (∀ read, (s.lane l).reading = some .config → exec (.configReadEnd l read s.lif.epoch) s
        = .next (finishEvent (s.setLane l { s.lane l with reading := none })))
    ∧ (∀ read a, (s.lane l).reading = some (.fetch a) → exec (.fetchEnd l read s.lif.epoch) s
        = .next (finishEvent (s.setLane l { s.lane l with reading := none, drainNext := some a })))
    ∧ (∀ read a, (s.lane l).reading = some (.link a) →
      (read = .busError ∨ (∃ link, read = .data link ∧ (link = 0 ∨ link.toNat % 128 ≠ 0)) →
        exec (.linkReadEnd l read s.lif.epoch) s = .next (finishEvent (s.setLane l { s.lane l with reading := none })))
      ∧ ∀ link, read = .data link → link ≠ 0 → link.toNat % 128 = 0 →
        exec (.linkReadEnd l read s.lif.epoch) s = .next (finishEvent (laneRetire l (s.setLane l { s.lane l with
          reading := none, window := markNewest (s.lane l).window, drainNext := some link, resume := link })))))
  ∧ (∀ (l : LaneId) (s : State), (finishEvent s).lane l
      = if s.dev.state = .halted then (if s.dev.resetInProgress then (laneHaltedOff l s).lane l else s.lane l)
        else (laneOff l s).lane l)
  ∧ (∀ (l : LaneId) (s : State),
    ((s.lane l).state ≠ .draining ∨ (s.lane l).reading ≠ none ∨ (∃ r ∈ (s.lane l).window, ∀ fs, r.cond ≠ .final fs) →
      laneOff l s = s)
    ∧ ((s.lane l).state = .draining → (s.lane l).reading = none → (∀ r ∈ (s.lane l).window, ∃ fs, r.cond = .final fs) →
      ∃ t, laneOff l s = forEach ((s.lane l).window.filter WinRec.notify) (fun _ => routeCause (s.lane l).cfg.notify) t
        ∧ t.lane l = { s.lane l with
            state := .off
            window := []
            retireSeq := lastSeq (s.lane l).retireSeq (s.lane l).window
            resume := (s.lane l).drainNext.getD 0
            drainNext := none
            target := none
            lastStatus := some (t.lane l).status }
        ∧ (s.anchor ≠ 0 → s.dev.state ≠ .halted → (s.lane l).lastStatus ≠ some (t.lane l).status →
            (⟨.laneStatus l, (t.lane l).status.bytes⟩ : WriteReq) ∈ t.ntu.writes)
        ∧ (∀ k, k ≠ l → t.lane k = s.lane k) ∧ (∀ r, t.route r = s.route r) ∧ SameDevice s t ∧ SameMedia s t
        ∧ SameRecords s t ∧ t.out = s.out))
  ∧ ∀ (l : LaneId) (s : State),
    ((s.lane l).state ≠ .draining ∨ (∃ x, (s.ctx x).state ≠ .free ∧ (s.ctx x).lane = l) → laneHaltedOff l s = s)
    ∧ ((s.lane l).state = .draining → (∀ x, (s.ctx x).state ≠ .free → (s.ctx x).lane ≠ l) →
      laneHaltedOff l s = s.setLane l { s.lane l with
        state := .off
        window := []
        resume := match (s.lane l).window with | r :: _ => r.addr | [] => (s.lane l).drainNext.getD 0
        drainNext := none
        target := none })

/-- POLL_EXPIRY of a running poll timer whose expiry has come stops it; a parked lane of a RUNNING device is SEEKING again
with its re-read out, any other lane keeps the rest (R166). That an expiry of a timer that does not run or is not due does
nothing is the model's choice (log entries 2 and 23). -/
def Obligations.PollExpiryMakesAParkedLaneRead : Prop :=
  ∀ (l : LaneId) (s : State),
    ((∀ t, (s.lane l).poll = some t → reached s.tick t = false) → exec (.pollExpiry l) s = .next s)
    ∧ ∀ expiry, (s.lane l).poll = some expiry → reached s.tick expiry = true →
      ((s.lane l).parked = false ∨ s.dev.state ≠ .running →
        exec (.pollExpiry l) s = .next (s.setLane l { s.lane l with poll := none }))
      ∧ (∀ r, (s.lane l).state = .parkedEnd → s.dev.state = .running → (s.lane l).newest = some r →
        exec (.pollExpiry l) s = .next
          ((s.setLane l { s.lane l with state := .seeking, poll := none, reading := some (.link r.addr) }).emit
            [.hostRead r.addr 8]))
      ∧ (∀ a, (s.lane l).state = .parkedUnposted → s.dev.state = .running → (s.lane l).target = some a →
        (s.lane l).reading = none →
        exec (.pollExpiry l) s = .next
          ((s.setLane l { s.lane l with state := .seeking, poll := none, reading := some (.fetch a) }).emit
            [.hostRead a 128]))

/-! ### Grants -/

/-- A lane is eligible exactly when it is STAGED in a RUNNING device, its dispatched, unretired records are below its cap, and
FENCE allows it: a staged FENCE record waits for every dispatched record to be final, and no dispatched FENCE record is
unfinished (R55, R56). With an eligible lane and a FREE context, weights at least 1, a grant is made; with no eligible lane or
no FREE context none is (R57). The DAR grants the first eligible lane of the rotation that has credit, with the credits
reloaded when no eligible lane has any, to the lowest FREE context (R57). -/
def Obligations.ArbiterGrantsFirstEligibleInRotation : Prop :=
  (∀ (s : State) (l : LaneId), eligible s l = true ↔
      (s.lane l).state = .staged ∧ (s.lane l).staged.isSome = true ∧ s.dev.state = .running
        ∧ (s.lane l).dispatched < s.dar.cap[l]
        ∧ ((∃ r ∈ (s.lane l).window, r.cond = .staged ∧ r.fence = true) →
            ∀ r ∈ (s.lane l).window, r.granted = true → r.isFinal = true)
        ∧ ∀ r ∈ (s.lane l).window, r.granted = true → r.isFinal = false → r.fence = false)
  ∧ (∀ (s : State) (l : LaneId) (x : CtxId), eligible s l = true → (s.ctx x).state = .free →
      (∀ k : LaneId, 1 ≤ s.dar.weight[k]) →
      ∃ k y r, grantOf s = some (k, y, r))
  ∧ (∀ s : State, (∀ l, eligible s l = false) ∨ (∀ x, (s.ctx x).state ≠ .free) → grantOf s = none)
  ∧ (∀ (s : State) (l : LaneId) (x : CtxId) (r : Bytes), grantOf s = some (l, x, r) →
      grantLane s = some l ∧ (s.lane l).staged = some r ∧ (s.ctx x).state = .free ∧ ∀ y, y < x → (s.ctx y).state ≠ .free)
  ∧ ∀ (s : State) (l : LaneId), grantLane s = some l →
    eligible s l = true ∧ 0 < (grantCredits s)[l]
      ∧ (∀ i : Nat, ∀ k : LaneId, (walkFrom s.dar.pointer)[i]? = some k → (∀ j, j ≤ i → (walkFrom s.dar.pointer)[j]? ≠ some l) →
          eligible s k = false ∨ (grantCredits s)[k] = 0)
      ∧ (grantCredits s = s.dar.credit
        ∨ (grantCredits s = s.dar.weight ∧ ∀ k, eligible s k = true → s.dar.credit[k] = 0))
      ∧ s.dev.state = .running
      ∧ ∀ x, freeCtx s = some x → (s.ctx x).state = .free ∧ ∀ y, y < x → (s.ctx y).state ≠ .free

/-- Every grant row, whatever becomes of its record: one credit is used, the pointer moves behind the lane, the lane's stage
is empty, its record dispatched and its link being read; other lanes and the device's registers are unchanged but for the
lockdown flag (R57, R59, R164).
A grant row whose operation is not the one the DAR grants does not occur (log entry 2). -/
def Obligations.GrantTakesTheStagedRecord : Prop :=
  (∀ (k : OpKind) (s : State) (l : LaneId) (x : CtxId) (r : Bytes) (a : Addr), Grants s l x r k a →
      ∃ t, exec (grantCommand k) s = .next t ∧ GrantTaken s t l x a
        ∧ t.dev = s.dev ∧ t.width = s.width ∧ t.tick = s.tick ∧ t.anchor = s.anchor ∧ t.settings = s.settings
        ∧ (k ≠ .lockdown → t.lockdown = s.lockdown))
    ∧ (∀ (k : OpKind) (s : State), (∀ l x r, grantOf s = some (l, x, r) → recKind r ≠ k) → exec (grantCommand k) s = .next s)

/-- A record refused at a step of the check order ends FAILED with that step's code, has had no effect on region, relocation
table, channel, patrol or commit engine, and has shown RUNNING on the host link (R33, R34, R59; that RUNNING is written
before the lane's link read goes out is log entry 55). BAD_OP: a record whose op is none of the sixteen ends FAILED, BAD_OP
(R28, R32, R33). Steps 1 and 2: an unknown op gives BAD_OP, else arguments that `ArgumentsOk` does not accept give BAD_ARG
(R27 to R29, R46, R48, R51). Steps 3 to 8, the first that fails deciding. READ, VERIFY, DIGEST: NO_REGION, OUT_OF_RANGE,
REGION_BUSY for a pending DELETE; WRITE and FILL also NOT_OWNER before it and PROTECTED after it; RELOCATE first NO_RIGHT;
COPY the source and then the destination at each step (R21, R22). PATROL_CONTROL and LOCKDOWN: NO_RIGHT, START_PASS then
PATROL_BUSY (R33, R13). DEFINE: NO_RIGHT, INDEX_IN_USE, REGION_BUSY, OUT_OF_RANGE, OVERLAP, LOCKED_DOWN; DELETE: NO_RIGHT,
NO_REGION, REGION_BUSY, PROTECTED, REGION_BUSY for users, LOCKED_DOWN; GUARD, RELEASE, FIX: NO_RIGHT, NO_REGION,
REGION_BUSY, PROTECTED, LOCKED_DOWN (R12 to R14). BARRIER and TABLE_READ pass. -/
def Obligations.RefusedRecordHasNoEffect : Prop :=
  (∀ (k : OpKind) (s : State) (l : LaneId) (x : CtxId) (r : Bytes) (a : Addr) (st : Status), Grants s l x r k a →
      (firstFail (argumentChecks s k r) = some st
        ∨ (firstFail (argumentChecks s k r) = none ∧ recSeglist r = false
          ∧ firstFail (accessChecks s k r l (s.lane l).cfg.tableRight) = some st)) →
      ∃ t, exec (grantCommand k) s = .next t ∧ GrantTaken s t l x a
        ∧ (t.ctx x).state = .finishing ∧ (t.ctx x).addr = a ∧ (t.ctx x).raised = []
        ∧ (∃ part, (t.ctx x).final = some (.failed, part) ∧ part.status = st ∧ part.blocksOk = 0 ∧ part.corrected = 0
            ∧ part.weak = 0 ∧ part.firstFail = (if k.isData then 0 else BitVec.allOnes 32)
            ∧ part.startStamp = s.tick ∧ part.endStamp = s.tick)
        ∧ (∀ y, y ≠ x → t.ctx y = s.ctx y)
        ∧ t.regions = s.regions ∧ SameMedia s t ∧ SameDevice s t ∧ t.ntu = s.ntu ∧ t.out = s.out ++ grantOutputs a)
    ∧ (∀ (s : State) (l : LaneId) (x : CtxId) (r : Bytes) (a : Addr), Grants s l x r .badOp a →
      ∃ t, exec .badOp s = .next t ∧ Decided t x .failed .badOp 0 ∧ t.regions = s.regions ∧ SameMedia s t)
    ∧ (∀ (s : State) (k : OpKind) (r : Bytes),
      (k = .badOp → firstFail (argumentChecks s k r) = some .badOp)
      ∧ (k ≠ .badOp → ArgumentsOk s k r → firstFail (argumentChecks s k r) = none)
      ∧ (k ≠ .badOp → ¬ ArgumentsOk s k r → firstFail (argumentChecks s k r) = some .badArg))
    ∧ (∀ (s : State) (k : OpKind) (r : Bytes) (l : LaneId) (right : Bool) (e d : RegionEntry),
      e = s.region (recRegion r) → d = s.region (if k = .regionDefine then argIndex r else argDstRegion r) →
      (k = .read ∨ k = .verify ∨ k = .digest → firstFail (accessChecks s k r l right)
        = if e.live = none then some .noRegion
          else if e.length < recOffset r + recCount r then some .outOfRange
          else if e.pending = some .delete then some .regionBusy
          else none)
      ∧ (k = .write ∨ k = .fill → firstFail (accessChecks s k r l right)
        = if e.live = none then some .noRegion
          else if e.length < recOffset r + recCount r then some .outOfRange
          else if e.ownedBy l = false then some .notOwner
          else if e.pending = some .delete then some .regionBusy
          else if e.writable = false then some .isProtected
          else none)
      ∧ (k = .relocate → firstFail (accessChecks s k r l right)
        = if right = false ∧ e.ownedBy l = false then some .noRight
          else if e.live = none then some .noRegion
          else if e.length < recOffset r + recCount r then some .outOfRange
          else if e.pending = some .delete then some .regionBusy
          else none)
      ∧ (k = .copy → firstFail (accessChecks s k r l right)
        = if e.live = none ∨ d.live = none then some .noRegion
          else if e.length < recOffset r + recCount r ∨ d.length < argDstOffset r + recCount r then some .outOfRange
          else if d.ownedBy l = false then some .notOwner
          else if e.pending = some .delete ∨ d.pending = some .delete then some .regionBusy
          else if d.writable = false then some .isProtected
          else none)
      ∧ (k = .startPass → firstFail (accessChecks s k r l right)
        = if right = false then some .noRight else if s.patrol.running = true then some .patrolBusy else none)
      ∧ (k = .stopPass ∨ k = .setPatrol ∨ k = .lockdown → firstFail (accessChecks s k r l right)
        = if right = false then some .noRight else none)
      ∧ (k = .barrier ∨ k = .tableRead → firstFail (accessChecks s k r l right) = none)
      ∧ (k = .regionDefine → firstFail (accessChecks s k r l right)
        = if right = false then some .noRight
          else if d.live ≠ none then some .indexInUse
          else if d.pending ≠ none then some .regionBusy
          else if s.width * 65536 < argBase r + argLength r then some .outOfRange
          else if windowFree s (argBase r) (argLength r) = false then some .overlap
          else if s.lockdown = true then some .lockedDown
          else none)
      ∧ (k = .regionDelete → firstFail (accessChecks s k r l right)
        = if right = false then some .noRight
          else if e.live = none then some .noRegion
          else if e.pending ≠ none then some .regionBusy
          else if e.inState .opened = false then some .isProtected
          else if e.users ≠ 0 then some .regionBusy
          else if s.lockdown = true then some .lockedDown
          else none)
      ∧ (k = .regionGuard ∨ k = .regionRelease ∨ k = .regionFix → firstFail (accessChecks s k r l right)
        = if right = false ∧ e.ownedBy l = false then some .noRight
          else if e.live = none then some .noRegion
          else if e.pending ≠ none then some .regionBusy
          else if k ≠ .regionFix ∧ e.inState .fixed = true then some .isProtected
          else if s.lockdown = true then some .lockedDown
          else none))
    ∧ (∀ (e : RegionEntry) (l : LaneId) (st : RegionState),
      (e.ownedBy l = true ↔ ∃ d, e.live = some d ∧ d.owners.getLsbD l.val = true)
      ∧ (∀ d, e.live = some d → e.length = d.length)
      ∧ (e.inState st = true ↔ ∃ d, e.live = some d ∧ d.state = st)
      ∧ (e.writable = true ↔ e.inState .opened = true ∧ e.closing = false))
    ∧ ∀ (s : State) (base length : Nat), windowFree s base length = true ↔
      ∀ i, i < 32 →
        (∀ d, (s.region i).live = some d → base + length ≤ d.base ∨ d.base + d.length ≤ base)
        ∧ ∀ b n o label, (s.region i).pending = some (.define b n o label) → base + length ≤ b ∨ b + n ≤ base

/-- A READ, WRITE, FILL, COPY, VERIFY or DIGEST record without segment list that passes the check order is accepted: the
context is ISSUING from block 0 on the window of its region, the users count of each of its regions is one up, and nothing
else but the grant's own parts has changed (R9, R21, R33, R59; that RUNNING is written before the lane's link read goes out
is log entry 55). -/
def Obligations.DataRecordIsAccepted : Prop :=
  ∀ (k : OpKind) (s : State) (l : LaneId) (x : CtxId) (r : Bytes) (a : Addr),
    k = .read ∨ k = .write ∨ k = .fill ∨ k = .copy ∨ k = .verify ∨ k = .digest →
    Grants s l x r k a → PassesChecks s l r k →
    ∃ t, exec (grantCommand k) s = .next t ∧ GrantTaken s t l x a
      ∧ (t.ctx x).state = .issuing ∧ (t.ctx x).record = r ∧ (t.ctx x).addr = a ∧ (t.ctx x).lane = l
      ∧ (t.ctx x).cursor = 0 ∧ (t.ctx x).blocks = [] ∧ (t.ctx x).failure = none ∧ (t.ctx x).abortMark = false
      ∧ (t.ctx x).startStamp = s.tick ∧ (t.ctx x).crc = crcInit
      ∧ (t.ctx x).srcBase = windowStart s (recRegion r) (recOffset r)
      ∧ (t.ctx x).dstBase
        = (if k = .copy then windowStart s (argDstRegion r) (argDstOffset r) else windowStart s (recRegion r) (recOffset r))
      ∧ (t.ctx x).segs = (if k.needsSegments then inlineSegments r else [])
      ∧ (∀ y, y ≠ x → t.ctx y = s.ctx y)
      ∧ (∀ i, t.region i
          = { s.region i with users := (s.region i).users + (if i ∈ usedRegions k r then 1 else 0) })
      ∧ SameMedia s t ∧ SameDevice s t ∧ t.ntu = s.ntu ∧ t.out = s.out ++ grantOutputs a

/-- A record with SEGLIST that passes the checks before loading goes to LOADING: the list read is out and no users count has
risen (R30, R59). That RUNNING is written first, then the lane's link is read and then the list is log entry 55. -/
def Obligations.SegmentListIsLoadedFirst : Prop :=
  ∀ (k : OpKind) (s : State) (l : LaneId) (x : CtxId) (r : Bytes) (a : Addr), Grants s l x r k a →
    firstFail (argumentChecks s k r) = none → recSeglist r = true →
    ∃ t, exec (grantCommand k) s = .next t ∧ GrantTaken s t l x a
      ∧ (t.ctx x).state = .loading ∧ (t.ctx x).listReading = true ∧ (t.ctx x).record = r
      ∧ t.regions = s.regions ∧ SameMedia s t ∧ SameDevice s t
      ∧ t.out = s.out ++ grantOutputs a ++ [.hostRead (recListAddr r) (16 * recSegCount r)]

/-- An accepted RELOCATE issues no step: its one block waits on a move, and the unit's relocation table takes one DIRECTED
request for it, then the closing regions are tested (R47, R101, R145; RUNNING before the link read: log entry 55). The table
takes any request by the tests of R102 in order. A READ_LOST from the channel first raises DATA_LOST (R117; log entry 69). (1)
An OFFLINE unit abandons it UNIT_OFFLINE: waiters fail, a finding is told its end (R112). (2) A read performed on a target
that is no longer the block's is discarded. (3) DIRECTED fails DATA_LOST at a poisoned entry or a poison move of its block, in
a slot or in the list (R47, R115; beside another listed request: log entry 67); any other goes on, READ_WEAK, READ_LOST and
findings too (log entry 35). (4) It is combined with a request for its block in the list, else with a move of its block in a
slot, by the table of R103; a DIRECTED waiter on a BATCHED move is told so at once (R65). (5) DIRECTED without a choosable
spare fails NO_SPARE. (6) With a free slot and no request that could take it, its move starts: STARTING with the lowest
choosable spare, the channel asked, a finding answered TAKEN before the channel is asked (log entry 8); without a choosable
spare it is abandoned NO_SPARE (R105). (7) Else a finding is answered FULL; (8) else the request joins the list's tail, but an
untied one beyond eight is discarded (R104). A spare is choosable when it is FREE and neither RESERVED nor FAILING, and the
lowest is taken (R99). A freed slot goes to the oldest request whose block has no move in a slot, which is abandoned NO_SPARE
when no spare is choosable by then, and the slot is free again (R105); when every request's block has one, patrol is told
(R104). A start refused DROPPED frees spare and slot and ends the finding (R106); its DIRECTED waiters get the slot first: the
earliest's request, the others waiting on it, starts its own move, or fails NO_SPARE (R104, R115; after the finding's end:
entry 73). -/
def Obligations.RelocateRequestsADirectedMove : Prop :=
  (∀ (s : State) (l : LaneId) (x : CtxId) (r : Bytes) (a : Addr), Grants s l x r .relocate a → PassesChecks s l r .relocate →
    ∃ t q, exec .relocate s
        = .next (workOff (t, [.moveRequest (s.unitOf (windowStart s (recRegion r) (recOffset r))) q, .closingCheck]))
      ∧ q.src = s.blockOf (windowStart s (recRegion r) (recOffset r)) ∧ q.cause = .directed
      ∧ q.waiters = [⟨x, 0, true⟩] ∧ q.lane = some l ∧ q.region = some (recRegion r) ∧ q.finding = none
      ∧ q.readTarget = none
      ∧ (t.ctx x).phase 0 = some .awaitMove ∧ (t.ctx x).cursor = 1
      ∧ (t.region (recRegion r)).users = (s.region (recRegion r)).users + 1
      ∧ SameMedia s t ∧ t.out = s.out ++ grantOutputs a)
  ∧ (∀ (u : UnitId) (q : MoveReq) (s t : State),
      t = (if q.cause = .readLost ∧ q.finding = none then postDataLost u q.src 1 q.lane s else s) →
      ((s.chan u).state = .offline →
        handle (.moveRequest u q) s
          = (t, q.findingReply u .ended ++ waitersEnd q.waiters fun _ => .failed .unitOffline))
      ∧ ((s.chan u).state ≠ .offline →
        (∀ target, q.readTarget = some target → target ≠ (s.rlt u).table.target q.src → handle (.moveRequest u q) s = (t, []))
        ∧ ((∀ target, q.readTarget = some target → target = (s.rlt u).table.target q.src) →
          (q.cause = .directed → LostBlock (s.rlt u) q.src →
            handle (.moveRequest u q) s = (t, waitersEnd q.waiters fun _ => .failed .dataLost))
          ∧ ((q.cause = .directed → ¬ LostBlock (s.rlt u) q.src) →
            (∀ comp, (s.rlt u).requests.find? (fun c => c.src == q.src) = some comp →
              (q.cause = .readWeak ∨ q.cause = .patrolWeak → handle (.moveRequest u q) s = (t, q.findingReply u .absorbed))
              ∧ (q.cause = .readLost → handle (.moveRequest u q) s
                  = (if q.finding = none then t else postDataLost u q.src 2 none t, q.findingReply u .absorbed))
              ∧ (q.cause = .directed →
                  handle (.moveRequest u q) s = (t.setRlt u { t.rlt u with
                    requests := updateRequest q.src (fun c => { c with waiters := c.waiters ++ q.waiters }) (t.rlt u).requests },
                    []))
              ∧ (q.cause = .programFail →
                  handle (.moveRequest u q) s = (t.setRlt u { t.rlt u with
                    requests := updateRequest q.src (fun c => { q with waiters := c.waiters ++ q.waiters }) (t.rlt u).requests },
                    [])))
            ∧ ((s.rlt u).requests.find? (fun c => c.src == q.src) = none →
              (∀ comp, (s.rlt u).moves.find? (fun m => m.req.src == q.src) = some comp →
                (q.cause = .readWeak ∨ q.cause = .patrolWeak → handle (.moveRequest u q) s = (t, q.findingReply u .absorbed))
                ∧ (q.cause = .readLost → handle (.moveRequest u q) s
                    = (if q.finding = none then t else postDataLost u q.src 2 none t, q.findingReply u .absorbed))
                ∧ (q.cause = .directed →
                    handle (.moveRequest u q) s
                      = (t.setRlt u ((t.rlt u).putMove
                          { comp with req := { comp.req with waiters := comp.req.waiters ++ q.waiters } }),
                        if comp.state = .batched then q.waiters.map (fun w => .moveBatched w.ctx w.j) else []))
                ∧ (q.cause = .programFail →
                    handle (.moveRequest u q) s = (t.setRlt u { t.rlt u with requests := (t.rlt u).requests ++ [q] }, [])))
              ∧ ((s.rlt u).moves.find? (fun m => m.req.src == q.src) = none →
                (q.cause = .directed → (s.rlt u).lowestChoosable = none →
                  handle (.moveRequest u q) s = (t, waitersEnd q.waiters fun _ => .failed .noSpare))
                ∧ ((s.rlt u).moves.length < 4 → (s.rlt u).nextRequest = none →
                  (∀ k, (s.rlt u).lowestChoosable = some k →
                    handle (.moveRequest u q) s
                      = (t.setRlt u { t.rlt u with
                          moves := (t.rlt u).moves ++ [⟨(t.rlt u).nextMid, q, .starting, k, 1⟩]
                          nextMid := (t.rlt u).nextMid + 1 },
                        q.findingReply u .taken ++ [.moveStart u (t.rlt u).nextMid]))
                  ∧ (q.cause ≠ .directed → (s.rlt u).lowestChoosable = none →
                    handle (.moveRequest u q) s
                      = (if q.finding.any (fun tag => tag.lost) then postDataLost u q.src 2 none t else t,
                        q.findingReply u .ended
                          ++ waitersEnd q.waiters (fun w => .failed (if w.directed then .noSpare else .writeFailed))
                          ++ [.slotFreed u])))
                ∧ (4 ≤ (s.rlt u).moves.length ∨ (s.rlt u).nextRequest ≠ none →
                  (q.cause = .directed → (s.rlt u).lowestChoosable ≠ none) →
                  (q.finding ≠ none → handle (.moveRequest u q) s = (t, q.findingReply u .full))
                  ∧ (q.finding = none → q.untied = true → 8 ≤ (s.rlt u).requests.countP MoveReq.untied →
                    handle (.moveRequest u q) s = (t, []))
                  ∧ (q.finding = none → (q.untied = true → (s.rlt u).requests.countP MoveReq.untied < 8) →
                    handle (.moveRequest u q) s
                      = (t.setRlt u { t.rlt u with requests := (t.rlt u).requests ++ [q] }, [])))))))))
  ∧ (∀ (r : Rlt) (k : Nat),
      (r.choosable k = true ↔
        (∀ e ∈ r.table.entries, e.spare ≠ k) ∧ k ∉ r.table.dead ∧ k ∉ r.failing ∧ ∀ m ∈ r.moves, m.spare ≠ k)
      ∧ (r.lowestChoosable = some k ↔ k < 1024 ∧ r.choosable k = true ∧ ∀ j, j < k → r.choosable j = false)
      ∧ (r.lowestChoosable = none ↔ ∀ j, j < 1024 → r.choosable j = false))
  ∧ (∀ (r : Rlt) (q : MoveReq), r.nextRequest = some q →
      ∃ older newer, r.requests = older ++ q :: newer ∧ (∀ m ∈ r.moves, m.req.src ≠ q.src)
        ∧ ∀ p ∈ older, ∃ m ∈ r.moves, m.req.src = p.src)
  ∧ (∀ r : Rlt, r.nextRequest = none ↔ ∀ p ∈ r.requests, ∃ m ∈ r.moves, m.req.src = p.src)
  ∧ (∀ (u : UnitId) (m : Move) (s t : State),
      t = s.setRlt u { s.rlt u with moves := (s.rlt u).moves.filter fun k => k.mid != m.mid } →
      (m.req.waiters = [] → startDropped u m s = (t, m.req.findingReport u .dropped ++ [.slotFreed u]))
      ∧ ∀ w ws, m.req.waiters = w :: ws →
        ((t.rlt u).lowestChoosable = none → startDropped u m s
          = (t, m.req.findingReport u .dropped
              ++ waitersEnd (w :: ws) (fun v => .failed (if v.directed then .noSpare else .writeFailed)) ++ [.slotFreed u]))
        ∧ ∀ k, (t.rlt u).lowestChoosable = some k → startDropped u m s
          = (t.setRlt u { t.rlt u with
              moves := (t.rlt u).moves ++ [⟨(t.rlt u).nextMid,
                ⟨m.req.src, .directed, some (s.ctx w.ctx).lane, some (recRegion (s.ctx w.ctx).record), none, w :: ws, none, false,
                  none⟩, .starting, k, 1⟩]
              nextMid := (t.rlt u).nextMid + 1 },
            m.req.findingReport u .dropped ++ [.moveStart u (t.rlt u).nextMid]))
  ∧ (∀ (q : MoveReq) (u : UnitId) (answer : FindingAnswer) (res : FindingEnd),
      q.findingReply u answer = (match q.finding with | some tag => [.findingAnswered u q.src tag answer] | none => [])
      ∧ q.findingReport u res = (match q.finding with | some tag => [.findingEnded u q.src tag res] | none => []))
  ∧ (∀ (u : UnitId) (s : State), 4 ≤ (s.rlt u).moves.length → handle (.slotFreed u) s = (s, []))
  ∧ ∀ (u : UnitId) (s : State), (s.rlt u).moves.length < 4 →
    ((s.rlt u).nextRequest = none → handle (.slotFreed u) s = (s, [.freeSlotReport u]))
    ∧ (∀ q t, (s.rlt u).nextRequest = some q → (s.rlt u).lowestChoosable = none →
      t = s.setRlt u { s.rlt u with requests := (s.rlt u).requests.erase q } →
      handle (.slotFreed u) s
        = (if q.finding.any (fun tag => tag.lost) then postDataLost u q.src 2 none t else t,
          q.findingReply u .ended
            ++ waitersEnd q.waiters (fun w => .failed (if w.directed then .noSpare else .writeFailed)) ++ [.slotFreed u]))
    ∧ ∀ q k, (s.rlt u).nextRequest = some q → (s.rlt u).lowestChoosable = some k →
      handle (.slotFreed u) s
        = (s.setRlt u { s.rlt u with
            requests := (s.rlt u).requests.erase q
            moves := (s.rlt u).moves ++ [⟨(s.rlt u).nextMid, q, .starting, k, 1⟩]
            nextMid := (s.rlt u).nextMid + 1 },
          q.findingReply u .taken ++ [.moveStart u (s.rlt u).nextMid])

/-- An accepted TABLE_READ takes its snapshot, of the bytes `FieldsAndSnapshotsHaveTheirForms` states, at its grant, binds the
four staging buffers to its blocks, notes its generation and size and issues the first buffer write; tables and media are
unchanged. That the buffer writes go out one block at a time, each as one host write per segment it meets, is the model's
choice (R50, R51, R62; log entries 10 and 64), and that RUNNING is written before the lane's link read goes out, and that
before the first buffer write, is log entry 55. -/
def Obligations.TableReadTakesASnapshot : Prop :=
  ∀ (s : State) (l : LaneId) (x : CtxId) (r : Bytes) (a : Addr), Grants s l x r .tableRead a →
    PassesChecks s l r .tableRead →
    ∃ t, exec .tableRead s = .next t ∧ GrantTaken s t l x a
      ∧ (t.ctx x).snapGen = some (BitVec.ofNat 32 s.cme.gen)
      ∧ (t.ctx x).snapSize = (match argSelector r with | 1 => 16384 | 2 => 1536 | _ => 1024)
      ∧ (∀ i : Fin 4, (t.ctx x).bufs[i]
          = ⟨some i.val,
            some (((snapshot s (argSelector r) (argUnit r)).drop (4096 * i.val)).take 4096)⟩)
      ∧ (t.ctx x).phase 0 = some .bufferWrite
      ∧ t.regions = s.regions ∧ SameMedia s t ∧ SameDevice s t
      ∧ t.out = s.out ++ grantOutputs a
          ++ pieceWrites
            (bufferPieces (inlineSegments r) 0 ((snapshot s (argSelector r) (argUnit r)).take 4096).length)
            ((snapshot s (argSelector r) (argUnit r)).take 4096)

/-- An accepted START_PASS begins the pass of the next number, tallies zero, at its grant and is decided DONE with that
number; the units in service become READY (R122, R132, R49). An accepted STOP_PASS: patrol IDLE, it is decided DONE with the
current pass number and nothing else changes; patrol RUNNING, the stop mark is set, the context joins the list and the end
conditions are tested. At the report of the pass it is decided DONE with the number reported, CANCELLED when aborted (R133,
R49, R67). The end conditions (R130): with the stop mark and no member unit READ_OUT the pass ends STOPPED; else with every
member unit FINISHED or STOPPED_UNIT and no finding outstanding it ends COMPLETE; where both hold it ends STOPPED (log entry
11). The end hands on, in this order: the log entry to the commit engine; PATROL_PASS_END; the pass number to each waiting
context; the reset of the items. The next pass starts at once after COMPLETE with auto set, pace above 0 and a member unit not
STOPPED_UNIT. A pass starts with the next number, the tick as start stamp, tallies zero and every member unit at block 0,
READY in service and STOPPED_UNIT out of it; the READY ones offer (R122, R124), in ascending order (log entry 5). The event
carries the outcome and the current generation. The reset leaves number, settings and start stamp (log entry 40). A log entry
goes to the slot after the pointer with the commit's generation (R131). -/
def Obligations.PassesAreStartedAndStopped : Prop :=
  (∀ (s : State) (l : LaneId) (x : CtxId) (r : Bytes) (a : Addr), Grants s l x r .startPass a →
      PassesChecks s l r .startPass →
      ∃ t, exec .startPass s
          = .next (workOff (t, passOffers s)) ∧ PassStarted s t
        ∧ Decided t x .done .ok ((s.patrol.passNumber + 1).setWidth 64)
        ∧ t.chans = s.chans ∧ t.rlts = s.rlts ∧ t.cme = s.cme ∧ t.regions = s.regions)
    ∧ (∀ (s : State) (l : LaneId) (x : CtxId) (r : Bytes) (a : Addr), Grants s l x r .stopPass a →
      PassesChecks s l r .stopPass →
      (s.patrol.running = false → ∃ t, exec .stopPass s = .next t
        ∧ Decided t x .done .ok (s.patrol.passNumber.setWidth 64) ∧ SameMedia s t ∧ t.regions = s.regions)
      ∧ (s.patrol.running = true → ∃ t, exec .stopPass s = .next (workOff (t, [.passCheck]))
        ∧ t.patrol = { s.patrol with stopMark := true, stopList := s.patrol.stopList ++ [x] }
        ∧ (t.ctx x).waitPass = true ∧ (t.ctx x).state = .drainingSteps ∧ t.chans = s.chans ∧ t.rlts = s.rlts
        ∧ t.cme = s.cme ∧ t.regions = s.regions))
    ∧ (∀ s : State,
      (s.patrol.running = false → handle .passCheck s = (s, []))
      ∧ (s.patrol.running = true → ∀ outcome,
        (outcome = .stopped ∧ s.patrol.stopMark = true ∧ (∀ u ∈ s.members, (s.patrolUnit u).sub ≠ .readOut))
          ∨ (outcome = .complete ∧ (s.patrol.stopMark = false ∨ ∃ u ∈ s.members, (s.patrolUnit u).sub = .readOut)
            ∧ ∀ u ∈ s.members, ((s.patrolUnit u).sub = .finished ∨ (s.patrolUnit u).sub = .stoppedUnit)
              ∧ (s.patrolUnit u).findings = []) →
        ∃ restart, handle .passCheck s
            = (s, .change (.log (passEntry s outcome)) :: .passPosted outcome
              :: s.patrol.stopList.map (fun x => .passEnded x s.patrol.passNumber) ++ [.passClosed restart])
          ∧ (restart = true ↔ outcome = .complete ∧ s.patrol.cfg.auto = true ∧ 0 < s.patrol.cfg.pace
            ∧ ∃ u ∈ s.members, (s.patrolUnit u).sub ≠ .stoppedUnit))
      ∧ (s.patrol.running = true →
        s.patrol.stopMark = false ∨ (∃ u ∈ s.members, (s.patrolUnit u).sub = .readOut) →
        (∃ u ∈ s.members, ((s.patrolUnit u).sub ≠ .finished ∧ (s.patrolUnit u).sub ≠ .stoppedUnit)
          ∨ (s.patrolUnit u).findings ≠ []) →
        handle .passCheck s = (s, []))
      ∧ (∀ outcome, handle (.passPosted outcome) s
          = (postEvent .patrolPassEnd
              { code := some (match outcome with | .complete => 1 | .stopped => 2 | .reset => 3), gen := some s.cme.gen } s, []))
      ∧ (∀ restart, ∃ t, handle (.passClosed restart) s = (t, if restart = true then [.passRestart] else [])
        ∧ t.patrol.running = false ∧ t.patrol.stopMark = false ∧ t.patrol.stopList = [] ∧ t.patrol.tallies = Tallies.zero
        ∧ (∀ u, t.patrolUnit u = ⟨0, .ready, none, none, []⟩) ∧ t.patrol.passNumber = s.patrol.passNumber
        ∧ t.patrol.cfg = s.patrol.cfg ∧ t.patrol.startStamp = s.patrol.startStamp
        ∧ SameDevice s t ∧ SameRecords s t ∧ t.chans = s.chans ∧ t.rlts = s.rlts ∧ t.cme = s.cme ∧ t.ntu = s.ntu)
      ∧ (∃ t, handle .passRestart s = (t, passOffers s) ∧ PassStarted s t ∧ t = { s with patrol := t.patrol })
      ∧ (∀ outcome, (passEntry s outcome).pass = s.patrol.passNumber ∧ (passEntry s outcome).outcome = outcome
        ∧ (passEntry s outcome).startStamp = s.patrol.startStamp ∧ (passEntry s outcome).endStamp = s.tick
        ∧ (passEntry s outcome).tallies = s.patrol.tallies
        ∧ (passEntry s outcome).unitsStopped = (s.members.filter fun u => (s.patrolUnit u).sub = .stoppedUnit).length))
    ∧ (∀ (x : CtxId) (number : Word32) (s : State),
      ((s.ctx x).waitPass = false → handle (.passEnded x number) s = (s, []))
      ∧ ((s.ctx x).waitPass = true →
        handle (.passEnded x number) s
            = (ctxSettle x (s.setCtx x { s.ctx x with waitPass := false, result := number.setWidth 64 }), [])
          ∧ (recKind (s.ctx x).record = .stopPass → (s.ctx x).state = .drainingSteps → (s.ctx x).blocks = [] →
            (s.ctx x).waitCommit = false → (s.ctx x).refusal = none → (s.ctx x).failure = none → (s.ctx x).otherFail = none →
            s.dev.state ≠ .halted →
            ∃ t, handle (.passEnded x number) s = (t, [])
              ∧ ((s.ctx x).abortMark = false → Decided t x .done .ok (number.setWidth 64))
              ∧ ((s.ctx x).abortMark = true → Decided t x .cancelled .aborted 0)
              ∧ (∀ y, y ≠ x → t.ctx y = s.ctx y) ∧ t.regions = s.regions ∧ SameMedia s t ∧ SameDevice s t)))
    ∧ ∀ (g : Nat) (d : Durable) (e : LogEntry),
      (d.apply g (.log e)).log.pointer = d.log.pointer % 16 + 1
        ∧ (d.apply g (.log e)).log.slots[d.log.pointer % 16]? = some (some { e with endGen := g })
        ∧ (∀ i, i ≠ d.log.pointer % 16 → (d.apply g (.log e)).log.slots[i]? = d.log.slots[i]?)
        ∧ (d.apply g (.log e)).regions = d.regions ∧ (d.apply g (.log e)).units = d.units

/-- An accepted SET puts pace, settle, weak threshold and auto in force at its grant, changes nothing else of patrol, waits
in COMMIT_WAIT, and hands the commit engine its change last (R49, R134). When it raises pace from 0 in a running pass,
exactly the member units that wait in PACE_WAIT without a timer become READY first (R125); that they offer before the commit
is asked for is log entry 44, and that they do so in ascending order log entry 5. At the commit's end the SET is decided:
DONE, OK after a success, FAILED, COMMIT_FAILED after a failure, its result word the current generation, the new one after a
success (R49, R148, R149). -/
def Obligations.SetPutsTheSettingsInForce : Prop :=
  (∀ (x : CtxId) (ok : Bool) (s : State),
    ((s.ctx x).waitCommit = false → handle (.changeEnds x ok) s = (s, []))
    ∧ ((s.ctx x).waitCommit = true →
      handle (.changeEnds x ok) s
          = (ctxSettle x (s.setCtx x { s.ctx x with
              waitCommit := false, otherFail := if ok then (s.ctx x).otherFail else some .commitFailed }), [])
        ∧ (recKind (s.ctx x).record = .setPatrol → (s.ctx x).state = .commitWait → (s.ctx x).blocks = [] → (s.ctx x).waitPass = false →
          (s.ctx x).refusal = none → (s.ctx x).abortMark = false → (s.ctx x).failure = none → (s.ctx x).otherFail = none →
          s.dev.state ≠ .halted →
          ∃ t, handle (.changeEnds x ok) s = (t, [])
            ∧ Decided t x (if ok then .done else .failed) (if ok then .ok else .commitFailed) (BitVec.ofNat 64 s.cme.gen)
            ∧ (∀ y, y ≠ x → t.ctx y = s.ctx y) ∧ t.regions = s.regions ∧ SameMedia s t ∧ SameDevice s t)))
  ∧ ∀ (s : State) (l : LaneId) (x : CtxId) (r : Bytes) (a : Addr), Grants s l x r .setPatrol a →
    PassesChecks s l r .setPatrol →
    ∃ t ready, exec .setPatrol s = .next (workOff (t, ready.map Msg.patrolReady ++ [.change (.config x)]))
      ∧ t.patrol = { s.patrol with cfg := ⟨argPace r, argSettle r, argWeak r, argAuto r == 1⟩ }
      ∧ (t.ctx x).state = .commitWait ∧ (t.ctx x).waitCommit = true
      ∧ (¬ (s.patrol.cfg.pace = 0 ∧ 0 < argPace r ∧ s.patrol.running = true) → ready = [])
      ∧ (s.patrol.cfg.pace = 0 → 0 < argPace r → s.patrol.running = true →
        ready = four.filter fun u =>
          u.val < s.width && (s.patrolUnit u).sub == .paceWait && (s.patrolUnit u).paceTimer == none)
      ∧ t.chans = s.chans ∧ t.rlts = s.rlts ∧ t.cme = s.cme ∧ t.regions = s.regions ∧ t.log = s.log

/-- The accepted region operations. One that leaves its region as it is, GUARD of a GUARDED, RELEASE of an OPEN or FIX of a
FIXED region, is decided DONE, OK with the current generation; any other sets the pending mark on its region (DEFINE on the
index in its argument, the others on the record's region) with the change (a DEFINE's base, length, owner mask and label
from its arguments), waits in COMMIT_WAIT and hands the change to the commit engine. The live fields of every region are
unchanged until the commit (R10, R12, R14 to R18). At the commit's end the waiting operation is decided: DONE, OK after a
success, FAILED, COMMIT_FAILED after a failure, its result word the current generation, the new one after a success (R20). -/
def Obligations.RegionOperationIsAccepted : Prop :=
  (∀ (x : CtxId) (ok : Bool) (s : State),
    ((s.ctx x).waitCommit = false → handle (.changeEnds x ok) s = (s, []))
    ∧ ((s.ctx x).waitCommit = true →
      handle (.changeEnds x ok) s
          = (ctxSettle x (s.setCtx x { s.ctx x with
              waitCommit := false, otherFail := if ok then (s.ctx x).otherFail else some .commitFailed }), [])
        ∧ ((∃ k, (k = .regionDefine ∨ k = .regionDelete ∨ k = .regionGuard ∨ k = .regionRelease ∨ k = .regionFix)
          ∧ recKind (s.ctx x).record = k) → (s.ctx x).state = .commitWait → (s.ctx x).blocks = [] → (s.ctx x).waitPass = false →
          (s.ctx x).refusal = none → (s.ctx x).abortMark = false → (s.ctx x).failure = none → (s.ctx x).otherFail = none →
          s.dev.state ≠ .halted →
          ∃ t, handle (.changeEnds x ok) s = (t, [])
            ∧ Decided t x (if ok then .done else .failed) (if ok then .ok else .commitFailed) (BitVec.ofNat 64 s.cme.gen)
            ∧ (∀ y, y ≠ x → t.ctx y = s.ctx y) ∧ t.regions = s.regions ∧ SameMedia s t ∧ SameDevice s t)))
  ∧ (∀ (s : State) (k : OpKind) (r : Bytes),
      (opNoChange s k r = true ↔ ∃ d, (s.region (recRegion r)).live = some d
        ∧ ((k = .regionGuard ∧ d.state = .guarded) ∨ (k = .regionRelease ∧ d.state = .opened)
          ∨ (k = .regionFix ∧ d.state = .fixed)))
      ∧ opIndex k r = (if k = .regionDefine then (byteAt r 24).toNat else (byteAt r 15).toNat)
      ∧ opChange .regionDefine r
        = .define (field r 28 4) (field r 32 4) ((byteAt r 25).extractLsb' 0 4) (BitVec.ofNat 16 (field r 26 2))
      ∧ opChange .regionDelete r = .delete ∧ opChange .regionGuard r = .guard ∧ opChange .regionRelease r = .release
      ∧ opChange .regionFix r = .fix)
  ∧ ∀ (k : OpKind) (s : State) (l : LaneId) (x : CtxId) (r : Bytes) (a : Addr),
    k = .regionDefine ∨ k = .regionDelete ∨ k = .regionGuard ∨ k = .regionRelease ∨ k = .regionFix →
    Grants s l x r k a → PassesChecks s l r k →
    (opNoChange s k r = true → ∃ t, exec (grantCommand k) s = .next t
      ∧ Decided t x .done .ok (BitVec.ofNat 64 s.cme.gen) ∧ t.regions = s.regions ∧ SameMedia s t)
    ∧ (opNoChange s k r = false → ∃ t, exec (grantCommand k) s
        = .next (workOff (t, [.change (.region (opIndex k r) l x (opChange k r))]))
      ∧ t.region (opIndex k r) = { s.region (opIndex k r) with pending := some (opChange k r) }
      ∧ (∀ i, i ≠ opIndex k r → t.region i = s.region i)
      ∧ (t.ctx x).state = .commitWait ∧ (t.ctx x).waitCommit = true ∧ SameMedia s t)

/-- An accepted BARRIER issues nothing and is decided DONE, OK with result word 0 at its grant (R52; that RUNNING is written
before the lane's link read goes out is log entry 55). An accepted LOCKDOWN sets the flag, whether or not it was set, and is
decided DONE, OK with the current generation; every region keeps its live fields and its pending change (R19). -/
def Obligations.BarrierAndLockdownCompleteAtDispatch : Prop :=
  (∀ (s : State) (l : LaneId) (x : CtxId) (r : Bytes) (a : Addr), Grants s l x r .barrier a → PassesChecks s l r .barrier →
      ∃ t, exec .barrier s = .next t ∧ GrantTaken s t l x a ∧ Decided t x .done .ok 0
        ∧ (∀ y, y ≠ x → t.ctx y = s.ctx y) ∧ t.regions = s.regions ∧ SameMedia s t ∧ SameDevice s t
        ∧ t.out = s.out ++ grantOutputs a)
    ∧ (∀ (s : State) (l : LaneId) (x : CtxId) (r : Bytes) (a : Addr), Grants s l x r .lockdown a →
      PassesChecks s l r .lockdown →
      ∃ t, exec .lockdown s = .next t ∧ t.lockdown = true ∧ Decided t x .done .ok (BitVec.ofNat 64 s.cme.gen)
        ∧ t.regions = s.regions ∧ SameMedia s t ∧ t.dev = s.dev)

/-- The lockdown flag (R11). An accepted LOCKDOWN sets it, with every region, the commit engine and the notification unit as they
were; COLD_RESET clears it; RESET, STOP, RUN and RUN's end leave it as it is, and set it stays set over every step but a cold
reset. While it is set, REGION_DEFINE, REGION_DELETE, REGION_GUARD, REGION_RELEASE and REGION_FIX are refused LOCKED_DOWN at the
last step of the check order: one that passes every other step ends FAILED, LOCKED_DOWN, and one that passes every step there is
none. A change accepted before becomes live or is discarded with its commit as without the flag. An image does not depend on the
flag, and host software sees it as bit 12 of STATE. -/
def Obligations.LockdownHolds : Prop :=
  (∀ s t : State, s.lockdown = true → step s = .next t → (∀ source, s.pending.head? ≠ some (.coldReset source)) →
      t.lockdown = true)
    ∧ (∀ (s : State) (l : LaneId) (x : CtxId) (r : Bytes) (a : Addr), Grants s l x r .lockdown a → PassesChecks s l r .lockdown →
      ∃ t, exec .lockdown s = .next t ∧ t.lockdown = true ∧ t.regions = s.regions ∧ t.cme = s.cme ∧ t.ntu = s.ntu)
    ∧ (∀ (source : ResetSource) (s : State), ∃ t, exec (.coldReset source) s = .next t ∧ t.lockdown = false)
    ∧ (∀ (c : Instr) (s : State), c = .reset ∨ c = .stop ∨ c = .run ∨ (∃ number read, c = .runTaken read number) →
      ∃ t, exec c s = .next t ∧ t.lockdown = s.lockdown)
    ∧ (∀ (k : OpKind) (s : State) (l : LaneId) (r : Bytes) (right : Bool),
      k = .regionDefine ∨ k = .regionDelete ∨ k = .regionGuard ∨ k = .regionRelease ∨ k = .regionFix →
      s.lockdown = true →
      firstFail (accessChecks s k r l right) ≠ none
        ∧ (firstFail (accessChecks { s with lockdown := false } k r l right) = none →
          firstFail (accessChecks s k r l right) = some .lockedDown)
        ∧ (accessChecks s k r l right).getLast? = some (false, .lockedDown))
    ∧ (∀ (k : OpKind) (s : State) (l : LaneId) (x : CtxId) (r : Bytes) (a : Addr), Grants s l x r k a →
      k = .regionDefine ∨ k = .regionDelete ∨ k = .regionGuard ∨ k = .regionRelease ∨ k = .regionFix →
      s.lockdown = true → firstFail (argumentChecks s k r) = none → recSeglist r = false →
      firstFail (accessChecks { s with lockdown := false } k r l (s.lane l).cfg.tableRight) = none →
      ∃ t, exec (grantCommand k) s = .next t ∧ Decided t x .failed .lockedDown (BitVec.ofNat 64 s.cme.gen)
        ∧ t.regions = s.regions ∧ t.cme = s.cme)
    ∧ (∀ (f : InFlight) (s : State), s.lockdown = true → ∃ t ms, commitSucceeds f s = (t, ms ++ [.engineLeaves])
      ∧ t.durable = s.durable.applyAll f.image.gen f.batch ∧ t.lockdown = true
      ∧ ∀ i l x op, .region i l x op ∈ f.batch → (t.region i).pending = none ∧ .changeEnds x true ∈ ms)
    ∧ (∀ (f : InFlight) (code : Nat) (s : State), s.lockdown = true → ∃ t ms, commitFails f code s = (t, ms ++ [.engineLeaves])
      ∧ t.durable = s.durable ∧ t.lockdown = true
      ∧ ∀ i l x op, .region i l x op ∈ f.batch → (t.region i).pending = none ∧ .changeEnds x false ∈ ms)
    ∧ (∀ (s : State) (flag : Bool) (g w : Nat) (batch : List Change),
      formImage { s with lockdown := flag } g w batch = formImage s g w batch)
    ∧ ∀ s : State, (s.register 0x04).getLsbD 12 = true ↔ s.lockdown = true

/-! ### The contexts' own events -/

/-- LIST_READ_END of an awaited list read of the present epoch (log entry 75): an aborted record is decided CANCELLED, a bus
error gives HOST_MEMORY, segments that fail R29 give BAD_ARG, a record that a step from 3 to 8 refuses is decided FAILED with
that step's code and nothing of the tables changes, a READ or WRITE that passes is ISSUING with the segments read and its
users raised, and a TABLE_READ takes its snapshot and issues its first buffer write, one at a time (log entry 10) and as one
host write for each segment it meets (log entry 64) (R30, R33, R50). That a list read which is not awaited does nothing is the
model's choice (log entry 2). -/
def Obligations.ListReadEndResumesTheChecks : Prop :=
  ∀ (x : CtxId) (s : State),
    (¬ ((s.ctx x).state = .loading ∧ (s.ctx x).listReading = true) → ∀ epoch read, exec (.listReadEnd x read epoch) s = .next s)
    ∧ ((s.ctx x).state = .loading → (s.ctx x).listReading = true → (s.ctx x).refusal = none →
      (∀ read, (s.ctx x).abortMark = true → ∃ t, exec (.listReadEnd x read s.lif.epoch) s = .next t
        ∧ (t.ctx x).state = .finishing ∧ (t.ctx x).final.map Prod.fst = some .cancelled ∧ t.regions = s.regions)
      ∧ ((s.ctx x).abortMark = false → ∃ t, exec (.listReadEnd x .busError s.lif.epoch) s = .next t
        ∧ (t.ctx x).state = .finishing ∧ (t.ctx x).final.map (fun f => (f.1, f.2.status)) = some (.failed, .hostMemory)
        ∧ t.regions = s.regions ∧ SameMedia s t)
      ∧ ∀ bs, (s.ctx x).abortMark = false →
        (segmentsOk (recKind (s.ctx x).record) (s.ctx x).record (segmentsOf (recSegCount (s.ctx x).record) bs) = false →
          ∃ t, exec (.listReadEnd x (.data bs) s.lif.epoch) s = .next t
            ∧ (t.ctx x).state = .finishing ∧ (t.ctx x).final.map (fun f => (f.1, f.2.status)) = some (.failed, .badArg)
            ∧ t.regions = s.regions ∧ SameMedia s t)
        ∧ (segmentsOk (recKind (s.ctx x).record) (s.ctx x).record (segmentsOf (recSegCount (s.ctx x).record) bs) = true →
          (∀ st, firstFail (accessChecks s (recKind (s.ctx x).record) (s.ctx x).record (s.ctx x).lane (s.ctx x).tableRight)
              = some st →
            ∃ t, exec (.listReadEnd x (.data bs) s.lif.epoch) s = .next t
              ∧ (t.ctx x).state = .finishing ∧ (t.ctx x).final.map (fun f => (f.1, f.2.status)) = some (.failed, st)
              ∧ t.regions = s.regions ∧ SameMedia s t ∧ SameDevice s t)
          ∧ (recKind (s.ctx x).record = .read ∨ recKind (s.ctx x).record = .write →
            firstFail (accessChecks s (recKind (s.ctx x).record) (s.ctx x).record (s.ctx x).lane (s.ctx x).tableRight)
              = none →
            recRegion (s.ctx x).record < 32 →
            ∃ t, exec (.listReadEnd x (.data bs) s.lif.epoch) s = .next t
              ∧ (t.ctx x).state = .issuing ∧ (t.ctx x).segs = segmentsOf (recSegCount (s.ctx x).record) bs
              ∧ (t.region (recRegion (s.ctx x).record)).users = (s.region (recRegion (s.ctx x).record)).users + 1
              ∧ SameMedia s t ∧ SameDevice s t)
          ∧ (recKind (s.ctx x).record = .tableRead → (s.ctx x).cursor = 0 →
            ∃ t snap, exec (.listReadEnd x (.data bs) s.lif.epoch) s = .next t
              ∧ snap = snapshot s (argSelector (s.ctx x).record) (argUnit (s.ctx x).record)
              ∧ (t.ctx x).snapGen = some (BitVec.ofNat 32 s.cme.gen)
              ∧ (t.ctx x).phase 0 = some .bufferWrite ∧ (t.ctx x).cursor = 1
              ∧ (t.ctx x).segs = segmentsOf (recSegCount (s.ctx x).record) bs
              ∧ t.out = s.out ++ pieceWrites (bufferPieces (t.ctx x).segs 0 (snap.take 4096).length) (snap.take 4096)
              ∧ t.regions = s.regions ∧ SameMedia s t ∧ SameDevice s t)))

/-- TAKE_BLOCK takes the block at the cursor and advances the cursor by one, in an ISSUING context below its count that has
learned no failure, is not aborted, has a free buffer and fewer than four steps outstanding (R61). The block gets the lowest
free staging buffer (R62; that it is the lowest is log entry 41): empty, or for a FILL with the pattern's 8 bytes 512 times
in record order, zeros with BLANK set (R45). A WRITE starts the host read of its bytes, a READ, VERIFY, DIGEST or COPY hands
its read step, now outstanding, to the channel, a FILL its program or clear step when the region is writable and no step was
refused, else the block fails PROTECTED (R61, R44, R45, R23; after a refused step whatever the region is: log entry 39). A
WRITE block of an OFFLINE unit fails UNIT_OFFLINE without a host read (R71; log entry 25). A block that fails leaves the
block table and its buffer is free again (R62). Then the context leaves ISSUING when its time has come (R54). That
TAKE_BLOCK in a context that may take no block changes nothing is the model's choice (log entry 2). -/
def Obligations.TakeBlockIssuesTheNextBlock : Prop :=
  ∀ (x : CtxId) (s : State),
    (canTakeBlock s x = true ↔ s.dev.state ≠ .halted ∧ (s.ctx x).state = .issuing ∧ recKind (s.ctx x).record ≠ .tableRead
      ∧ (s.ctx x).cursor < recCount (s.ctx x).record ∧ (s.ctx x).failure = none ∧ (s.ctx x).abortMark = false
      ∧ (∃ i : Fin 4, ((s.ctx x).bufs[i]).bound = none) ∧ (s.ctx x).outstandingSteps < 4)
    ∧ (canTakeBlock s x = false → exec (.takeBlock x) s = .next s)
    ∧ (canTakeBlock s x = true → ∀ i : Fin 4, ((s.ctx x).bufs[i]).bound = none →
      (∀ k : Fin 4, k < i → ((s.ctx x).bufs[k]).bound ≠ none) →
      (recKind (s.ctx x).record = .write → nextUnitOffline s x = false → ∃ t, exec (.takeBlock x) s = .next (runEvent (ctxSettle x t, []))
        ∧ (t.ctx x).cursor = (s.ctx x).cursor + 1
        ∧ (t.ctx x).blocks = (s.ctx x).blocks ++ [⟨(s.ctx x).cursor, .hostRead⟩]
        ∧ (t.ctx x).bufs = (s.ctx x).bufs.set i ⟨some (s.ctx x).cursor, none⟩
        ∧ t.out = s.out ++ pieceReads ((s.ctx x).pieces (s.ctx x).cursor) ∧ SameMedia s t ∧ t.lanes = s.lanes)
      ∧ (recKind (s.ctx x).record = .write → nextUnitOffline s x = true →
        ∃ t, exec (.takeBlock x) s = .next (runEvent (ctxSettle x t, []))
          ∧ (t.ctx x).cursor = (s.ctx x).cursor + 1 ∧ (t.ctx x).phase (s.ctx x).cursor = none
          ∧ (∀ k : Fin 4, (t.ctx x).bufs[k] = if k = i ∨ ((s.ctx x).bufs[k]).bound = some (s.ctx x).cursor then ⟨none, none⟩
              else (s.ctx x).bufs[k])
          ∧ (t.ctx x).failure = some ((s.ctx x).cursor, .unitOffline) ∧ t.out = s.out ∧ SameMedia s t ∧ t.lanes = s.lanes)
      ∧ (recKind (s.ctx x).record = .read ∨ recKind (s.ctx x).record = .verify ∨ recKind (s.ctx x).record = .digest
          ∨ recKind (s.ctx x).record = .copy →
        ∃ t, exec (.takeBlock x) s = .next (runEvent (ctxSettle x t, [.foregroundArrives x (s.ctx x).cursor .read]))
          ∧ (t.ctx x).phase (s.ctx x).cursor = some (.outstanding .read)
          ∧ (t.ctx x).bufs = (s.ctx x).bufs.set i ⟨some (s.ctx x).cursor, none⟩
          ∧ (∀ j, j ≠ (s.ctx x).cursor → (t.ctx x).phase j = (s.ctx x).phase j)
          ∧ (t.ctx x).cursor = (s.ctx x).cursor + 1 ∧ t.out = s.out ∧ SameMedia s t ∧ t.lanes = s.lanes)
      ∧ (recKind (s.ctx x).record = .fill → (s.region (recRegion (s.ctx x).record)).writable = true →
        (s.ctx x).stepRefused = false →
        ∃ t, exec (.takeBlock x) s
            = .next (runEvent (ctxSettle x t, [.foregroundArrives x (s.ctx x).cursor
                (if recBlank (s.ctx x).record then .clear else .program)]))
          ∧ (t.ctx x).phase (s.ctx x).cursor
            = some (.outstanding (if recBlank (s.ctx x).record then .clear else .program))
          ∧ (t.ctx x).bufs = (s.ctx x).bufs.set i ⟨some (s.ctx x).cursor,
              some (if recBlank (s.ctx x).record then List.replicate 4096 0
                else (List.replicate 512 ((List.range 8).map fun k => byteAt (s.ctx x).record (24 + k))).flatten)⟩
          ∧ (∀ j, j ≠ (s.ctx x).cursor → (t.ctx x).phase j = (s.ctx x).phase j)
          ∧ (t.ctx x).cursor = (s.ctx x).cursor + 1 ∧ t.out = s.out ∧ SameMedia s t ∧ t.lanes = s.lanes)
      ∧ (recKind (s.ctx x).record = .fill →
        (s.region (recRegion (s.ctx x).record)).writable = false ∨ (s.ctx x).stepRefused = true →
        ∃ t, exec (.takeBlock x) s = .next (runEvent (ctxSettle x t, []))
          ∧ (t.ctx x).cursor = (s.ctx x).cursor + 1 ∧ (t.ctx x).phase (s.ctx x).cursor = none
          ∧ (∀ k : Fin 4, (t.ctx x).bufs[k] = if k = i ∨ ((s.ctx x).bufs[k]).bound = some (s.ctx x).cursor then ⟨none, none⟩
              else (s.ctx x).bufs[k])
          ∧ (t.ctx x).failure = some ((s.ctx x).cursor, .isProtected) ∧ (t.ctx x).stepRefused = true
          ∧ t.out = s.out ∧ SameMedia s t ∧ t.lanes = s.lanes))

/-- HOST_READ_END of a WRITE block: its data goes to its staging buffer and its program step to the channel when the region is
writable and no step was refused, else the block fails PROTECTED; a bus error fails it HOST_MEMORY and issues nothing (R23,
R44). With the abort mark set, or a lower block's read failed, it ends without success or failure (R67); for the lower block
that is log entry 13, and that blocks taken before a refused step fail PROTECTED whatever the region is by then is log entry
39. BUFFER_WRITE_END of a READ block: without error the block ends and counts in blocks_ok, with one it fails HOST_MEMORY
(R37, R38, R63; that the completion counts as the acceptance is log entry 31). Of a TABLE_READ: without error its bytes count
and the next 4,096 bytes of the snapshot go out, until none are left, or at once when the record is aborted or has failed
(R67); with one the record fails HOST_MEMORY and writes no more (R50; one write at a time is log entry 10, a chunk over
several segments ending as one write log entry 64). A block that ends leaves its buffer free (R62). That an end which is not
awaited does nothing is the model's choice (log entry 2), and that the accesses are told apart by epoch is log entry 75. -/
def Obligations.HostAccessesEndTheirBlocks : Prop :=
  (∀ (x : CtxId) (j : Nat) (s : State),
      ((s.ctx x).phase j ≠ some .hostRead → ∀ epoch read, exec (.hostReadEnd x j read epoch) s = .next s)
      ∧ ((s.ctx x).phase j = some .hostRead → (s.ctx x).abortMark = true ∨ (s.ctx x).hostFailedBelow j = true →
        ∀ read, ∃ t, exec (.hostReadEnd x j read s.lif.epoch) s = .next (runEvent (ctxSettle x t, []))
          ∧ BlockGone x j s t ∧ (t.ctx x).failure = (s.ctx x).failure ∧ (t.ctx x).blocksOk = (s.ctx x).blocksOk
          ∧ t.out = s.out ∧ SameMedia s t ∧ SameDevice s t ∧ t.lanes = s.lanes)
      ∧ ((s.ctx x).phase j = some .hostRead → (s.ctx x).abortMark = false → (s.ctx x).hostFailedBelow j = false →
        (∀ bs, (s.region (writeRegion (s.ctx x).record)).writable = true → (s.ctx x).stepRefused = false →
          ∃ t, exec (.hostReadEnd x j (.data bs) s.lif.epoch) s = .next (runEvent (t, [.foregroundArrives x j .program]))
            ∧ (t.ctx x).phase j = some (.outstanding .program)
            ∧ (∀ i : Fin 4, ((s.ctx x).bufs[i]).bound = some j →
              (t.ctx x).bufs[i] = ⟨some j, some bs⟩ ∧ (t.ctx x).bufferData j = bs)
            ∧ (∀ i : Fin 4, ((s.ctx x).bufs[i]).bound ≠ some j → (t.ctx x).bufs[i] = (s.ctx x).bufs[i])
            ∧ t.out = s.out ∧ SameMedia s t ∧ SameDevice s t ∧ t.lanes = s.lanes
            ∧ ∀ y, y ≠ x → t.ctx y = s.ctx y)
        ∧ (∀ bs, (s.region (writeRegion (s.ctx x).record)).writable = false ∨ (s.ctx x).stepRefused = true →
          ∃ t, exec (.hostReadEnd x j (.data bs) s.lif.epoch) s = .next (runEvent (ctxSettle x t, []))
            ∧ (t.ctx x).failure = lowerFailure (s.ctx x).failure j .isProtected ∧ (t.ctx x).stepRefused = true
            ∧ BlockGone x j s t ∧ t.out = s.out ∧ SameMedia s t)
        ∧ ∃ t, exec (.hostReadEnd x j .busError s.lif.epoch) s = .next (runEvent (ctxSettle x t, []))
            ∧ (t.ctx x).failure = lowerFailure (s.ctx x).failure j .hostMemory ∧ BlockGone x j s t
            ∧ t.out = s.out ∧ SameMedia s t))
    ∧ (∀ (x : CtxId) (j : Nat) (s : State),
      ((s.ctx x).phase j ≠ some .bufferWrite → ∀ epoch error, exec (.bufferWriteEnd x j error epoch) s = .next s)
      ∧ ((s.ctx x).phase j = some .bufferWrite → recKind (s.ctx x).record = .read →
        (∃ t, exec (.bufferWriteEnd x j false s.lif.epoch) s = .next (ctxSettle x t)
          ∧ (t.ctx x).blocksOk = (s.ctx x).blocksOk + 1 ∧ (t.ctx x).failure = (s.ctx x).failure
          ∧ BlockGone x j s t ∧ t.regions = s.regions ∧ SameMedia s t ∧ SameDevice s t ∧ t.lanes = s.lanes
          ∧ t.out = s.out)
        ∧ (∃ t, exec (.bufferWriteEnd x j true s.lif.epoch) s = .next (ctxSettle x t)
          ∧ (t.ctx x).blocksOk = (s.ctx x).blocksOk ∧ (t.ctx x).failure = lowerFailure (s.ctx x).failure j .hostMemory
          ∧ BlockGone x j s t ∧ t.regions = s.regions ∧ SameMedia s t ∧ SameDevice s t ∧ t.lanes = s.lanes
          ∧ t.out = s.out))
      ∧ ((s.ctx x).phase j = some .bufferWrite → recKind (s.ctx x).record = .tableRead →
        (∃ t, exec (.bufferWriteEnd x j true s.lif.epoch) s = .next (ctxSettle x t)
          ∧ (t.ctx x).otherFail = some .hostMemory ∧ (t.ctx x).written = (s.ctx x).written ∧ (t.ctx x).blocks = []
          ∧ t.out = s.out ∧ t.regions = s.regions ∧ SameMedia s t)
        ∧ ((s.ctx x).abortMark = true ∨ (s.ctx x).failure ≠ none ∨ (s.ctx x).otherFail ≠ none →
          ∃ t, exec (.bufferWriteEnd x j false s.lif.epoch) s = .next (ctxSettle x t)
            ∧ (t.ctx x).written = (s.ctx x).written + min 4096 ((s.ctx x).snapSize - 4096 * j) ∧ (t.ctx x).blocks = []
            ∧ (t.ctx x).otherFail = (s.ctx x).otherFail ∧ (t.ctx x).failure = (s.ctx x).failure
            ∧ (t.ctx x).abortMark = (s.ctx x).abortMark ∧ t.out = s.out ∧ t.regions = s.regions ∧ SameMedia s t)
        ∧ ((s.ctx x).abortMark = false → (s.ctx x).failure = none → (s.ctx x).otherFail = none →
          ((s.ctx x).snapSize ≤ (s.ctx x).cursor * 4096 →
            ∃ t, exec (.bufferWriteEnd x j false s.lif.epoch) s = .next (ctxSettle x t)
              ∧ (t.ctx x).written = (s.ctx x).written + min 4096 ((s.ctx x).snapSize - 4096 * j) ∧ (t.ctx x).blocks = []
              ∧ t.out = s.out ∧ t.regions = s.regions ∧ SameMedia s t)
          ∧ ((s.ctx x).cursor * 4096 < (s.ctx x).snapSize →
            ∃ t data, exec (.bufferWriteEnd x j false s.lif.epoch) s
                = .next ((ctxSettle x t).emit (pieceWrites
                    (bufferPieces (s.ctx x).segs (4096 * (s.ctx x).cursor) data.length) data))
              ∧ data = (s.ctx x).bufferData (s.ctx x).cursor
              ∧ (t.ctx x).written = (s.ctx x).written + min 4096 ((s.ctx x).snapSize - 4096 * j)
              ∧ (t.ctx x).cursor = (s.ctx x).cursor + 1 ∧ (t.ctx x).blocks = [⟨(s.ctx x).cursor, .bufferWrite⟩]
              ∧ t.out = s.out ∧ t.regions = s.regions ∧ SameMedia s t))))

/-- FINAL_WRITE of a FINISHING context outside HALTED: device part (as two writes: log entry 65) and then the final state
byte go out, the context is FREE with every field cleared, and the users count of each region it raised is one down; other
contexts and the media are unchanged (R36, R66, R9). Its lane, unless DRAINING, has the record final in its window and
retires the run of final records with their links read at the window's head (R168, R169). HALTED writes nothing (R70, R198);
that FINAL_WRITE of a context that is not FINISHING does nothing is the model's choice (log entry 2). A context that enters
FINISHING has no block and its buffers free, and decides its record (R34, R35, R62, R66): refused, FAILED with that code;
else aborted, CANCELLED and ABORTED; else FAILED with the code of the lowest failed block; else FAILED with a failure beside
the blocks; else DONE, OK. The device part holds the counts, the start stamp, the tick as end stamp, as first_fail of a
FAILED data record 0 when it was refused, the lowest failed block when one failed, and all ones else, and the result word of
its operation (R34, R49, R50). When a context may leave its state it does so (R54, R65): one that takes no further block, or
is DRAINING_STEPS or in COMMIT_WAIT, enters FINISHING with nothing left, stays in COMMIT_WAIT, enters it when, not aborted
and waiting for no pass, every block left awaits a commit, and is DRAINING_STEPS else. In HALTED it keeps its state, the
buffers of blocks waiting to fold with it (log entry 71), and a warm reset, that alone (log entry 72), frees it once nothing
is left, its users down (R70). -/
def Obligations.FinalWriteFreesTheContext : Prop :=
  (∀ (x : CtxId) (s : State),
    ((s.ctx x).state ≠ .finishing ∨ (s.ctx x).final = none ∨ s.dev.state = .halted → exec (.finalWrite x) s = .next s)
    ∧ ∀ fs part, (s.ctx x).state = .finishing → (s.ctx x).final = some (fs, part) → s.dev.state ≠ .halted →
      ∃ t, exec (.finalWrite x) s = .next t
        ∧ t.out = s.out ++ resultWrites (s.ctx x).addr part fs
        ∧ t.ctx x = Context.empty ∧ (∀ y, y ≠ x → t.ctx y = s.ctx y)
        ∧ ((s.ctx x).raised.Nodup → ∀ i, t.region i
            = { s.region i with users := (s.region i).users - (if i ∈ (s.ctx x).raised then 1 else 0) })
        ∧ SameMedia s t ∧ t.dar = s.dar ∧ t.tick = s.tick ∧ t.lockdown = s.lockdown
        ∧ ∀ l window run, l = (s.ctx x).lane → (s.lane l).state ≠ .draining →
          window = (s.lane l).window.map (fun r => if r.cond = .running x then { r with cond := .final fs } else r) →
          run = window.takeWhile (fun r => r.isFinal && r.linkRead) →
          (t.lane l).window = window.drop run.length ∧ (t.lane l).retireSeq = lastSeq (s.lane l).retireSeq run
            ∧ (t.lane l).state = (s.lane l).state ∧ (t.lane l).reading = (s.lane l).reading)
  ∧ (∀ (x : CtxId) (s : State), ∃ fs part,
      ((enterFinishing x s).ctx x).state = .finishing ∧ ((enterFinishing x s).ctx x).final = some (fs, part)
      ∧ ((enterFinishing x s).ctx x).blocks = [] ∧ (∀ i : Fin 4, ((enterFinishing x s).ctx x).bufs[i] = ⟨none, none⟩)
      ∧ (∀ st, (s.ctx x).refusal = some st → fs = .failed ∧ part.status = st)
      ∧ ((s.ctx x).refusal = none →
        ((s.ctx x).abortMark = true → fs = .cancelled ∧ part.status = .aborted)
        ∧ ((s.ctx x).abortMark = false →
          (∀ j st, (s.ctx x).failure = some (j, st) → fs = .failed ∧ part.status = st)
          ∧ ((s.ctx x).failure = none →
            (∀ st, (s.ctx x).otherFail = some st → fs = .failed ∧ part.status = st)
            ∧ ((s.ctx x).otherFail = none → fs = .done ∧ part.status = .ok))))
      ∧ part.blocksOk = (s.ctx x).blocksOk ∧ part.corrected = (s.ctx x).corrected ∧ part.weak = (s.ctx x).weak
      ∧ part.startStamp = (s.ctx x).startStamp ∧ part.endStamp = s.tick
      ∧ (fs ≠ .failed ∨ (recKind (s.ctx x).record).isData = false → part.firstFail = BitVec.allOnes 32)
      ∧ (fs = .failed → (recKind (s.ctx x).record).isData = true →
        ((s.ctx x).refusal.isSome = true → part.firstFail = 0)
        ∧ (∀ j st, (s.ctx x).refusal = none → (s.ctx x).failure = some (j, st) → part.firstFail = BitVec.ofNat 32 j))
      ∧ part.result = (match recKind (s.ctx x).record with
        | .digest => if fs = .done then (~~~(s.ctx x).crc).setWidth 64 else 0
        | .verify => BitVec.ofNat 64 (s.ctx x).moveReqs
        | .relocate => if fs = .done then (s.ctx x).result else BitVec.allOnes 64
        | .tableRead => match (s.ctx x).snapGen with | some g => g ++ BitVec.ofNat 32 (s.ctx x).written | none => 0
        | .startPass | .stopPass => if fs = .done then (s.ctx x).result else 0
        | .setPatrol => if (s.ctx x).refusal ≠ none ∨ fs = .cancelled then 0 else BitVec.ofNat 64 s.cme.gen
        | .regionDefine | .regionDelete | .regionGuard | .regionRelease | .regionFix | .lockdown => BitVec.ofNat 64 s.cme.gen
        | .read | .write | .fill | .copy | .barrier | .badOp => 0)
      ∧ (enterFinishing x s).regions = s.regions ∧ SameMedia s (enterFinishing x s) ∧ SameDevice s (enterFinishing x s)
      ∧ ∀ y, y ≠ x → (enterFinishing x s).ctx y = s.ctx y)
  ∧ ∀ (x : CtxId) (s : State),
    ((s.ctx x).state = .free → ctxSettle x s = s)
    ∧ (s.dev.state ≠ .halted →
      ((s.ctx x).state = .loading ∨ (s.ctx x).state = .finishing → ctxSettle x s = s)
      ∧ ((s.ctx x).state = .issuing → ¬ IssueOver (s.ctx x) → ctxSettle x s = s)
      ∧ (((s.ctx x).state = .issuing ∧ IssueOver (s.ctx x)) ∨ (s.ctx x).state = .drainingSteps ∨ (s.ctx x).state = .commitWait →
        (NothingLeft (s.ctx x) → ctxSettle x s = enterFinishing x s)
        ∧ (¬ NothingLeft (s.ctx x) → ∀ waits : Bool,
          (waits = true ↔ (s.ctx x).state = .commitWait
            ∨ ((∀ b ∈ (s.ctx x).blocks, b.phase = .awaitCommit ∨ b.phase = .fold) ∧ (s.ctx x).abortMark = false
              ∧ (s.ctx x).waitPass = false)) →
          ctxSettle x s = s.setCtx x { s.ctx x with state := if waits then .commitWait else .drainingSteps })))
    ∧ (s.dev.state = .halted → (s.ctx x).state ≠ .free →
      (s.dev.resetInProgress = false ∨ ¬ NothingLeft (s.ctx x) ∨ (s.ctx x).listReading = true → ctxSettle x s = s)
      ∧ (s.dev.resetInProgress = true → NothingLeft (s.ctx x) → (s.ctx x).listReading = false →
        (ctxSettle x s).ctx x = Context.empty ∧ (∀ y, y ≠ x → (ctxSettle x s).ctx y = s.ctx y)
        ∧ ((s.ctx x).raised.Nodup → ∀ i, (ctxSettle x s).region i
            = { s.region i with users := (s.region i).users - (if i ∈ (s.ctx x).raised then 1 else 0) })
        ∧ SameMedia s (ctxSettle x s) ∧ SameDevice s (ctxSettle x s) ∧ (ctxSettle x s).lanes = s.lanes
        ∧ (ctxSettle x s).out = s.out))

/-- RESULT_ERROR and DEVICE_AREA_ERROR halt a RUNNING, STOPPING or STOPPED device with their code as fault code: a RUN pending
is withdrawn, the write list is empty, the hold timers are stopped with the routes' states kept (R36, R180, R198). Without a
warm reset in progress every context that is not FREE has the abort mark and keeps its state; its held steps are withdrawn and
its host accesses no longer waited for, the buffers of both free (R70; that its other buffers stay bound is log entry 71).
Held steps leave every lock's list, in a warm reset too (R70). During one the device is HALTED with the reset still in
progress, unless its work is now over: then it ends STOPPED with fault none and anchor 0 (R199, R200). In PROBING and HALTED
they do nothing. That the error comes in any of these states is log entry 29; that no lane has a read in flight after the
halt, its outcome being discarded (R176), is log entry 15; that DEVICE_AREA_ERROR without a write in flight does nothing is
log entry 2. The halt, as a cold reset, begins a new epoch: the end of a host access issued before it does nothing, whenever
it comes, a bus error too (R70, R176, R198, R201; told apart by epoch: log entry 75). -/
def Obligations.WriteErrorsHaltTheDevice : Prop :=
  ∀ s : State,
    (haltsTaken s = false → ∀ epoch, exec (.resultError epoch) s = .next s ∧ exec (.deviceAreaError epoch) s = .next s)
    ∧ (s.ntu.handed = 0 → ∀ epoch, exec (.deviceAreaError epoch) s = .next s)
    ∧ (∀ c epoch, issuedIn c = some epoch → epoch ≠ s.lif.epoch → exec c s = .next s)
    ∧ (haltsTaken s = true → s.dev.resetInProgress = false →
      ∀ c cause, (c = .resultError s.lif.epoch ∧ cause = .resultError)
        ∨ (c = .deviceAreaError s.lif.epoch ∧ cause = .deviceAreaError ∧ 0 < s.ntu.handed) →
      ∃ t, exec c s = .next t
        ∧ t.dev = { s.dev with state := .halted, fault := cause, runPending := false }
        ∧ t.lif = ⟨s.lif.settingsReads, s.lif.epoch + 1⟩
        ∧ t.ntu.writes = [] ∧ t.ntu.handed = 0 ∧ (∀ r, t.route r = { s.route r with timer := none })
        ∧ (∀ l, t.lane l = { s.lane l with reading := none, poll := none })
        ∧ (∀ x, (s.ctx x).state ≠ .free → (t.ctx x).abortMark = true ∧ (t.ctx x).state = (s.ctx x).state)
        ∧ (∀ x, (s.ctx x).state = .free → t.ctx x = s.ctx x)
        ∧ (∀ x, (s.ctx x).state ≠ .free → (t.ctx x).listReading = false ∧ (t.ctx x).failure = (s.ctx x).failure
          ∧ (t.ctx x).blocksOk = (s.ctx x).blocksOk
          ∧ BlocksDropped (fun p => match p with | .held _ | .hostRead | .bufferWrite => true | _ => false) (s.ctx x) (t.ctx x))
        ∧ (∀ u, t.chan u = { s.chan u with
          locks := (s.chan u).locks.map fun k => { k with held := k.held.filter fun h => (s.ctx h.1).state == .free } })
        ∧ t.anchor = s.anchor ∧ t.tick = s.tick ∧ t.out = s.out ∧ t.cme = s.cme ∧ t.rlts = s.rlts
        ∧ t.patrol = s.patrol ∧ t.log = s.log ∧ t.lockdown = s.lockdown)
    ∧ (haltsTaken s = true → s.dev.resetInProgress = true →
      ∀ c cause, (c = .resultError s.lif.epoch ∧ cause = .resultError)
        ∨ (c = .deviceAreaError s.lif.epoch ∧ cause = .deviceAreaError ∧ 0 < s.ntu.handed) →
      ∃ t, exec c s = .next t ∧ t.lif = ⟨s.lif.settingsReads, s.lif.epoch + 1⟩ ∧ t.ntu.writes = [] ∧ t.ntu.handed = 0
        ∧ t.tick = s.tick ∧ t.out = s.out ∧ t.cme = s.cme
        ∧ t.rlts = s.rlts ∧ t.patrol = s.patrol ∧ t.log = s.log ∧ t.lockdown = s.lockdown
        ∧ (∀ u, t.chan u = { s.chan u with
          locks := (s.chan u).locks.map fun k => { k with held := k.held.filter fun h => (s.ctx h.1).state == .free } })
        ∧ (ResetWorkOver True t →
          t.dev = { s.dev with state := .stopped, fault := .none, runPending := false, resetInProgress := false }
            ∧ t.anchor = 0 ∧ t.anchorHigh = 0)
        ∧ (¬ ResetWorkOver True t →
          t.dev = { s.dev with state := .halted, fault := cause, runPending := false }
            ∧ t.anchor = s.anchor ∧ t.anchorHigh = s.anchorHigh))

/-! ### Channels -/

/-- A COMMIT or MOVE entry at an OFFLINE unit ends UNIT_OFFLINE, to its source; else it joins the queue's tail (R78). A
FOREGROUND entry, tests in order (R77): at an OFFLINE unit it ends UNIT_OFFLINE; on a locked block it is HELD, last on the
lock's list, or withdrawn when aborted (R64, R89; log entry 33); with fewer than three in the queue and nobody waiting it
joins the queue, else the waiting list. An idle channel performs the oldest COMMIT entry, else the oldest MOVE entry ready (a
move read needs the move buffer free), else the oldest FOREGROUND entry, or nothing (R80, R83): its command goes to the spare
of a live entry, a COMMIT's and a MOVE program's to the block named (R82). A program carries the image block of the copy
written, the data of its move, or the context's buffer (R72, R83, R146). A FOREGROUND program or clear makes a mark on its
block REWRITTEN (R87). A FOREGROUND or MOVE read of a poisoned block ends POISONED without a command, not as performed on a
spare (R82; log entry 47), and the channel selects again. A move's start (R88, R106): at an OFFLINE unit abandoned
UNIT_OFFLINE; a finding whose block was rewritten is DROPPED; behind a FOREGROUND entry performed on its block it waits; else
the block is locked, its queued and waiting FOREGROUND entries are returned in order, HELD or withdrawn, and the first entry
arrives: the clear of a READ_LOST move, the program (the clear, of a failed clear) of a PROGRAM_FAIL move, the read of any
other. A finding's start removes the mark, a lost one's raises DATA_LOST (R117); another move's lock makes it REWRITTEN (R87).
A move that ends leaves its slot; its lock, entries and buffer go with it; held steps are released in order (R89). An emptied
queue is reported quiet before these and before a POISONED move read's end (R79; log entry 21). Each held step is issued
again, a program or clear after the test of R23 (R64; a read despite a refused step: log entry 38; PROTECTED after one: 39;
after a failed host read: 48). -/
def Obligations.CommitAndMoveEntriesJoinOrEnd : Prop :=
  (∀ (u : UnitId) (mid b : Nat) (cmd : StepCmd) (s : State),
    ((s.chan u).state = .offline →
      handle (.moveEntryArrives u mid cmd b) s
          = (s, [if cmd = .read then .moveReadEnds u mid .offline false else .moveWriteEnds u mid .offline])
        ∧ handle (.commitEntryArrives u cmd b) s
          = (s, [if cmd = .read then .loadReadEnds u none else .copyEnds u (.offline false)]))
    ∧ ((s.chan u).state ≠ .offline →
      handle (.moveEntryArrives u mid cmd b) s
          = (s.setChan u { s.chan u with queue := (s.chan u).queue ++ [⟨.move mid, cmd, b⟩] }, [.select u])
        ∧ handle (.commitEntryArrives u cmd b) s
          = (s.setChan u { s.chan u with queue := (s.chan u).queue ++ [⟨.commit, cmd, b⟩] }, [.select u])))
  ∧ (∀ (x : CtxId) (j L : Nat) (cmd : StepCmd) (s : State) (u : UnitId) (e : QEntry),
      L = (if cmd = .read then (s.ctx x).srcBase + j else (s.ctx x).dstBase + j) → u = s.unitOf L →
      e = ⟨.foreground x j (s.ctx x).lane (stepRegion (s.ctx x).record cmd) (moveOnWeak (s.ctx x).record), cmd, s.blockOf L⟩ →
      ((s.chan u).state = .offline → handle (.foregroundArrives x j cmd) s = (s, [.stepEnds x j .offline false]))
      ∧ ((s.chan u).state ≠ .offline → ((s.chan u).lockOn e.block).isSome = true →
        ((s.ctx x).abortMark = false → (s.ctx x).phase j ≠ none → ∃ t, handle (.foregroundArrives x j cmd) s = (t, [])
          ∧ (t.ctx x).phase j = some (.held cmd)
          ∧ (t.chan u).locks = (s.chan u).locks.map (fun k =>
              if k.block = e.block then { k with held := k.held ++ [(x, j)] } else k)
          ∧ (t.chan u).queue = (s.chan u).queue ∧ (t.chan u).waiting = (s.chan u).waiting)
        ∧ ((s.ctx x).abortMark = true → ∃ t, handle (.foregroundArrives x j cmd) s = (ctxSettle x t, [])
          ∧ BlockGone x j s t ∧ (t.ctx x).failure = (s.ctx x).failure ∧ (t.ctx x).blocksOk = (s.ctx x).blocksOk
          ∧ (t.chan u).locks.map Lock.held = (s.chan u).locks.map Lock.held))
      ∧ ((s.chan u).state ≠ .offline → (s.chan u).lockOn e.block = none →
        (((s.chan u).performing.toList ++ (s.chan u).queue).countP QEntry.isForeground < 3 → (s.chan u).waiting = [] →
          handle (.foregroundArrives x j cmd) s
            = (s.setChan u { s.chan u with queue := (s.chan u).queue ++ [e] }, [.select u]))
        ∧ (3 ≤ ((s.chan u).performing.toList ++ (s.chan u).queue).countP QEntry.isForeground ∨ (s.chan u).waiting ≠ [] →
          handle (.foregroundArrives x j cmd) s
            = (s.setChan u { s.chan u with waiting := (s.chan u).waiting ++ [e] }, []))))
  ∧ (∀ r : Bytes, moveOnWeak r = true ↔ recKind r = .read ∨ recKind r = .digest ∨ recKind r = .copy
      ∨ (recKind r = .verify ∧ recRelocateWeak r = true))
  ∧ (∀ (u : UnitId) (e : QEntry) (s : State),
      (e.cmd ≠ .program → programData s u e = [])
      ∧ (∀ x j lane region weak, e.cmd = .program → e.source = .foreground x j lane region weak →
        programData s u e = (s.ctx x).bufferData j)
      ∧ (∀ f k, e.cmd = .program → e.source = .commit → s.cme.inFlight = some f →
        f.copies.find? (fun c => c.media == u) = some k →
        programData s u e = copyBlock f.image u k.slot (e.block - (match k.slot with | .a => 66560 | .b => 66576)))
      ∧ ∀ mid m, e.cmd = .program → e.source = .move mid → (s.rlt u).move mid = some m →
        (∀ x j, m.req.dataFrom = some (x, j) → programData s u e = (s.ctx x).bufferData j)
        ∧ ∀ b d, m.req.dataFrom = none → (s.chan u).moveBuf = some ⟨b, some d⟩ → programData s u e = d)
  ∧ (∀ (c : Channel) (e : QEntry), c.choose = some e →
      ∃ older newer, c.queue = older ++ e :: newer
        ∧ ((e.isCommit = true ∧ ∀ p ∈ older, p.isCommit = false)
          ∨ ((∀ p ∈ c.queue, p.isCommit = false) ∧ c.moveReady e = true ∧ ∀ p ∈ older, c.moveReady p = false)
          ∨ ((∀ p ∈ c.queue, p.isCommit = false ∧ c.moveReady p = false) ∧ e.isForeground = true
            ∧ ∀ p ∈ older, p.isForeground = false)))
  ∧ (∀ c : Channel, c.choose = none ↔ ∀ p ∈ c.queue, p.isCommit = false ∧ c.moveReady p = false ∧ p.isForeground = false)
  ∧ (∀ (c : Channel) (e : QEntry), c.moveReady e = true ↔ e.isMove = true ∧ (e.cmd = .read → c.moveBuf = none))
  ∧ (∀ (u : UnitId) (s : State),
      ((s.chan u).link ≠ .idle ∨ (s.chan u).choose = none → handle (.select u) s = (s, []))
      ∧ ∀ e, (s.chan u).link = .idle → (s.chan u).choose = some e →
        (e.isCommit = true ∨ e.cmd ≠ .read ∨ (s.rlt u).table.poisoned e.block = false → e.isPatrol = false →
          ∃ t target, handle (.select u) s = (t, [])
            ∧ target = (if e.isCommit = true ∨ (e.isMove = true ∧ e.cmd ≠ .read) then e.block
              else (s.rlt u).table.target e.block)
            ∧ (t.chan u).performing = some e ∧ (t.chan u).queue = (s.chan u).queue.erase e
            ∧ (t.chan u).sent = (s.chan u).sent + 1
            ∧ (t.chan u).link = .performing e target false ((s.chan u).sent + 1) (s.tick + 2000) (programData s u e)
                (e.isForeground && (s.rlt u).table.poisoned e.block)
            ∧ t.out = s.out ++ [.media u ((s.chan u).sent + 1) (mediaCommand e.cmd target (programData s u e))]
            ∧ (∀ mid, e.source = .move mid → e.cmd = .read → (t.chan u).moveBuf = some ⟨mid, none⟩)
            ∧ (t.chan u).marks = (if e.isForeground = true ∧ e.cmd ≠ .read then
                (s.chan u).marks.map fun k => if k.1 = e.block then (e.block, .rewritten) else k
              else (s.chan u).marks)
            ∧ ∀ v, v ≠ u → t.chan v = s.chan v)
        ∧ (e.cmd = .read → (s.rlt u).table.poisoned e.block = true →
          (∀ x j lane region weak, e.source = .foreground x j lane region weak →
            ∃ t, handle (.select u) s
                = (t, [.stepEnds x j (.read .poisoned false false []) false, .select u, .quiet u])
              ∧ (t.chan u).link = .idle ∧ t.out = s.out ∧ (t.chan u).lastDeparture = some s.tick
              ∧ (t.chan u).queue = (s.chan u).queue.erase e ++ (s.chan u).waiting.take 1
              ∧ (t.chan u).waiting = (s.chan u).waiting.drop 1)
          ∧ (∀ mid, e.source = .move mid →
            ∃ t, handle (.select u) s = (t, [.select u, .quiet u, .moveReadEnds u mid .poisoned false])
              ∧ (t.chan u).link = .idle ∧ t.out = s.out ∧ (t.chan u).queue = (s.chan u).queue.erase e)))
  ∧ (∀ (u : UnitId) (mid : Nat) (s : State) (m : Move), (s.rlt u).move mid = some m → m.state = .starting → m.mid = mid →
      ((s.chan u).state = .offline → handle (.moveStart u mid) s = abandonMove u m .unitOffline s)
      ∧ ((s.chan u).state ≠ .offline →
        (m.req.finding ≠ none → (s.chan u).markOn m.req.src = some .rewritten →
          handle (.moveStart u mid) s = startDropped u m (s.setChan u ((s.chan u).dropMark m.req.src)))
        ∧ (m.req.finding = none ∨ (s.chan u).markOn m.req.src ≠ some .rewritten →
          ((∃ e, (s.chan u).performing = some e ∧ e.isForeground = true ∧ e.block = m.req.src) →
            ∃ t, handle (.moveStart u mid) s = (t, []) ∧ (t.chan u).locks = (s.chan u).locks ∧ t.rlts = s.rlts
              ∧ (t.chan u).marks = (if m.req.finding = none then (s.chan u).marks
                else (s.chan u).marks.filter fun k => k.1 != m.req.src)
              ∧ (t.chan u).queue = (s.chan u).queue)
          ∧ ((∀ e, (s.chan u).performing = some e → e.isForeground = true → e.block ≠ m.req.src) →
            ∃ t steps lock, handle (.moveStart u mid) s
                = (t, [if m.req.cause = .readLost ∨ (m.req.cause = .programFail ∧ m.req.blank = true) then
                    .moveEntryArrives u mid .clear (65536 + m.spare)
                  else if m.req.cause = .programFail then .moveEntryArrives u mid .program (65536 + m.spare)
                  else .moveEntryArrives u mid .read m.req.src])
              ∧ steps = (((s.chan u).queue ++ (s.chan u).waiting).filter fun e => e.foregroundOn m.req.src).filterMap
                  QEntry.step?
              ∧ (t.chan u).locks = (s.chan u).locks ++ [lock] ∧ lock.block = m.req.src ∧ lock.mid = mid
              ∧ lock.held = (steps.map fun h => (h.1, h.2.1)).filter (fun h => !(s.ctx h.1).abortMark)
              ∧ (t.chan u).queue ++ (t.chan u).waiting
                = ((s.chan u).queue ++ (s.chan u).waiting).filter (fun e => !e.foregroundOn m.req.src)
              ∧ (t.chan u).marks = (if m.req.finding = none then
                  (s.chan u).marks.map fun k => if k.1 = m.req.src then (m.req.src, .rewritten) else k
                else (s.chan u).marks.filter fun k => k.1 != m.req.src)
              ∧ t.ntu = (if m.req.finding.any (fun tag => tag.lost) then postDataLost u m.req.src 2 none s else s).ntu
              ∧ (t.rlt u).moves = (s.rlt u).moves.map (fun k => if k.mid = mid then
                  { m with state := if m.req.cause = .programFail ∨ m.req.cause = .readLost then .writing else .reading }
                else k)))))
  ∧ (∀ (u : UnitId) (mid : Nat) (s : State), ∃ t, leaveSlot u mid s
        = (t, .select u :: (if (t.chan u).quiet = true ∧ (s.chan u).quiet = false then [.quiet u] else [])
          ++ (((s.chan u).locks.filter fun k => k.mid == mid).flatMap Lock.held).map (fun h => .reissue h.1 h.2))
      ∧ t.chan u = withoutMoves [mid] (s.chan u)
      ∧ t.rlt u = { s.rlt u with moves := (s.rlt u).moves.filter fun k => k.mid != mid }
      ∧ (∀ v, v ≠ u → t.chan v = s.chan v ∧ t.rlt v = s.rlt v) ∧ t.ctxs = s.ctxs ∧ t.out = s.out ∧ t.cme = s.cme)
  ∧ (∀ (x : CtxId) (j : Nat) (s : State),
      ((s.ctx x).phase j = some (.held .read) → handle (.reissue x j) s
          = (s.setCtx x ((s.ctx x).setPhase j (.outstanding .read)), [.foregroundArrives x j .read]))
      ∧ ∀ cmd, cmd ≠ .read → (s.ctx x).phase j = some (.held cmd) →
        ((s.region (writeRegion (s.ctx x).record)).writable = true → (s.ctx x).stepRefused = false →
          handle (.reissue x j) s
            = (s.setCtx x ((s.ctx x).setPhase j (.outstanding cmd)), [.foregroundArrives x j cmd]))
        ∧ ((s.region (writeRegion (s.ctx x).record)).writable = false ∨ (s.ctx x).stepRefused = true →
          ∃ t, handle (.reissue x j) s = (ctxSettle x t, []) ∧ BlockGone x j s t
            ∧ (t.ctx x).failure = lowerFailure (s.ctx x).failure j .isProtected ∧ (t.ctx x).stepRefused = true))

/-- IDENTIFY_ANSWER to the attempt out: valid exactly for block size 4,096 and block count 66,592, the link is idle, and the
unit's system-area reads begin, or the probe is tested. An answer that is no IDENTITY or comes for another attempt is
discarded (R73, R91, R192). A start-up read ends (R153): in slot A, then slot B, block 0 is tested by the header's tests, then
blocks 1 to B - 1 are read, then the copy is judged by R140 (`HeaderValid`, `CopyValid`; what undefined entries are tested
for, and which fields are not, is log entries 22, 68); a read without data makes it invalid at once. A lost unit has no valid
copy and reads no more. After slot B the probe is tested. The end of the probe: while an IDENTIFY step or a slot is open, or
outside PROBING, the test does nothing (R192). Else, with a valid copy, the first one that no other exceeds in generation and,
at equal generation, in write sequence is chosen (R154): its n, regions, relocation tables of units below n, log, patrol
settings and pass number are loaded, its generation is current, the write sequence is the highest of the valid copies, the
current image's its own (log entry 18), each slot's record is that of its valid copy, invalid without one or for one of the
chosen generation with a lower write sequence, and the device is STOPPED. With none it starts fresh: tables empty, fresh
settings, generation, write sequence and pass number 0, slot records invalid (R154); STOPPED with n the 1, 2 or 4 whose first
units are exactly those present; with no such n HALTED with PROBE_LAYOUT (R193), the units' states left as they are (log entry
66), a new epoch begun (log entry 75). The engine is then IDLE in each case (R153). On STOPPED the members are units 0 to n -
1, and each unit is, by R91: OFFLINE if lost in its reads, DEGRADED if a member without a free spare, ONLINE if else valid;
not valid, OFFLINE if a member, else ABSENT. -/
def Obligations.IdentifyAnswerIsJudged : Prop :=
  (∀ (u : UnitId) (second : Bool) (n : Nat) (expiry : Tick) (s : State), (s.chan u).link = .identify second n expiry →
    (∀ size count, ∃ t, exec (.identifyAnswer u n (.identity size count)) s
        = .next (runEvent (t, if size = 4096#32 ∧ count = 66592#32 then [.commitEntryArrives u .read 66560] else [.probeCheck]))
      ∧ (t.chan u).link = .idle ∧ (t.chan u).identified = some (decide (size = 4096#32 ∧ count = 66592#32))
      ∧ (∀ v, v ≠ u → t.chan v = s.chan v) ∧ t.out = s.out ∧ t.rlts = s.rlts ∧ t.cme = s.cme)
    ∧ exec (.identifyAnswer u n .other) s = .next s
    ∧ ∀ m answer, m ≠ n → exec (.identifyAnswer u m answer) s = .next s)
  ∧ (∀ (u : UnitId) (sl : Slot) (b : Bytes),
      (headerOk u sl b = true ↔ HeaderValid u sl b) ∧ (copyOk b = true ↔ CopyValid b))
  ∧ (∀ (u : UnitId) (data : Option Bytes) (s : State) (v : UnitLoad), v = s.load u →
      (v.slot = none → handle (.loadReadEnds u data) s = (s, []))
      ∧ ∀ (sl : Slot) (judged : Option Image → Eff), v.slot = some sl →
        judged = (fun copy => match sl with
          | .a => (s.setLoad u { v with slot := some .b, blocks := [], copyA := copy }, [.commitEntryArrives u .read 66576])
          | .b => (s.setLoad u { v with slot := none, blocks := [], copyB := copy }, [.probeCheck])) →
        ((s.chan u).state = .offline →
          handle (.loadReadEnds u data) s = (s.setLoad u ⟨none, [], none, none⟩, [.probeCheck]))
        ∧ ((s.chan u).state ≠ .offline →
          (data = none → handle (.loadReadEnds u data) s = judged none)
          ∧ ∀ d, data = some d →
            (v.blocks = [] → ¬ HeaderValid u sl d → handle (.loadReadEnds u data) s = judged none)
            ∧ ∀ blocks first, blocks = v.blocks ++ [d] → blocks.head? = some first → (v.blocks = [] → HeaderValid u sl d) →
              (blocks.length < (byteAt first 17).toNat →
                handle (.loadReadEnds u data) s = (s.setLoad u { v with blocks := blocks },
                  [.commitEntryArrives u .read ((match sl with | .a => 66560 | .b => 66576) + blocks.length)]))
              ∧ ((byteAt first 17).toNat ≤ blocks.length →
                (CopyValid blocks.flatten →
                  handle (.loadReadEnds u data) s = judged (some (imageOfBytes blocks.flatten)))
                ∧ (¬ CopyValid blocks.flatten → handle (.loadReadEnds u data) s = judged none))))
  ∧ (∀ (s : State) (k : Image), k ∈ validCopies s ↔ ∃ u, (s.load u).copyA = some k ∨ (s.load u).copyB = some k)
  ∧ (∀ cs : List Image, (chooseImage cs = none ↔ cs = []) ∧ ∀ im, chooseImage cs = some im →
      ∃ before after, cs = before ++ im :: after
        ∧ (∀ k ∈ before, k.gen < im.gen ∨ (k.gen = im.gen ∧ k.wseq < im.wseq))
        ∧ ∀ k ∈ after, k.gen < im.gen ∨ (k.gen = im.gen ∧ k.wseq ≤ im.wseq))
  ∧ (∀ (s : State) (n : Nat), freshWidth s = some n ↔
      (n = 1 ∨ n = 2 ∨ n = 4) ∧ ∀ u : UnitId, (s.chan u).identified = some true ↔ u.val < n)
  ∧ (∀ s : State,
      s.dev.state ≠ .probing ∨ (∃ u, (s.chan u).identified = none
          ∨ ((s.chan u).identified = some true ∧ (s.load u).slot ≠ none)) →
      handle .probeCheck s = (s, []))
  ∧ ∀ s : State, s.dev.state = .probing →
      (∀ u, (s.chan u).identified = some false ∨ ((s.chan u).identified = some true ∧ (s.load u).slot = none)) →
      ∃ t, handle .probeCheck s = (t, [])
        ∧ (∀ im, chooseImage (validCopies s) = some im →
            t.width = im.width ∧ t.dev = { s.dev with state := .stopped }
            ∧ (∀ i : Fin 32, t.region i.val = { RegionEntry.undefined with live := im.tables.regions[i] })
            ∧ (∀ u : UnitId, t.rlt u
              = { s.rlt u with table := if u.val < im.width then im.tables.units[u] else ⟨[], []⟩ })
            ∧ t.log = im.tables.log ∧ t.patrol = { s.patrol with cfg := im.patrol, passNumber := im.passNumber }
            ∧ t.cme.gen = im.gen ∧ t.cme.curWseq = im.wseq
            ∧ (∀ (u : UnitId) (sl : Slot), u.val < 2 → t.cme.slotRecord u sl
              = match (match sl with | .a => (s.load u).copyA | .b => (s.load u).copyB) with
                | none => none
                | some k => if k.gen = im.gen ∧ k.wseq < im.wseq then none else some (k.gen, k.wseq))
            ∧ (∀ k ∈ validCopies s, k.wseq ≤ t.cme.wseq) ∧ ∃ k ∈ validCopies s, t.cme.wseq = k.wseq)
        ∧ (∀ n, validCopies s = [] → freshWidth s = some n →
            t.width = n ∧ t.dev = { s.dev with state := .stopped } ∧ ∀ i : Fin 32, t.region i.val = RegionEntry.undefined)
        ∧ (validCopies s = [] → (∀ u, t.rlt u = { s.rlt u with table := ⟨[], []⟩ }) ∧ t.log = ⟨Vector.replicate 16 none, 0⟩
            ∧ t.patrol = { s.patrol with cfg := ⟨0, 2000, 4, false⟩, passNumber := 0 }
            ∧ t.cme.gen = 0 ∧ t.cme.wseq = 0 ∧ ∀ u sl, t.cme.slotRecord u sl = none)
        ∧ t.cme.state = .idle
        ∧ (validCopies s ≠ [] ∨ freshWidth s ≠ none →
            t.out = s.out ∧ t.lif = s.lif ∧ t.lanes = s.lanes ∧ t.ctxs = s.ctxs
            ∧ ∀ u : UnitId, (t.chan u).member = decide (u.val < t.width)
              ∧ (t.chan u).state
                = if (s.chan u).identified = some true then
                    if (s.chan u).state = .offline then .offline
                    else if u.val < t.width ∧ (t.rlt u).table.freeCount = 0 then .degraded else .online
                  else if u.val < t.width then .offline else .absent)
        ∧ (validCopies s = [] → freshWidth s = none →
            t.dev = { s.dev with state := .halted, fault := .probeLayout, runPending := false } ∧ t.width = s.width
            ∧ t.out = s.out ∧ t.lif = ⟨s.lif.settingsReads, s.lif.epoch + 1⟩
            ∧ ∀ u, (t.chan u).state = (s.chan u).state ∧ (t.chan u).member = (s.chan u).member
              ∧ (t.chan u).link = (s.chan u).link)

/-- READ_ANSWER to the attempt of a read: the answer is classified with the weak threshold in force (R84), the performance
ends, a FOREGROUND entry departs, the waiting list's head moving up (R77), a move read's data goes to the buffer bound to it,
or frees it (R83), a patrol read not weak nor UNCORRECTABLE drops its mark (R87), and the outcome goes to the source (R85): a
weak FOREGROUND read with the move-on-weak indicator also as a READ_WEAK request, an UNCORRECTABLE one as a READ_LOST request,
both with block, lane, region and target; the start-up reads take data of CLEAN and CORRECTED alone (R153). The outcome tells
whether the target was a spare (R82). Deferred starts come first, then selection, quiet report and outcome, a PATROL outcome
before the report (log entries 8, 21). The outcome at a context (R38, R63): with data, a VERIFY block succeeds; a READ block's
data goes to its buffer and out to the host (R37); a COPY block hands on its program when the destination is writable and no
step was refused, else it fails PROTECTED (R23; whatever its region is by then: log entry 39), and ends without one when
aborted (log entry 14); a DIGEST block counts and waits to fold, and the digest takes it, and those waiting behind it, when it
is the next (R42). UNCORRECTABLE and POISONED fail the block DATA_LOST. A block that ends or is folded leaves its buffer free
(R62). CORRECTED reads count, weak ones also as weak, and a VERIFY counts the requests handed (R40). Unless a READ's buffer
write or a COPY's program went out, the context then leaves its state when it may (R54). The outcome of a move read (R107):
with data the move is WRITING and fills its spare; UNCORRECTABLE makes it a READ_LOST move that clears its spare, its directed
waiters failing DATA_LOST and DATA_LOST posted; POISONED ends it: lock release, waiters failing DATA_LOST, finding report,
freed slot (in this order: entries 50, 58, 73); at an OFFLINE unit it is abandoned. A move that is not READING takes none. -/
def Obligations.ReadAnswerIsClassified : Prop :=
  (∀ (u : UnitId) (e : QEntry) (target n : Nat) (second : Bool) (expiry : Tick) (data : Bytes) (poisoned : Bool) (s : State),
    (s.chan u).link = .performing e target second n expiry data poisoned → e.cmd = .read →
    ∀ answer cls weak d,
      ((∃ v, answer = .clean v ∧ cls = .clean ∧ weak = false ∧ d = v)
        ∨ (∃ k v, answer = .corrected k v ∧ 1 ≤ k ∧ k ≤ 8 ∧ cls = .corrected ∧ weak = decide (s.patrol.cfg.weak < k) ∧ d = v)
        ∨ (answer = .blank ∧ cls = .blank ∧ weak = false ∧ d = List.replicate 4096 0)
        ∨ (answer = .uncorrectable ∧ cls = .uncorrectable ∧ weak = false ∧ d = [])) →
      ∀ onSpare : Bool, (onSpare = true ↔ 65536 ≤ target ∧ target < 66560) →
      ∃ t outcome, exec (.readAnswer u n answer) s
          = .next (runEvent (t, (if e.isForeground then [.takeDeferred u e.block] else [])
            ++ .select u :: if e.isPatrol then outcome ++ [.quiet u] else .quiet u :: outcome))
        ∧ outcome = (match e.source with
          | .foreground x j lane region moves =>
            [.stepEnds x j (.read cls weak (weak && moves) d) onSpare]
              ++ (if weak && moves then
                  [.moveRequest u ⟨e.block, .readWeak, some lane, some region, some target, [], none, false, none⟩] else [])
              ++ (if cls = .uncorrectable then
                  [.moveRequest u ⟨e.block, .readLost, some lane, some region, some target, [], none, false, none⟩] else [])
          | .patrol => [.patrolReadEnds u cls weak onSpare]
          | .move mid => [.moveReadEnds u mid (if cls = .uncorrectable then .uncorrectable else .data) onSpare]
          | .commit => [.loadReadEnds u (if cls = .clean ∨ cls = .corrected then some d else none)])
        ∧ t.chan u = { s.chan u with
            link := .idle
            queue := (s.chan u).queue ++ (if e.isForeground then (s.chan u).waiting.take 1 else [])
            waiting := if e.isForeground then (s.chan u).waiting.drop 1 else (s.chan u).waiting
            lastDeparture := if e.isForeground then some s.tick else (s.chan u).lastDeparture
            moveBuf := match e.source, (s.chan u).moveBuf with
              | .move mid, some b =>
                if b.mid = mid then (if cls = .uncorrectable then none else some ⟨mid, some d⟩) else some b
              | _, b => b
            marks := if e.source = .patrol ∧ cls ≠ .uncorrectable ∧ weak = false then
                (s.chan u).marks.filter fun m => m.1 != e.block
              else (s.chan u).marks }
        ∧ (∀ v, v ≠ u → t.chan v = s.chan v)
        ∧ t.out = s.out ∧ t.ctxs = s.ctxs ∧ t.rlts = s.rlts ∧ t.patrol = s.patrol ∧ t.cme = s.cme ∧ t.regions = s.regions)
  ∧ (∀ (u : UnitId) (b : Nat) (s : State), handle (.takeDeferred u b) s
      = (s, ((s.rlt u).moves.filter fun m => m.state == .starting && m.req.src == b).map fun m => .moveStart u m.mid))
  ∧ (∀ (x : CtxId) (j : Nat) (out : StepOutcome) (sp : Bool) (s : State), (s.ctx x).phase j = none →
      handle (.stepEnds x j out sp) s = (s, []))
  ∧ (∀ (x : CtxId) (j : Nat) (cls : ReadClass) (weak handed sp : Bool) (data : Bytes) (s : State), (s.ctx x).phase j ≠ none →
      ∃ t ms, ∃ settles : Bool, (settles = false ↔ (cls = .clean ∨ cls = .corrected ∨ cls = .blank)
          ∧ ((recKind (s.ctx x).record = .read ∧ s.dev.state ≠ .halted)
            ∨ (recKind (s.ctx x).record = .copy ∧ (s.ctx x).abortMark = false
              ∧ (s.region (argDstRegion (s.ctx x).record)).writable = true ∧ (s.ctx x).stepRefused = false)))
        ∧ handle (.stepEnds x j (.read cls weak handed data) sp) s = (if settles then ctxSettle x t else t, ms)
        ∧ (t.ctx x).corrected = (if cls = .corrected then (s.ctx x).corrected + 1 else (s.ctx x).corrected)
        ∧ (t.ctx x).weak = (if cls = .corrected ∧ weak = true then (s.ctx x).weak + 1 else (s.ctx x).weak)
        ∧ (t.ctx x).moveReqs
          = (if handed = true ∧ recKind (s.ctx x).record = .verify then (s.ctx x).moveReqs + 1 else (s.ctx x).moveReqs)
        ∧ t.regions = s.regions ∧ SameMedia s t ∧ SameDevice s t ∧ t.lanes = s.lanes ∧ (∀ y, y ≠ x → t.ctx y = s.ctx y)
        ∧ (cls = .uncorrectable ∨ cls = .poisoned → ms = [] ∧ t.out = s.out ∧ BlockGone x j s t
          ∧ (t.ctx x).blocksOk = (s.ctx x).blocksOk ∧ (t.ctx x).failure = lowerFailure (s.ctx x).failure j .dataLost)
        ∧ (cls = .clean ∨ cls = .corrected ∨ cls = .blank →
          (recKind (s.ctx x).record = .verify → ms = [] ∧ t.out = s.out ∧ BlockGone x j s t
            ∧ (t.ctx x).blocksOk = (s.ctx x).blocksOk + 1 ∧ (t.ctx x).failure = (s.ctx x).failure)
          ∧ (recKind (s.ctx x).record = .read → s.dev.state ≠ .halted → ms = [] ∧ (t.ctx x).phase j = some .bufferWrite
            ∧ (∀ i : Fin 4, ((s.ctx x).bufs[i]).bound = some j → (t.ctx x).bufs[i] = ⟨some j, some data⟩)
            ∧ t.out = s.out ++ pieceWrites ((s.ctx x).pieces j) data ∧ (t.ctx x).blocksOk = (s.ctx x).blocksOk)
          ∧ (recKind (s.ctx x).record = .read → s.dev.state = .halted → ms = [] ∧ BlockGone x j s t
            ∧ t.out = s.out ∧ (t.ctx x).blocksOk = (s.ctx x).blocksOk ∧ (t.ctx x).failure = (s.ctx x).failure)
          ∧ (recKind (s.ctx x).record = .copy → (s.ctx x).abortMark = true → ms = [] ∧ BlockGone x j s t
            ∧ (t.ctx x).failure = (s.ctx x).failure ∧ (t.ctx x).blocksOk = (s.ctx x).blocksOk)
          ∧ (recKind (s.ctx x).record = .copy → (s.ctx x).abortMark = false →
            ((s.region (argDstRegion (s.ctx x).record)).writable = true → (s.ctx x).stepRefused = false →
              ms = [.foregroundArrives x j .program] ∧ (t.ctx x).phase j = some (.outstanding .program)
              ∧ ∀ i : Fin 4, ((s.ctx x).bufs[i]).bound = some j → (t.ctx x).bufs[i] = ⟨some j, some data⟩)
            ∧ ((s.region (argDstRegion (s.ctx x).record)).writable = false ∨ (s.ctx x).stepRefused = true →
              ms = [] ∧ BlockGone x j s t ∧ (t.ctx x).stepRefused = true
              ∧ (t.ctx x).failure = lowerFailure (s.ctx x).failure j .isProtected))
          ∧ (recKind (s.ctx x).record = .digest → ms = [] ∧ (t.ctx x).blocksOk = (s.ctx x).blocksOk + 1 ∧ t.out = s.out
            ∧ ((s.ctx x).abortMark = true ∨ (s.ctx x).failure ≠ none
                ∨ (j ≠ (s.ctx x).foldNext ∧ (s.ctx x).phase (s.ctx x).foldNext ≠ some .fold) →
              (t.ctx x).phase j = some .fold ∧ (t.ctx x).crc = (s.ctx x).crc ∧ (t.ctx x).foldNext = (s.ctx x).foldNext)
            ∧ ((s.ctx x).abortMark = false → (s.ctx x).failure = none → j = (s.ctx x).foldNext →
              (∃ i : Fin 4, ((s.ctx x).bufs[i]).bound = some j) →
              ∀ m, m ≤ 3 → (∀ i, i < m → (s.ctx x).phase (j + 1 + i) = some .fold) →
                (m = 3 ∨ (s.ctx x).phase (j + 1 + m) ≠ some .fold) →
                (t.ctx x).foldNext = j + 1 + m
                ∧ (∀ b, j ≤ b → b ≤ j + m → (t.ctx x).phase b = none
                  ∧ ∀ i : Fin 4, ((s.ctx x).bufs[i]).bound = some b → (t.ctx x).bufs[i] = ⟨none, none⟩)
                ∧ (t.ctx x).crc = (List.range m).foldl (fun v i => crcFold v ((s.ctx x).bufferData (j + 1 + i)))
                  (crcFold (s.ctx x).crc data)))))
  ∧ (∀ (u : UnitId) (mid : Nat) (out : MoveOutcome) (sp : Bool) (s : State),
      (s.rlt u).move mid = none ∨ (∃ m, (s.rlt u).move mid = some m ∧ m.state ≠ .reading) →
      handle (.moveReadEnds u mid out sp) s = (s, []))
  ∧ ∀ (u : UnitId) (mid : Nat) (sp : Bool) (m : Move) (s : State), (s.rlt u).move mid = some m → m.state = .reading → m.mid = mid →
      (∃ t, handle (.moveReadEnds u mid .data sp) s
          = (t, [.moveEntryArrives u mid (if m.req.clears then .clear else .program) (65536 + m.spare)])
        ∧ (t.rlt u).moves = (s.rlt u).moves.map fun k => if k.mid = mid then { m with state := .writing } else k)
      ∧ (∃ t directed, handle (.moveReadEnds u mid .uncorrectable sp) s
          = (t, directed.map (fun w => .blockEnds w.ctx w.j (.failed .dataLost))
              ++ [.moveEntryArrives u mid .clear (65536 + m.spare)])
        ∧ directed = m.req.waiters.filter Waiter.directed
        ∧ t.ntu = (postEvent .dataLost (s.blockOccurrence u m.req.src 3 s.cme.gen m.req.lane) s).ntu
        ∧ (t.rlt u).moves = (s.rlt u).moves.map fun k => if k.mid = mid then
            { m with
              state := .writing
              req := { m.req with cause := .readLost, waiters := m.req.waiters.filter fun w => !w.directed } }
          else k)
      ∧ handle (.moveReadEnds u mid .poisoned sp) s
          = ((leaveSlot u mid s).1, (leaveSlot u mid s).2
              ++ m.req.waiters.map (fun w => .blockEnds w.ctx w.j (.failed .dataLost)) ++ m.req.findingReport u .abandoned
              ++ [.slotFreed u])
      ∧ handle (.moveReadEnds u mid .offline sp) s = abandonMove u m .unitOffline s

/-- PROGRAM_ANSWER and CLEAR_ANSWER to the attempt of a program or clear: the performance ends, a FOREGROUND entry departs, OK
of a move's program frees its buffer (R83), and the outcome goes to the source (R86): a FOREGROUND OK on a poisoned entry's
spare as OK_POISONED with a poison clear that names the context, PROGRAM_FAIL with a PROGRAM_FAIL request that names block,
lane, region, context and staging buffer, for a CLEAR a blank image. That starts deferred behind the entry come first, then
the selection, the quiet report and the outcome is log entries 8 and 21. The outcome at a context (R43, R63, R65): OK makes
the block succeed; OK on a poisoned block waits for the commit of its clear; PROGRAM_FAIL waits for the move; at an OFFLINE
unit the block fails UNIT_OFFLINE; withdrawn, it ends without success or failure. A block that ends leaves its buffer free,
one that waits keeps it (R62). A waiting block's move that joins a batch makes it wait for the commit; the move's or commit's
end makes it succeed, a RELOCATE with the spare as result, or fail with the given code, or end. The outcome at a move (R108,
R109): OK joins its entry change to the batch and the move is BATCHED; PROGRAM_FAIL makes the spare FAILING and joins its dead
change, and the next choosable spare is filled, unless none is left (NO_SPARE) or three have failed (WRITE_FAILED); that it is
chosen before the dead change reaches the engine is log entry 49. An abandoned move leaves its slot and the channel takes its
end, its waiters fail with the code (WRITE_FAILED for NO_SPARE unless directed) and its finding ends (R112); that the
channel's release comes first, then waiters and finding, then the freed slot is log entries 58, 50 and 73. A poison clear
joins a clear of its block in the accumulating batch, or is a change of its own (R114). -/
def Obligations.WriteAnswerIsHandedOn : Prop :=
  (∀ (u : UnitId) (e : QEntry) (target n : Nat) (second : Bool) (expiry : Tick) (data : Bytes) (poisoned : Bool) (s : State),
    (s.chan u).link = .performing e target second n expiry data poisoned →
    ∀ (answer : ProgramAnswer) (c : Instr),
      (c = .programAnswer u n answer ∧ e.cmd = .program) ∨ (c = .clearAnswer u n answer ∧ e.cmd = .clear) →
      ∀ onSpare ok : Bool, (onSpare = true ↔ 65536 ≤ target ∧ target < 66560) → (ok = true ↔ answer = .ok) →
      ∃ t outcome, exec c s
          = .next (runEvent (t, (if e.isForeground then [.takeDeferred u e.block] else [])
            ++ .select u :: if e.isPatrol then outcome ++ [.quiet u] else .quiet u :: outcome))
        ∧ outcome = (match e.source with
          | .foreground x j lane region _ =>
            if ok then
              if poisoned then [.stepEnds x j .programPoisoned onSpare, .poisonClear u e.block x j]
              else [.stepEnds x j .programOk onSpare]
            else [.stepEnds x j .programFail onSpare,
              .moveRequest u ⟨e.block, .programFail, some lane, some region, none, [⟨x, j, false⟩], none,
                decide (e.cmd = .clear), some (x, j)⟩]
          | .move mid => [.moveWriteEnds u mid (if ok then .ok else .programFail)]
          | .commit => [.copyEnds u (if ok then .ok else .programFail)]
          | .patrol => [])
        ∧ t.chan u = { s.chan u with
            link := .idle
            queue := (s.chan u).queue ++ (if e.isForeground then (s.chan u).waiting.take 1 else [])
            waiting := if e.isForeground then (s.chan u).waiting.drop 1 else (s.chan u).waiting
            lastDeparture := if e.isForeground then some s.tick else (s.chan u).lastDeparture
            moveBuf := match e.source, (s.chan u).moveBuf with
              | .move mid, some b => if ok ∧ b.mid = mid then none else some b
              | _, b => b }
        ∧ (∀ v, v ≠ u → t.chan v = s.chan v)
        ∧ t.out = s.out ∧ t.ctxs = s.ctxs ∧ t.rlts = s.rlts ∧ t.patrol = s.patrol ∧ t.cme = s.cme ∧ t.regions = s.regions)
  ∧ (∀ (x : CtxId) (j : Nat) (sp : Bool) (s : State), (s.ctx x).phase j ≠ none →
      (∀ (m : Msg) (ok wait : Bool) (fail : Option Status) (result : Option Nat),
        (m = .stepEnds x j .programOk sp ∧ ok = true ∧ wait = false ∧ fail = none ∧ result = none)
          ∨ (m = .stepEnds x j .offline sp ∧ ok = false ∧ wait = false ∧ fail = some .unitOffline ∧ result = none)
          ∨ (m = .stepEnds x j .withdrawn sp ∧ ok = false ∧ wait = false ∧ fail = none ∧ result = none)
          ∨ (∃ spare, m = .blockEnds x j (.live spare) ∧ ok = true ∧ wait = false ∧ fail = none ∧ result = some spare)
          ∨ (∃ st, m = .blockEnds x j (.failed st) ∧ ok = false ∧ wait = false ∧ fail = some st ∧ result = none)
          ∨ (m = .blockEnds x j .gone ∧ ok = false ∧ wait = false ∧ fail = none ∧ result = none)
          ∨ ((m = .stepEnds x j .programPoisoned sp ∨ m = .moveBatched x j) ∧ ok = false ∧ wait = true ∧ fail = none
            ∧ result = none) →
        ∃ t, handle m s = (ctxSettle x t, [])
          ∧ (t.ctx x).phase j = (if wait then some .awaitCommit else none)
          ∧ (wait = false → BlockGone x j s t) ∧ (wait = true → (t.ctx x).bufs = (s.ctx x).bufs)
          ∧ (t.ctx x).blocksOk = (if ok then (s.ctx x).blocksOk + 1 else (s.ctx x).blocksOk)
          ∧ (t.ctx x).failure
            = (match fail with | some st => lowerFailure (s.ctx x).failure j st | none => (s.ctx x).failure)
          ∧ (t.ctx x).result = (match result with
            | some k => if recKind (s.ctx x).record = .relocate then BitVec.ofNat 64 k else (s.ctx x).result
            | none => (s.ctx x).result)
          ∧ t.regions = s.regions ∧ SameMedia s t ∧ SameDevice s t ∧ t.lanes = s.lanes ∧ t.out = s.out
          ∧ ∀ y, y ≠ x → t.ctx y = s.ctx y)
      ∧ ∃ t, handle (.stepEnds x j .programFail sp) s = (ctxSettle x t, []) ∧ (t.ctx x).phase j = some .awaitMove
        ∧ (t.ctx x).bufs = (s.ctx x).bufs
        ∧ (t.ctx x).blocksOk = (s.ctx x).blocksOk ∧ (t.ctx x).failure = (s.ctx x).failure ∧ t.out = s.out ∧ SameMedia s t)
  ∧ (∀ (u : UnitId) (mid : Nat) (m : Move) (s : State), (s.rlt u).move mid = some m → m.mid = mid →
      (m.state ≠ .writing → ∀ out, handle (.moveWriteEnds u mid out) s = (s, []))
      ∧ (m.state = .writing →
        (∃ t, handle (.moveWriteEnds u mid .ok) s
            = (t, m.req.waiters.map (fun w => .moveBatched w.ctx w.j)
              ++ [.change (.entry u mid m.req.src m.spare m.req.cause (m.req.cause == .readLost) m.req.lane)])
          ∧ (t.rlt u).moves = (s.rlt u).moves.map fun k => if k.mid = mid then { m with state := .batched } else k)
        ∧ handle (.moveWriteEnds u mid .offline) s = abandonMove u m .unitOffline s
        ∧ ∃ t e, handle (.moveWriteEnds u mid .programFail) s = (e.1, .change (.dead u m.spare) :: e.2)
          ∧ t = s.setRlt u { s.rlt u with failing := (s.rlt u).failing ++ [m.spare] }
          ∧ (3 ≤ m.tries → e = abandonMove u m .writeFailed t)
          ∧ (m.tries < 3 → (t.rlt u).lowestChoosable = none → e = abandonMove u m .noSpare t)
          ∧ ∀ k, m.tries < 3 → (t.rlt u).lowestChoosable = some k →
            e.2 = [.moveEntryArrives u mid (if m.req.clears then .clear else .program) (65536 + k)]
              ∧ (e.1.rlt u).failing = (t.rlt u).failing
              ∧ (e.1.rlt u).moves = (s.rlt u).moves.map fun q =>
                  if q.mid = mid then { m with spare := k, tries := m.tries + 1 } else q))
  ∧ (∀ (u : UnitId) (m : Move) (code : AbandonCode) (s : State), ∃ t ms, abandonMove u m code s = (t, ms)
      ∧ t = (leaveSlot u m.mid s).1
      ∧ (t.rlt u).moves = (s.rlt u).moves.filter (fun k => k.mid != m.mid) ∧ (t.rlt u).table = (s.rlt u).table
      ∧ ms = (leaveSlot u m.mid s).2 ++ m.req.waiters.map (fun w => .blockEnds w.ctx w.j (.failed (match code with
            | .unitOffline => .unitOffline
            | .writeFailed => .writeFailed
            | .noSpare => if w.directed then .noSpare else .writeFailed)))
          ++ (match m.req.finding with | some tag => [.findingEnded u m.req.src tag .abandoned] | none => [])
          ++ [.slotFreed u])
  ∧ ∀ (u : UnitId) (b : Nat) (x : CtxId) (j : Nat) (s : State),
      ((∀ ws, .poisonClear u b ws ∉ s.cme.accumulating) →
        handle (.poisonClear u b x j) s = (s, [.change (.poisonClear u b [(x, j)])]))
      ∧ ∀ before after ws, s.cme.accumulating = before ++ .poisonClear u b ws :: after →
        (∀ vs, .poisonClear u b vs ∉ before) →
        handle (.poisonClear u b x j) s
          = (s.setCme { s.cme with accumulating := before ++ .poisonClear u b (ws ++ [(x, j)]) :: after }, [])

/-- An answer for an attempt that has ended, or of a class its command cannot return, is discarded, and so is any answer but
IDENTIFY's own while IDENTIFY is out, and an IDENTIFY answer when it is not (R73). That an expiry that names another attempt than
the one out, or comes before its timer's expiry, does nothing is the model's choice (log entries 2 and 23). -/
def Obligations.LateAnswersAreDiscarded : Prop :=
  ∀ (u : UnitId) (m : Nat) (s : State),
    ((s.chan u).link = .idle →
      (∀ a, exec (.identifyAnswer u m a) s = .next s) ∧ (∀ a, exec (.readAnswer u m a) s = .next s)
        ∧ (∀ a, exec (.programAnswer u m a) s = .next s) ∧ (∀ a, exec (.clearAnswer u m a) s = .next s)
        ∧ exec (.noResponse u m) s = .next s)
    ∧ (∀ second n expiry, (s.chan u).link = .identify second n expiry →
      (m ≠ n → ∀ a, exec (.identifyAnswer u m a) s = .next s) ∧ exec (.identifyAnswer u m .other) s = .next s
        ∧ (∀ a, exec (.readAnswer u m a) s = .next s) ∧ (∀ a, exec (.programAnswer u m a) s = .next s)
        ∧ (∀ a, exec (.clearAnswer u m a) s = .next s)
        ∧ (m ≠ n ∨ reached s.tick expiry = false → exec (.noResponse u m) s = .next s))
    ∧ ∀ e target second n expiry data poisoned, (s.chan u).link = .performing e target second n expiry data poisoned →
      (∀ a, exec (.identifyAnswer u m a) s = .next s)
        ∧ (m ≠ n ∨ e.cmd ≠ .read → ∀ a, exec (.readAnswer u m a) s = .next s)
        ∧ (∀ k d, k = 0 ∨ 8 < k → exec (.readAnswer u m (.corrected k d)) s = .next s)
        ∧ (m ≠ n ∨ e.cmd ≠ .program → ∀ a, exec (.programAnswer u m a) s = .next s)
        ∧ (m ≠ n ∨ e.cmd ≠ .clear → ∀ a, exec (.clearAnswer u m a) s = .next s)
        ∧ (m ≠ n ∨ reached s.tick expiry = false → exec (.noResponse u m) s = .next s)

/-- The first NO_RESPONSE of a step sends the same command again at once, to the same unit block with the same data and a
fresh 2 ms timer; the target is not looked up again. IDENTIFY is retried in the same way. The second attempt's answer ends
the step as a first one's would, and its NO_RESPONSE makes the unit OFFLINE (R74). At that event (R93) patrol is told, the
entry performed ends to its source as UNIT_OFFLINE, every queued and waiting FOREGROUND and COMMIT entry and every held step
ends UNIT_OFFLINE, the relocation table is told of the unit's moves, locks, marks and move buffer go, and UNIT_OFFLINE
carries the step's block and command. The entry performed records whether it was on a spare: a FOREGROUND step in its
outcome, a move or patrol read in the report of the loss (R82). The order of the outcomes is immaterial (the model's: log
entry 8; the event before those the outcomes set off: 69); that the event names the entry's block, not the target, is log
entry 34. The lost IDENTIFY posts code 1, naming no block (log entry 19), and has the probe tested. The moves not in a batch
and the requests of the lost unit end UNIT_OFFLINE (R118). -/
def Obligations.NoResponseIsRetriedOnce : Prop :=
  (∀ (u : UnitId) (n : Nat) (expiry : Tick) (s : State), reached s.tick expiry = true →
    (∀ e target data poisoned, (s.chan u).link = .performing e target false n expiry data poisoned →
      exec (.noResponse u n) s = .next
        ((s.setChan u { s.chan u with
            link := .performing e target true ((s.chan u).sent + 1) (s.tick + 2000) data poisoned
            sent := (s.chan u).sent + 1 }).emit
          [.media u ((s.chan u).sent + 1) (mediaCommand e.cmd target data)]))
    ∧ ((s.chan u).link = .identify false n expiry →
      exec (.noResponse u n) s = .next
        ((s.setChan u { s.chan u with
            link := .identify true ((s.chan u).sent + 1) (s.tick + 2000), sent := (s.chan u).sent + 1 }).emit
          [.media u ((s.chan u).sent + 1) .identify]))
    ∧ (∀ e target data poisoned, (s.chan u).link = .performing e target true n expiry data poisoned →
      ∃ t ms, exec (.noResponse u n) s = .next (runEvent (t, ms)) ∧ (t.chan u).state = .offline ∧ (t.chan u).link = .idle
        ∧ (t.chan u).queue = [] ∧ (t.chan u).waiting = [] ∧ (t.chan u).locks = [] ∧ (t.chan u).marks = []
        ∧ (t.chan u).moveBuf = none ∧ (∀ v, v ≠ u → t.chan v = s.chan v)
        ∧ (∀ onSpare : Bool, (onSpare = true ↔ 65536 ≤ target ∧ target < 66560) →
          List.Perm ms ([.patrolLost u (e.isPatrol && onSpare),
              .movesLost u (match e.source with
                | .move mid => if e.cmd = .read ∧ onSpare = true then some mid else none
                | _ => none)]
            ++ lossOutcome u true onSpare e ++ ((s.chan u).queue ++ (s.chan u).waiting).flatMap (lossOutcome u false false)
            ++ ((s.chan u).locks.flatMap Lock.held).map (fun h => .stepEnds h.1 h.2 .offline false)))
        ∧ (t.ntu.slots[EventKind.unitOffline.slot]).detail
          = (s.blockOccurrence u e.block (match e.cmd with | .read => 2 | .program => 3 | .clear => 4) s.cme.gen none).detail
              s.tick)
    ∧ ((s.chan u).link = .identify true n expiry →
      ∃ t, exec (.noResponse u n) s = .next (runEvent (t, [.probeCheck])) ∧ (t.chan u).state = .offline
        ∧ (t.chan u).link = .idle ∧ (t.chan u).identified = some false
        ∧ (t.ntu.slots[EventKind.unitOffline.slot]).detail
          = ({ code := some 1, gen := some s.cme.gen, media := some u.val } : Occurrence).detail s.tick
        ∧ ∀ v, v ≠ u → t.chan v = s.chan v)
    ∧ (∀ size count,
      exec (.identifyAnswer u n (.identity size count)) (s.setChan u { s.chan u with link := .identify true n expiry })
        = exec (.identifyAnswer u n (.identity size count))
          (s.setChan u { s.chan u with link := .identify false n expiry }))
    ∧ (∀ e target data poisoned c,
      (∃ answer, c = .readAnswer u n answer ∧ e.cmd = .read ∧ (classify s.patrol.cfg.weak answer).isSome = true)
        ∨ (∃ answer, c = .programAnswer u n answer ∧ e.cmd = .program)
        ∨ (∃ answer, c = .clearAnswer u n answer ∧ e.cmd = .clear) →
      exec c (s.setChan u { s.chan u with link := .performing e target true n expiry data poisoned })
        = exec c (s.setChan u { s.chan u with link := .performing e target false n expiry data poisoned })))
  ∧ (∀ (u : UnitId) (sent sp : Bool) (e : QEntry), lossOutcome u sent sp e
      = match e.source with
        | .foreground x j _ _ _ => [.stepEnds x j .offline sp]
        | .commit => [if e.cmd = .read then .loadReadEnds u none else .copyEnds u (.offline sent)]
        | .move _ | .patrol => [])
  ∧ ∀ (u : UnitId) (mark : Option Nat) (s : State), ∃ t ms, handle (.movesLost u mark) s = (t, ms)
      ∧ (t.rlt u).moves = (s.rlt u).moves.filter (fun m => m.state == .batched) ∧ (t.rlt u).requests = []
      ∧ (t.rlt u).table = (s.rlt u).table ∧ (∀ v, v ≠ u → t.rlt v = s.rlt v)
      ∧ (∀ m ∈ (s.rlt u).moves, m.state ≠ .batched →
          (∀ w ∈ m.req.waiters, .blockEnds w.ctx w.j (.failed .unitOffline) ∈ ms)
          ∧ ∀ tag, m.req.finding = some tag → .findingEnded u m.req.src tag .abandoned ∈ ms)
      ∧ ∀ q ∈ (s.rlt u).requests, ∀ w ∈ q.waiters, .blockEnds w.ctx w.j (.failed .unitOffline) ∈ ms

/-! ### Commits -/

/-- A change that arrives: while the engine is CLOSING, WRITING or RETRYING it joins the accumulating batch and nothing else
happens; in IDLE its batch is taken at the same event. A seventeenth log entry displaces the batch's oldest (R144).
A take with generations left: CLOSING, the write sequence one up, the batch all its changes but the removed ones, the image in
flight of the next generation with the tables with the batch applied, the live tables as they were, each GUARD's and FIX's region
closing; each waiter of a removed change fails PROTECTED, a directed one COMMIT_FAILED, its move out of its slot, its lock gone and the
steps held under it released; at the same event the
closing regions' steps are tested. Removed are the entry of a PROGRAM_FAIL move and the poison clear of a block in a GUARDED or
FIXED region. With generation or write sequence exhausted the whole batch fails with code 3 (R142, R145, R139).
The test in CLOSING: while a closing region has a program or clear step in a channel (performed, queued or waiting), nothing;
else writing begins: with no mirror in service the commit fails with code 2; else WRITING, one copy for each mirror in service,
each handing on the program of slot block 0 (R145, R146). So CLOSING remains past the event exactly while such a step is in a
channel. A copy goes to the slot that does not hold the current generation; where none holds it, to the slot with the lower
record, an invalid one lowest, and to A when both are invalid (R141; which image's write sequence is current, and A for two equal
records, is log entry 18). A completion leaves the engine IDLE with nothing accumulated, else the batch is taken (R148). -/
def Obligations.ChangesAreBatchedAndTaken : Prop :=
  (∀ (chg : Change) (s : State),
    (s.cme.state = .closing ∨ s.cme.state = .writing ∨ s.cme.state = .retrying →
      handle (.change chg) s = (s.setCme { s.cme with accumulating := joinBatch chg s.cme.accumulating }, []))
    ∧ (s.cme.state = .idle →
      handle (.change chg) s = takeBatch (s.setCme { s.cme with accumulating := joinBatch chg s.cme.accumulating }))
    ∧ (chg.isLog = false ∨ s.cme.accumulating.countP Change.isLog < 16 →
      joinBatch chg s.cme.accumulating = s.cme.accumulating ++ [chg])
    ∧ (chg.isLog = true → 16 ≤ s.cme.accumulating.countP Change.isLog →
      ∃ older oldest newer, s.cme.accumulating = older ++ oldest :: newer ∧ oldest.isLog = true
        ∧ (∀ c ∈ older, c.isLog = false) ∧ joinBatch chg s.cme.accumulating = older ++ newer ++ [chg])
    ∧ (chg.isLog = true ↔ ∃ e, chg = .log e)
    ∧ (s.cme.state = .idle → s.cme.accumulating = [] → s.cme.exhausted = false → removedAtTake s chg = false →
      ∃ t f, handle (.change chg) s = (t, [.closingCheck])
        ∧ t.cme.state = .closing ∧ t.cme.accumulating = [] ∧ t.cme.gen = s.cme.gen ∧ t.cme.wseq = s.cme.wseq + 1
        ∧ t.cme.inFlight = some f ∧ f.batch = [chg] ∧ f.image.gen = s.cme.gen + 1 ∧ f.image.wseq = s.cme.wseq + 1
        ∧ f.image.width = s.width ∧ f.image.patrol = s.patrol.cfg ∧ f.image.passNumber = s.patrol.passNumber
        ∧ f.image.tables = s.durable.apply (s.cme.gen + 1) chg
        ∧ (∀ i l x op, chg = .region i l x op → i < 32 →
          (t.region i).closing = (op == .guard || op == .fix || (s.region i).closing))
        ∧ t.durable = s.durable ∧ SameDevice s t ∧ t.chans = s.chans ∧ t.ctxs = s.ctxs ∧ t.lanes = s.lanes))
  ∧ (∀ s : State, (s.cme.exhausted = true ↔ 18446744073709551615 ≤ s.cme.gen ∨ 18446744073709551615 ≤ s.cme.wseq)
    ∧ (s.cme.exhausted = true → ∃ f, f.batch = s.cme.accumulating ∧ f.copies = [] ∧ f.earlier = []
      ∧ takeBatch s = commitFails f 3 (s.setCme { s.cme with state := .closing, accumulating := [] }))
    ∧ (s.cme.exhausted = false → ∃ t ms f, takeBatch s = (t, ms ++ [.closingCheck])
      ∧ t.cme.state = .closing ∧ t.cme.accumulating = [] ∧ t.cme.gen = s.cme.gen ∧ t.cme.wseq = s.cme.wseq + 1
      ∧ t.cme.inFlight = some f ∧ f.batch = s.cme.accumulating.filter (fun c => !removedAtTake s c)
      ∧ f.image.gen = s.cme.gen + 1 ∧ f.image.tables = s.durable.applyAll (s.cme.gen + 1) f.batch
      ∧ t.durable = s.durable ∧ SameDevice s t ∧ t.ctxs = s.ctxs ∧ t.lanes = s.lanes
      ∧ (∀ u, t.chan u = withoutMoves (endedMoves s u (s.cme.accumulating.filter (removedAtTake s))) (s.chan u))
      ∧ (∀ i l x op, .region i l x op ∈ s.cme.accumulating → op = .guard ∨ op = .fix → i < 32 → (t.region i).closing = true)
      ∧ (∀ u b ws, .poisonClear u b ws ∈ s.cme.accumulating → removedAtTake s (.poisonClear u b ws) = true →
          ∀ w ∈ ws, .blockEnds w.1 w.2 (.failed .isProtected) ∈ ms)
      ∧ ∀ u mid src spare cause poisoned lane, .entry u mid src spare cause poisoned lane ∈ s.cme.accumulating →
          removedAtTake s (.entry u mid src spare cause poisoned lane) = true →
          ∀ m, (s.rlt u).move mid = some m → (t.rlt u).move mid = none ∧ .slotFreed u ∈ ms
            ∧ (∀ k ∈ (s.chan u).locks, k.mid = mid → ∀ h ∈ k.held, .reissue h.1 h.2 ∈ ms)
            ∧ ∀ w ∈ m.req.waiters,
                .blockEnds w.ctx w.j (.failed (if w.directed then .commitFailed else .isProtected)) ∈ ms))
  ∧ (∀ (s : State) (chg : Change), removedAtTake s chg = true ↔
      ∃ u b i, s.regionOfBlock u b = some i ∧ ((s.region i).inState .guarded = true ∨ (s.region i).inState .fixed = true)
        ∧ ((∃ mid spare poisoned lane, chg = .entry u mid b spare .programFail poisoned lane)
          ∨ ∃ ws, chg = .poisonClear u b ws))
  ∧ (∀ s : State, s.cme.state ≠ .closing ∨ s.cme.inFlight = none
      ∨ (∃ i, i < 32 ∧ (s.region i).closing = true ∧ stepsInChannels s i ≠ 0) → handle .closingCheck s = (s, []))
  ∧ (∀ (s : State) (i : Nat), stepsInChannels s i = 0 ↔
      ∀ u, ∀ e ∈ (s.chan u).performing.toList ++ (s.chan u).queue ++ (s.chan u).waiting,
        ∀ x j l r w, e.source = .foreground x j l r w → e.cmd ≠ .read → r ≠ i)
  ∧ (∀ (s : State) (f : InFlight), s.cme.state = .closing → s.cme.inFlight = some f →
      (∀ i, i < 32 → (s.region i).closing = true → stepsInChannels s i = 0) →
      (s.mirrorsInService = [] → handle .closingCheck s = commitFails f 2 s)
      ∧ (s.mirrorsInService ≠ [] → ∃ copies, handle .closingCheck s
          = (s.setCme { s.cme with state := .writing, inFlight := some { f with copies := copies } },
            copies.map fun k => .commitEntryArrives k.media .program k.slot.firstBlock)
        ∧ copies = s.mirrorsInService.map fun u => ⟨u, s.cme.targetSlot u, 0, false, .writing⟩))
  ∧ (∀ (s : State) (u : UnitId), u ∈ s.mirrorsInService ↔
      (u = 0 ∨ (u = 1 ∧ (s.width = 2 ∨ s.width = 4))) ∧ ((s.chan u).state = .online ∨ (s.chan u).state = .degraded))
  ∧ (∀ (c : Cme) (u : UnitId) (a b : SlotRecord), a = c.slotRecord u .a → b = c.slotRecord u .b →
      (u = 0 → a = c.slots[0] ∧ b = c.slots[1]) ∧ (u = 1 → a = c.slots[2] ∧ b = c.slots[3])
      ∧ (a = some (c.gen, c.curWseq) → c.currentSlot u = some .a ∧ c.targetSlot u = .b)
      ∧ (a ≠ some (c.gen, c.curWseq) → b = some (c.gen, c.curWseq) → c.currentSlot u = some .b ∧ c.targetSlot u = .a)
      ∧ (a ≠ some (c.gen, c.curWseq) → b ≠ some (c.gen, c.curWseq) →
        c.currentSlot u = none ∧ (a = none → c.targetSlot u = .a) ∧ (a ≠ none → b = none → c.targetSlot u = .b)
        ∧ ∀ p q, a = some p → b = some q →
          c.targetSlot u = if p.1 < q.1 ∨ (p.1 = q.1 ∧ p.2 ≤ q.2) then .a else .b))
  ∧ ∀ s : State, s.cme.state ≠ .loading →
      (s.cme.accumulating = [] → handle .engineLeaves s = (s.setCme { s.cme with state := .idle }, []))
      ∧ (s.cme.accumulating ≠ [] → handle .engineLeaves s = takeBatch s)

/-- The end of a program of a copy (R146): OK hands on the copy's next block, or makes it written after the last; PROGRAM_FAIL
and UNIT_OFFLINE make it failed. While another copy is being written the attempt goes on. At its end (R147): with a copy
written the commit succeeds; with none at the first attempt the units still in service get a second one, RETRYING, to the same
slots; else it fails with code 1. A success (R148, R139, R20, R110): the image's generation is current, the batch applied to
the live tables, the pending and closing marks of its regions clear, each region operation's and SET's context told, each
ONLINE member left without a free spare DEGRADED (R92), each batched move ended LIVE, out of its slot and its lock gone, the
steps held under it released, its waiters told the spare, its finding moved; its FAILING spares are no longer FAILING, its
poison clears' blocks succeed (R114). The batch is applied in its order: DEFINE gives an OPEN region, DELETE none, GUARD,
RELEASE and FIX the state, FIX the generation as fixed one (R14 to R18); an entry change an entry in from-block order with the
generation, its former spare dead (R109, R110); a dead mark a dead spare; a poison clear clears the flag and sets the
generation (R114); a SET nothing. Its events are MIRROR_COPY_FAILED (R147), REGION_CHANGED (R20), RELOCATED (R117), SPARE_LOW
(R116) and UNIT_DEGRADED (R92), each kind in its rule's order; the order of the kinds is log entry 54. A failure (R149, R111):
generation and live tables stay, COMMIT_FAILED carries the code (posted first: log entry 69), the contexts are told, each
batched move is DISCARDED and its waiters and the poison clears' blocks fail COMMIT_FAILED. Both set the slot records by the
copies (R141), leave nothing in flight and end with the engine's leaving (last: log entry 74). That the current write sequence
is the image's after a success and stays after a failure is log entry 18. -/
def Obligations.CommitsApplyOrDiscardTheBatch : Prop :=
  (∀ (s : State) (f : InFlight) (k : Copy), s.cme.inFlight = some f → f.copies = [k] → k.state = .writing →
    (k.next + 1 = f.image.blocks → ∃ t ms, handle (.copyEnds k.media .ok) s = (t, ms ++ [.engineLeaves])
      ∧ t.cme.gen = f.image.gen ∧ t.cme.curWseq = f.image.wseq ∧ t.cme.inFlight = none
      ∧ t.cme.accumulating = s.cme.accumulating
      ∧ t.durable = s.durable.applyAll f.image.gen f.batch
      ∧ (∀ i l x op, .region i l x op ∈ f.batch → (t.region i).pending = none ∧ (t.region i).closing = false
          ∧ .changeEnds x true ∈ ms)
      ∧ (∀ x, .config x ∈ f.batch → .changeEnds x true ∈ ms)
      ∧ SameDevice s t ∧ t.lanes = s.lanes ∧ t.ctxs = s.ctxs)
    ∧ (f.second = true → ∃ t ms, handle (.copyEnds k.media .programFail) s = (t, ms ++ [.engineLeaves])
      ∧ t.cme.gen = s.cme.gen ∧ t.cme.curWseq = s.cme.curWseq ∧ t.cme.inFlight = none
      ∧ t.cme.accumulating = s.cme.accumulating
      ∧ t.durable = s.durable
      ∧ (∀ i l x op, .region i l x op ∈ f.batch → (t.region i).pending = none ∧ (t.region i).closing = false
          ∧ .changeEnds x false ∈ ms)
      ∧ (∀ x, .config x ∈ f.batch → .changeEnds x false ∈ ms)
      ∧ SameDevice s t ∧ t.lanes = s.lanes ∧ t.ctxs = s.ctxs))
  ∧ (∀ (s : State) (u : UnitId) (out : CopyOutcome) (f : InFlight) (k n : Copy) (copies : List Copy),
      s.cme.inFlight = some f → f.copies.find? (fun c => c.media == u && c.state == .writing) = some k →
      n = (match out with
        | .ok => { k with
            next := k.next + 1, performed := true, state := if k.next + 1 = f.image.blocks then .written else .writing }
        | .programFail => { k with performed := true, state := .failed false (some (k.slot.firstBlock + k.next)) }
        | .offline sent => { k with
            performed := k.performed || sent
            state := .failed true (if k.performed = true ∨ sent = true then some (k.slot.firstBlock + k.next) else none) }) →
      copies = f.copies.map (fun c => if c.media = u then n else c) →
      (n.state = .writing → handle (.copyEnds u out) s
        = (s.setCme { s.cme with inFlight := some { f with copies := copies } },
          [.commitEntryArrives k.media .program (k.slot.firstBlock + (k.next + 1))]))
      ∧ (n.state ≠ .writing → (∃ c ∈ copies, c.state = .writing) →
        handle (.copyEnds u out) s = (s.setCme { s.cme with inFlight := some { f with copies := copies } }, []))
      ∧ (n.state ≠ .writing → (∀ c ∈ copies, c.state ≠ .writing) →
        ((∃ c ∈ copies, c.state = .written) → handle (.copyEnds u out) s
          = commitSucceeds { f with copies := copies } (s.setCme { s.cme with inFlight := some { f with copies := copies } }))
        ∧ ((∀ c ∈ copies, c.state ≠ .written) → ∀ again,
          again = (copies.filter fun c => (s.chan c.media).state.inService).map
            (fun c => (⟨c.media, c.slot, 0, false, .writing⟩ : Copy)) →
          (f.second = true ∨ again = [] → handle (.copyEnds u out) s
            = commitFails { f with copies := copies } 1 (s.setCme { s.cme with inFlight := some { f with copies := copies } }))
          ∧ (f.second = false → again ≠ [] → handle (.copyEnds u out) s
            = (s.setCme { s.cme with
                state := .retrying
                inFlight := some { f with second := true, copies := again, earlier := copies } },
              again.map fun c => .commitEntryArrives c.media .program c.slot.firstBlock)))))
  ∧ (∀ (f : InFlight) (s : State), ∃ t ms, commitSucceeds f s = (t, ms ++ [.engineLeaves])
      ∧ t.cme.gen = f.image.gen ∧ t.cme.curWseq = f.image.wseq ∧ t.cme.inFlight = none
      ∧ t.durable = s.durable.applyAll f.image.gen f.batch
      ∧ (∃ events changes entries, CommitEvents f s t events changes entries) ∧ SlotsRecorded f s t
      ∧ (∀ u, t.chan u = { withoutMoves (endedMoves s u f.batch) (s.chan u) with
          state := if (s.chan u).state = .online ∧ u.val < s.width ∧ (t.rlt u).table.freeCount = 0 then .degraded
            else (s.chan u).state })
      ∧ BatchReported f.batch true s t ms)
  ∧ (∀ (f : InFlight) (code : Nat) (s : State), ∃ t ms, commitFails f code s = (t, ms ++ [.engineLeaves])
      ∧ t.cme.gen = s.cme.gen ∧ t.cme.curWseq = s.cme.curWseq ∧ t.cme.inFlight = none ∧ t.durable = s.durable
      ∧ t.ntu = (postEvent .commitFailed { code := some code, gen := some s.cme.gen } s).ntu ∧ SlotsRecorded f s t
      ∧ (∀ u, t.chan u = withoutMoves (endedMoves s u f.batch) (s.chan u)) ∧ BatchReported f.batch false s t ms)
  ∧ (∀ (g : Nat) (c : Change) (batch : List Change) (d : Durable),
      d.applyAll g [] = d ∧ d.applyAll g (c :: batch) = (d.apply g c).applyAll g batch)
  ∧ (∀ (g i : Nat) (l : LaneId) (x : CtxId) (op : RegionOp) (d : Durable) (old : Option RegionDef), d.regions[i]? = some old →
      (d.apply g (.region i l x op)).regions[i]? = some (match op, old with
        | .define base length owners label, _ => some ⟨base, length, owners, .opened, label, none⟩
        | .delete, _ => none
        | _, none => none
        | .guard, some e => some { e with state := .guarded }
        | .release, some e => some { e with state := .opened }
        | .fix, some e => some { e with state := .fixed, fixedGen := some g })
      ∧ (∀ k, k ≠ i → (d.apply g (.region i l x op)).regions[k]? = d.regions[k]?)
      ∧ (d.apply g (.region i l x op)).units = d.units ∧ (d.apply g (.region i l x op)).log = d.log)
  ∧ (∀ (g : Nat) (u : UnitId) (mid src spare : Nat) (cause : Cause) (poisoned : Bool) (lane : Option LaneId) (d e : Durable),
      e = d.apply g (.entry u mid src spare cause poisoned lane) →
      (e.units[u]).find src = some ⟨src, spare, cause, poisoned, g⟩
      ∧ (∀ b, b ≠ src → (e.units[u]).find b = (d.units[u]).find b)
      ∧ (((d.units[u]).entries.map RelEntry.src).Pairwise (· < ·) → ((e.units[u]).entries.map RelEntry.src).Pairwise (· < ·))
      ∧ (e.units[u]).dead = (d.units[u]).dead ++ (match (d.units[u]).find src with | some old => [old.spare] | none => [])
      ∧ (∀ v : UnitId, v ≠ u → e.units[v] = d.units[v]) ∧ e.regions = d.regions ∧ e.log = d.log)
  ∧ ∀ (g : Nat) (u : UnitId) (k b : Nat) (ws : List (CtxId × Nat)) (x : CtxId) (d : Durable),
      d.apply g (.dead u k) = { d with units := d.units.set u { d.units[u] with dead := (d.units[u]).dead ++ [k] } }
      ∧ d.apply g (.poisonClear u b ws) = { d with units := d.units.set u { d.units[u] with
          entries := (d.units[u]).entries.map fun e =>
            if e.src = b ∧ e.poisoned = true then { e with poisoned := false, gen := g } else e } }
      ∧ d.apply g (.config x) = d

/-! ### Patrol's timers -/

/-- PACE_EXPIRY of a running pace timer whose expiry has come stops it: a unit in PACE_WAIT with a pace above 0 becomes READY;
with the device not RUNNING it waits there, in a RUNNING device it makes its offer at the event; any other sub-state stays
(R125, R124, R135).
SETTLE_EXPIRY of a running settle timer whose expiry has come stops it: a SUSPENDED unit becomes READY, waiting or offering in the
same way; any other sub-state stays (R126, R135).
That at pace 0 the unit stays in PACE_WAIT, with the device not RUNNING too, is log entry 51, and that an expiry of a timer that
does not run or is not due does nothing is the model's choice (log entries 2 and 23). -/
def Obligations.PatrolTimersExpire : Prop :=
  (∀ (u : UnitId) (s : State),
      ((∀ t, (s.patrolUnit u).paceTimer = some t → reached s.tick t = false) → exec (.paceExpiry u) s = .next s)
      ∧ ∀ expiry, (s.patrolUnit u).paceTimer = some expiry → reached s.tick expiry = true →
        ((s.patrolUnit u).sub ≠ .paceWait ∨ s.patrol.cfg.pace = 0 →
          exec (.paceExpiry u) s = .next (s.setPatrolUnit u { s.patrolUnit u with paceTimer := none }))
        ∧ ((s.patrolUnit u).sub = .paceWait → 0 < s.patrol.cfg.pace → s.dev.state ≠ .running →
          exec (.paceExpiry u) s = .next (s.setPatrolUnit u { s.patrolUnit u with paceTimer := none, sub := .ready }))
        ∧ ((s.patrolUnit u).sub = .paceWait → 0 < s.patrol.cfg.pace → s.dev.state = .running →
          exec (.paceExpiry u) s
            = .next (workOff (handle (.patrolReady u) (s.setPatrolUnit u { s.patrolUnit u with paceTimer := none })))))
    ∧ (∀ (u : UnitId) (s : State),
      ((∀ t, (s.patrolUnit u).settleTimer = some t → reached s.tick t = false) → exec (.settleExpiry u) s = .next s)
      ∧ ∀ expiry, (s.patrolUnit u).settleTimer = some expiry → reached s.tick expiry = true →
        ((s.patrolUnit u).sub ≠ .suspended →
          exec (.settleExpiry u) s = .next (s.setPatrolUnit u { s.patrolUnit u with settleTimer := none }))
        ∧ ((s.patrolUnit u).sub = .suspended → s.dev.state ≠ .running →
          exec (.settleExpiry u) s = .next (s.setPatrolUnit u { s.patrolUnit u with settleTimer := none, sub := .ready }))
        ∧ ((s.patrolUnit u).sub = .suspended → s.dev.state = .running →
          exec (.settleExpiry u) s
            = .next (workOff (handle (.patrolReady u) (s.setPatrolUnit u { s.patrolUnit u with settleTimer := none })))))

/-- A unit that becomes READY waits there outside RUNNING, with no open pass or with the stop mark; at pace 0 it is in
PACE_WAIT without a timer; else it offers its cursor's block (R124, R135). The answer (R79): OFFLINE out of service; BUSY
unless link, queue and waiting list are empty; SETTLING until the settle interval after the last foreground departure is over
(one before a warm reset counts: log entry 56); MOVING on a locked block; POISONED; else accepted. Accepted, the read goes to
the block's target, the block is marked CLEAN-SINCE-READ (R87), the unit is READ_OUT and the pace timer runs one interval
(R125); MOVING passes the block by, to offer again or FINISHED; POISONED is a read end; BUSY and SETTLING suspend the unit;
OFFLINE stops it. A read end (R127): CLEAN, BLANK, POISONED and a CORRECTED that is not weak pass the block; a weak or
UNCORRECTABLE one hands a finding of the open pass over and holds the cursor. A finding's first report (R128): TAKEN passes
the block, the finding outstanding; ABSORBED or ended passes it; FULL holds it in MOVE_WAIT; but for TAKEN the mark goes. Its
end leaves the outstanding ones, a PATROL_WEAK moved counts in weak-moved (R129); reports of another pass change nothing. A
free slot makes a MOVE_WAIT unit READY (R128). A quiet report readies a SUSPENDED unit or starts its settle timer (R126, log
entry 56); none is made while an entry is queued or performed (R79; when it is made: log entry 21). A lost unit is
STOPPED_UNIT, its timers stopped, its cursor kept (R136), a FINISHED one too (log entry 43). -/
def Obligations.ReadyUnitReadsItsCursorBlock : Prop :=
  (∀ (u : UnitId) (s : State), s.dev.state = .running → s.patrol.running = true → s.patrol.stopMark = false →
    0 < s.patrol.cfg.pace → offerAnswer s u (s.patrolUnit u).cursor = .accepted →
    ∃ t, handle (.patrolReady u) s = (t, [])
      ∧ (t.patrolUnit u).sub = .readOut ∧ (t.patrolUnit u).cursor = (s.patrolUnit u).cursor
      ∧ (t.patrolUnit u).paceTimer = some (s.tick + BitVec.ofNat 64 (1000000 / s.patrol.cfg.pace))
      ∧ (t.chan u).performing = some ⟨.patrol, .read, (s.patrolUnit u).cursor⟩
      ∧ (t.chan u).marks = ((s.chan u).marks.filter fun k => k.1 != (s.patrolUnit u).cursor)
          ++ [((s.patrolUnit u).cursor, .cleanSinceRead)]
      ∧ t.out = s.out ++ [.media u ((s.chan u).sent + 1) (.read ((s.rlt u).table.target (s.patrolUnit u).cursor))])
  ∧ (∀ (u : UnitId) (b : Nat) (s : State),
      ((s.chan u).state.inService = false → offerAnswer s u b = .offline)
      ∧ ((s.chan u).state.inService = true →
        ((s.chan u).link ≠ .idle ∨ (s.chan u).queue ≠ [] ∨ (s.chan u).waiting ≠ [] → offerAnswer s u b = .busy)
        ∧ ((s.chan u).link = .idle → (s.chan u).queue = [] → (s.chan u).waiting = [] →
          (∀ d, (s.chan u).lastDeparture = some d → reached s.tick (d + BitVec.ofNat 64 s.patrol.cfg.settle) = false →
            offerAnswer s u b = .settling d)
          ∧ ((∀ d, (s.chan u).lastDeparture = some d → reached s.tick (d + BitVec.ofNat 64 s.patrol.cfg.settle) = true) →
            ((s.chan u).lockOn b ≠ none → offerAnswer s u b = .moving)
            ∧ ((s.chan u).lockOn b = none → (s.rlt u).table.poisoned b = true → offerAnswer s u b = .poisoned)
            ∧ ((s.chan u).lockOn b = none → (s.rlt u).table.poisoned b = false → offerAnswer s u b = .accepted)))))
  ∧ (∀ (u : UnitId) (s : State),
      (s.patrol.running = false ∨ s.dev.state ≠ .running ∨ s.patrol.stopMark = true →
        handle (.patrolReady u) s = (s.setPatrolUnit u { s.patrolUnit u with sub := .ready }, []))
      ∧ (s.patrol.running = true → s.dev.state = .running → s.patrol.stopMark = false →
        (s.patrol.cfg.pace = 0 → handle (.patrolReady u) s
          = (s.setPatrolUnit u { s.patrolUnit u with sub := .paceWait, paceTimer := none }, []))
        ∧ (0 < s.patrol.cfg.pace → offerAnswer s u (s.patrolUnit u).cursor ≠ .accepted → ∃ v ms,
          handle (.patrolReady u) s = (s.setPatrolUnit u v, ms)
          ∧ (offerAnswer s u (s.patrolUnit u).cursor = .moving →
            v = { s.patrolUnit u with
                cursor := (s.patrolUnit u).cursor + 1
                sub := if 65536 ≤ (s.patrolUnit u).cursor + 1 then .finished else .ready }
              ∧ ms = if 65536 ≤ (s.patrolUnit u).cursor + 1 then [.passCheck] else [.patrolReady u])
          ∧ (offerAnswer s u (s.patrolUnit u).cursor = .poisoned →
            v = { s.patrolUnit u with
                sub := .readOut
                paceTimer := some (s.tick + BitVec.ofNat 64 (1000000 / s.patrol.cfg.pace))
                settleTimer := none }
              ∧ ms = [.patrolReadEnds u .poisoned false false])
          ∧ (offerAnswer s u (s.patrolUnit u).cursor = .busy →
            v = { s.patrolUnit u with sub := .suspended, settleTimer := none } ∧ ms = [])
          ∧ (∀ d, offerAnswer s u (s.patrolUnit u).cursor = .settling d →
            v = { s.patrolUnit u with
                sub := .suspended, settleTimer := some (d + BitVec.ofNat 64 s.patrol.cfg.settle) } ∧ ms = [])
          ∧ (offerAnswer s u (s.patrolUnit u).cursor = .offline →
            v = { s.patrolUnit u with sub := .stoppedUnit, paceTimer := none, settleTimer := none } ∧ ms = [.passCheck]))))
  ∧ (∀ (u : UnitId) (cls : ReadClass) (weak sp : Bool) (s : State),
      (s.patrol.running = false ∨ (s.patrolUnit u).sub ≠ .readOut → handle (.patrolReadEnds u cls weak sp) s = (s, []))
      ∧ (s.patrol.running = true → (s.patrolUnit u).sub = .readOut →
        (cls = .clean ∨ cls = .blank ∨ cls = .poisoned ∨ (cls = .corrected ∧ weak = false) →
          ∃ t ms, handle (.patrolReadEnds u cls weak sp) s = (t, ms) ∧ BlockPassed u cls s t ms ∧ t.chans = s.chans
            ∧ (t.patrolUnit u).findings = (s.patrolUnit u).findings)
        ∧ ((cls = .corrected ∧ weak = true) ∨ cls = .uncorrectable →
          handle (.patrolReadEnds u cls weak sp) s
            = (s, [.moveRequest u ⟨(s.patrolUnit u).cursor, if cls = .uncorrectable then .readLost else .patrolWeak, none, none,
                none, [], some ⟨s.patrol.passNumber, decide (cls = .uncorrectable)⟩, false, none⟩]))))
  ∧ (∀ (u : UnitId) (b : Nat) (tag : FindingTag) (answer : FindingAnswer) (s : State),
      (s.patrol.running = false ∨ tag.pass ≠ s.patrol.passNumber ∨ (s.patrolUnit u).sub ≠ .readOut →
        handle (.findingAnswered u b tag answer) s = (s, []))
      ∧ (s.patrol.running = true → tag.pass = s.patrol.passNumber → (s.patrolUnit u).sub = .readOut →
        ∃ t ms, handle (.findingAnswered u b tag answer) s = (t, ms)
          ∧ (answer ≠ .full → BlockPassed u (if tag.lost then .uncorrectable else .corrected) s t ms)
          ∧ (t.patrolUnit u).findings
            = (if answer = .taken then (s.patrolUnit u).findings ++ [b] else (s.patrolUnit u).findings)
          ∧ (t.chan u).marks
            = (if answer = .taken then (s.chan u).marks else (s.chan u).marks.filter fun m => m.1 != b)
          ∧ (answer = .full → (t.patrolUnit u).sub = .moveWait ∧ (t.patrolUnit u).cursor = (s.patrolUnit u).cursor
            ∧ t.patrol.tallies = s.patrol.tallies ∧ ms = [.passCheck])))
  ∧ (∀ (u : UnitId) (b : Nat) (tag : FindingTag) (res : FindingEnd) (s : State),
      (s.patrol.running = false ∨ tag.pass ≠ s.patrol.passNumber → handle (.findingEnded u b tag res) s = (s, []))
      ∧ (s.patrol.running = true → tag.pass = s.patrol.passNumber →
        ∃ t, handle (.findingEnded u b tag res) s = (t, [.passCheck])
          ∧ t.patrolUnit u = { s.patrolUnit u with findings := (s.patrolUnit u).findings.erase b }
          ∧ t.patrol.tallies = { s.patrol.tallies with
              weakMoved := s.patrol.tallies.weakMoved + (if res = .moved ∧ tag.lost = false then 1 else 0) }))
  ∧ (∀ (u : UnitId) (s : State),
      handle (.freeSlotReport u) s
        = (if s.patrol.running = true ∧ (s.patrolUnit u).sub = .moveWait then handle (.patrolReady u) s else (s, []))
      ∧ ((s.chan u).link ≠ .idle ∨ (s.chan u).queue ≠ [] ∨ s.patrol.running = false ∨ (s.patrolUnit u).sub ≠ .suspended →
        handle (.quiet u) s = (s, []))
      ∧ ((s.chan u).link = .idle → (s.chan u).queue = [] → s.patrol.running = true → (s.patrolUnit u).sub = .suspended →
        ((∀ d, (s.chan u).lastDeparture = some d → reached s.tick (d + BitVec.ofNat 64 s.patrol.cfg.settle) = true) →
          handle (.quiet u) s = handle (.patrolReady u) s)
        ∧ ∀ d, (s.chan u).lastDeparture = some d → reached s.tick (d + BitVec.ofNat 64 s.patrol.cfg.settle) = false →
          handle (.quiet u) s = (s.setPatrolUnit u
            { s.patrolUnit u with settleTimer := some (d + BitVec.ofNat 64 s.patrol.cfg.settle) }, []))
      ∧ ∀ mark, handle (.patrolLost u mark) s
        = (if s.patrol.running = true ∧ u.val < s.width then
            (s.setPatrolUnit u { s.patrolUnit u with sub := .stoppedUnit, paceTimer := none, settleTimer := none },
              [.passCheck])
          else (s, [])))

/-! ### Notification -/

/-- A route takes a cause by the table of R184. -/
def Obligations.RouteTakesACause : Prop :=
  ∀ (r : RouteId) (s : State),
    ((s.route r).state = .idle → (s.routeCfg r).hold = 0 ∨ (s.routeCfg r).threshold ≤ 1 → takeCause r s = sendRoute r s)
    ∧ ((s.route r).state = .idle → 0 < (s.routeCfg r).hold → 1 < (s.routeCfg r).threshold →
      takeCause r s = s.setRoute r
        { s.route r with
          state := .holding, count := 1, timer := some (s.tick + BitVec.ofNat 64 (s.routeCfg r).hold) })
    ∧ ((s.route r).state = .holding → (s.routeCfg r).threshold ≤ (s.route r).count + 1 → takeCause r s = sendRoute r s)
    ∧ ((s.route r).state = .holding → (s.route r).count + 1 < (s.routeCfg r).threshold →
      takeCause r s = s.setRoute r { s.route r with count := (s.route r).count + 1 })
    ∧ ((s.route r).state = .signalled →
      takeCause r s = s.setRoute r { s.route r with more := true, count := min ((s.route r).count + 1) 64 })

/-- A send: the route is SIGNALLED with count 0 and its hold timer stopped, and its message, with an anchor set, the device
not HALTED and messages enabled, stands once and last in the write list; otherwise no message is placed. The other route is
unchanged. HOLD_EXPIRY in HOLDING sends (R185, R178, R180). That outside HOLDING, before its expiry and without a timer it does
nothing is the model's choice (log entries 2 and 23). -/
def Obligations.RouteSends : Prop :=
  ∀ (r : RouteId) (s : State),
    ((sendRoute r s).route r = { s.route r with state := .signalled, count := 0, timer := none }
      ∧ (∀ q, q ≠ r → (sendRoute r s).route q = s.route q)
      ∧ (s.anchor ≠ 0 → s.dev.state ≠ .halted → s.messagesEnabled = true →
        (sendRoute r s).ntu.writes = s.ntu.writes.filter (fun w => w.target != .message r) ++ [⟨.message r, []⟩])
      ∧ (s.anchor = 0 ∨ s.dev.state = .halted ∨ s.messagesEnabled = false → (sendRoute r s).ntu.writes = s.ntu.writes)
      ∧ SameDevice s (sendRoute r s) ∧ SameMedia s (sendRoute r s) ∧ SameRecords s (sendRoute r s)
      ∧ (sendRoute r s).lanes = s.lanes ∧ (sendRoute r s).out = s.out)
    ∧ (∀ expiry, (s.route r).state = .holding → (s.route r).timer = some expiry → reached s.tick expiry = true →
      exec (.holdExpiry r) s = .next (sendRoute r s))
    ∧ ((s.route r).state ≠ .holding → exec (.holdExpiry r) s = .next s)
    ∧ ((∀ expiry, (s.route r).timer = some expiry → reached s.tick expiry = false) →
      exec (.holdExpiry r) s = .next s)

/-- ACKNOWLEDGE, for each route named: SIGNALLED without more mark goes IDLE with count 0; with it, the mark clears and the
route HOLDS afresh with its count, or sends at once when the hold time is 0 or the count at or above the threshold; IDLE and
HOLDING, and the route not named, are unchanged (R186). A route that sends has its message last in the write list, a waiting one
of its own leaving its place, and none while the host bus has messages disabled (R178, R185); every other request keeps its
place. Where both send, A's message stands before B's (log entry 53). With no anchor and in HALTED nothing happens (R186). -/
def Obligations.AcknowledgeReleasesTheRoute : Prop :=
  ∀ (mask : BitVec 2) (s : State),
    (.a ∈ maskRoutes mask ↔ mask.getLsbD 0 = true) ∧ (.b ∈ maskRoutes mask ↔ mask.getLsbD 1 = true)
    ∧ (s.anchor = 0 ∨ s.dev.state = .halted → exec (.acknowledge mask) s = .next s)
    ∧ (s.anchor ≠ 0 → s.dev.state ≠ .halted → ∃ t, exec (.acknowledge mask) s = .next t
      ∧ (∀ r, r ∉ maskRoutes mask ∨ (s.route r).state ≠ .signalled → t.route r = s.route r)
      ∧ (∀ r, r ∈ maskRoutes mask → (s.route r).state = .signalled → (s.route r).more = false →
          t.route r = { s.route r with state := .idle, count := 0 })
      ∧ (∀ r, r ∈ maskRoutes mask → (s.route r).state = .signalled → (s.route r).more = true →
          0 < (s.routeCfg r).hold → (s.route r).count < (s.routeCfg r).threshold →
          t.route r = { s.route r with
            state := .holding, more := false, timer := some (s.tick + BitVec.ofNat 64 (s.routeCfg r).hold) })
      ∧ (∀ r, r ∈ maskRoutes mask → (s.route r).state = .signalled → (s.route r).more = true →
          (s.routeCfg r).hold = 0 ∨ (s.routeCfg r).threshold ≤ (s.route r).count →
          t.route r = { s.route r with state := .signalled, count := 0, more := false, timer := none })
      ∧ (∀ (sends : RouteId → Bool) (before : List WriteReq),
          (∀ r, sends r = true ↔ r ∈ maskRoutes mask ∧ (s.route r).state = .signalled ∧ (s.route r).more = true
            ∧ ((s.routeCfg r).hold = 0 ∨ (s.routeCfg r).threshold ≤ (s.route r).count)) →
          before = s.ntu.writes.filter (fun w =>
            !(sends .a && w.target == .message .a) && !(sends .b && w.target == .message .b)) →
          t.ntu.writes = if s.messagesEnabled = true then before
              ++ (if sends .a then [⟨.message .a, []⟩] else []) ++ (if sends .b then [⟨.message .b, []⟩] else [])
            else s.ntu.writes)
      ∧ t.ntu.slots = s.ntu.slots ∧ t.ntu.handed = s.ntu.handed
      ∧ SameDevice s t ∧ SameMedia s t ∧ SameRecords s t ∧ t.lanes = s.lanes ∧ t.out = s.out)

/-- An occurrence of an event kind: its slot takes the detail with the tick as stamp, a field the owner leaves out all ones, its
count rises by one and stops at 2^32 - 1, the other slots are unchanged, with an anchor set and the device not HALTED the slot's
write waits in the list, in place of a waiting one, and then the cause of the kind's route is taken; nothing else changes (R181,
R178, R183). A cause is dropped when the route is none, while the anchor is 0 and in HALTED; else the route takes it (R183, R180).
The ten kinds have the slots of R181, counted here from 0. -/
def Obligations.EventOccurrenceIsCountedAndWritten : Prop :=
  (∀ (k : EventKind) (o : Occurrence) (s : State), ∃ t, postEvent k o s = routeCause s.settings.eventRoutes[k.slot] t
      ∧ t = s.setNtu t.ntu ∧ (∀ r, t.route r = s.route r) ∧ t.ntu.handed = s.ntu.handed
      ∧ (t.ntu.slots[k.slot]).detail = o.detail s.tick
      ∧ (t.ntu.slots[k.slot]).count
        = (if (s.ntu.slots[k.slot]).count < 4294967295 then (s.ntu.slots[k.slot]).count + 1 else (s.ntu.slots[k.slot]).count)
      ∧ (∀ j : Fin 10, j ≠ k.slot → t.ntu.slots[j] = s.ntu.slots[j])
      ∧ (s.anchor ≠ 0 → s.dev.state ≠ .halted →
        ((∀ w ∈ s.ntu.writes, w.target ≠ .slot k.slot) →
          t.ntu.writes = s.ntu.writes ++ [⟨.slot k.slot, (t.ntu.slots[k.slot]).bytes⟩])
        ∧ ∀ before w after, s.ntu.writes = before ++ w :: after → w.target = .slot k.slot →
          (∀ v ∈ before, v.target ≠ .slot k.slot) →
          t.ntu.writes = before ++ ⟨.slot k.slot, (t.ntu.slots[k.slot]).bytes⟩ :: after)
      ∧ (s.anchor = 0 ∨ s.dev.state = .halted → t.ntu.writes = s.ntu.writes)
      ∧ (postEvent k o s).ntu.slots = t.ntu.slots
      ∧ (s.anchor ≠ 0 → s.dev.state ≠ .halted →
        (⟨.slot k.slot, (t.ntu.slots[k.slot]).bytes⟩ : WriteReq) ∈ (postEvent k o s).ntu.writes)
      ∧ SameDevice s (postEvent k o s) ∧ SameMedia s (postEvent k o s) ∧ SameRecords s (postEvent k o s)
      ∧ (postEvent k o s).lanes = s.lanes ∧ (postEvent k o s).out = s.out)
  ∧ (∀ (sel : RouteSel) (s : State),
      (sel = .none ∨ s.anchor = 0 ∨ s.dev.state = .halted → routeCause sel s = s)
      ∧ (s.anchor ≠ 0 → s.dev.state ≠ .halted → routeCause .a s = takeCause .a s ∧ routeCause .b s = takeCause .b s))
  ∧ (∀ (o : Occurrence) (tick : Tick), o.detail tick
      = ⟨match o.code with | some v => BitVec.ofNat 32 v | none => BitVec.allOnes 32, tick,
        match o.gen with | some v => BitVec.ofNat 64 v | none => BitVec.allOnes 64,
        match o.logical with | some v => BitVec.ofNat 32 v | none => BitVec.allOnes 32,
        match o.block with | some v => BitVec.ofNat 32 v | none => BitVec.allOnes 32,
        match o.media with | some v => BitVec.ofNat 8 v | none => BitVec.allOnes 8,
        match o.lane with | some v => BitVec.ofNat 8 v | none => BitVec.allOnes 8,
        match o.region with | some v => BitVec.ofNat 8 v | none => BitVec.allOnes 8⟩)
  ∧ (∀ e : EventSlot, e.bytes = leBytes 4 e.count ++ leBytes 4 e.detail.code.toNat ++ leBytes 8 e.detail.stamp.toNat
      ++ leBytes 8 e.detail.gen.toNat ++ leBytes 4 e.detail.logical.toNat ++ leBytes 4 e.detail.block.toNat
      ++ [e.detail.media, e.detail.lane, e.detail.region] ++ List.replicate 29 0)
  ∧ [EventKind.relocated, .dataLost, .unitDegraded, .unitOffline, .patrolPassEnd, .commitFailed, .mirrorCopyFailed, .laneFault,
      .regionChanged, .spareLow].map EventKind.slot = [0, 1, 2, 3, 4, 5, 6, 7, 8, 9]

/-- DEVICE_AREA_WRITE hands the head of the write list to the LIF: a slot as its 60 detail bytes and then its count, a status
entry as one write, a message as a message, the identity entry as one write with zeros in the unlisted bytes 1,344 to 1,535
and 2,176 to 4,095 of the page behind it (R155, R178, R195; that they follow the identity entry as two writes is log entry
37). DEVICE_AREA_WRITE_COMPLETED counts one write less in flight; during a warm reset that ends the reset when nothing else is
left of its work: STOPPED, fault none, anchor 0 (R179, R200). That both do nothing with nothing waiting or nothing in flight
is the model's choice (log entry 2); the completion is that of a write of the present epoch (log entry 75). -/
def Obligations.WriteListIsIssuedInOrder : Prop :=
  ∀ s : State,
    (s.ntu.writes = [] → exec .deviceAreaWrite s = .next s)
    ∧ (∀ w rest, s.ntu.writes = w :: rest → ∃ t, exec .deviceAreaWrite s = .next t
      ∧ t.ntu.writes = rest
      ∧ (∀ k, w.target = .slot k →
          t.out = s.out ++ [.hostWrite (s.anchor + BitVec.ofNat 64 (1536 + 64 * k.val) + 4) (w.content.drop 4),
              .hostWrite (s.anchor + BitVec.ofNat 64 (1536 + 64 * k.val)) (w.content.take 4)]
            ∧ t.ntu.handed = s.ntu.handed + 2)
      ∧ (∀ l, w.target = .laneStatus l →
          t.out = s.out ++ [.hostWrite (s.anchor + BitVec.ofNat 64 (1088 + 64 * l.val)) w.content]
            ∧ t.ntu.handed = s.ntu.handed + 1)
      ∧ (w.target = .identity →
          t.out = s.out ++ [.hostWrite (s.anchor + 1024) w.content, .hostWrite (s.anchor + 1344) (List.replicate 192 0#8),
              .hostWrite (s.anchor + 2176) (List.replicate 1920 0#8)]
            ∧ t.ntu.handed = s.ntu.handed + 3)
      ∧ (∀ r, w.target = .message r → t.out = s.out ++ [.message r] ∧ t.ntu.handed = s.ntu.handed + 1)
      ∧ t.ntu.slots = s.ntu.slots ∧ t.ntu.routeA = s.ntu.routeA ∧ t.ntu.routeB = s.ntu.routeB
      ∧ SameDevice s t ∧ SameMedia s t ∧ SameRecords s t ∧ t.lanes = s.lanes)
    ∧ (s.ntu.handed = 0 → ∀ epoch, exec (.deviceAreaWriteCompleted epoch) s = .next s)
    ∧ (0 < s.ntu.handed → s.dev.resetInProgress = false →
      exec (.deviceAreaWriteCompleted s.lif.epoch) s = .next { s with ntu := { s.ntu with handed := s.ntu.handed - 1 } })
    ∧ (0 < s.ntu.handed → s.dev.resetInProgress = true → ∃ t, exec (.deviceAreaWriteCompleted s.lif.epoch) s = .next t
      ∧ t.ntu.handed = s.ntu.handed - 1 ∧ t.ntu.writes = s.ntu.writes ∧ t.ntu.slots = s.ntu.slots ∧ t.out = s.out
      ∧ SameMedia s t ∧ SameRecords s t ∧ t.lanes = s.lanes ∧ t.lif = s.lif
      ∧ (ResetWorkOver (s.dev.state = .halted) t →
          t.dev = { s.dev with state := .stopped, fault := .none, resetInProgress := false } ∧ t.anchor = 0
            ∧ t.anchorHigh = 0 ∧ ∀ r, (t.route r).state = .idle)
      ∧ (¬ ResetWorkOver (s.dev.state = .halted) t →
          t = { s with ntu := { s.ntu with handed := s.ntu.handed - 1 } }))

/-! ### Layouts -/

/-- The CRC of "123456789" is 0xE3069283 (R41). A little-endian field of k bytes written and read gives the number back
modulo 256^k (00_scope, Field layouts). The snapshots have the sizes of R51, that of a relocation table for at most 1,024
entries, and the bytes of section 2.12: each region entry by its index, an undefined one zero but for the index; each live
relocation entry in table order, then unused positions of all ones; the patrol header and the 16 log slots in storage order, one
never written zero; each channel's unit record, with the slot that holds the current generation for a mirror and the dead-spare
set in its second half, whose bits `ImageEntriesReadBack` states. The slot is that of the current image, by generation and write
sequence (log entry 18). -/
def Obligations.FieldsAndSnapshotsHaveTheirForms : Prop :=
  (crc32c [0x31#8, 0x32#8, 0x33#8, 0x34#8, 0x35#8, 0x36#8, 0x37#8, 0x38#8, 0x39#8] = 0xE3069283#32)
    ∧ (∀ k v : Nat, leValue (leBytes k v) = v % 256 ^ k ∧ (leBytes k v).length = k)
    ∧ ∀ s : State, (regionSnapshot s).length = 1024 ∧ (logSnapshot s).length = 1536 ∧ (unitSummary s).length = 1024
      ∧ (∀ u, (s.rlt u).table.entries.length ≤ 1024 → (relocationSnapshot s u).length = 16384)
      ∧ (∀ unit, snapshot s 0 unit = regionSnapshot s ∧ snapshot s 2 unit = logSnapshot s ∧ snapshot s 3 unit = unitSummary s)
      ∧ (∀ u : UnitId, snapshot s 1 u.val = relocationSnapshot s u)
      ∧ regionSnapshot s = (List.range 32).flatMap (fun i => match (s.region i).live with
        | none => leBytes 1 i ++ List.replicate 31 0#8
        | some d => leBytes 1 i ++ leBytes 1 1 ++ leBytes 1 (match d.state with | .opened => 0 | .guarded => 1 | .fixed => 2)
            ++ leBytes 1 d.owners.toNat
            ++ leBytes 1 ((if (s.region i).pending = none then 0 else 1) + (if (s.region i).closing then 2 else 0))
            ++ leBytes 1 (s.region i).users ++ leBytes 2 d.label.toNat ++ leBytes 4 d.base ++ leBytes 4 d.length
            ++ leBytes 8 (d.fixedGen.getD 0) ++ List.replicate 8 0#8)
      ∧ (∀ u, relocationSnapshot s u
        = (s.rlt u).table.entries.flatMap (fun e => leBytes 4 e.src ++ leBytes 2 e.spare ++ leBytes 1 (match e.cause with
              | .patrolWeak => 1 | .readWeak => 2 | .readLost => 3 | .programFail => 4 | .directed => 5)
            ++ leBytes 1 (if e.poisoned then 1 else 0) ++ leBytes 8 e.gen)
          ++ List.replicate (16384 - 16 * (s.rlt u).table.entries.length) 0xFF#8)
      ∧ logSnapshot s
        = leBytes 1 s.log.pointer ++ leBytes 1 (if s.patrol.running then 1 else 0)
          ++ leBytes 1 (if s.patrol.cfg.auto then 1 else 0) ++ leBytes 1 s.patrol.cfg.weak ++ leBytes 2 s.patrol.cfg.pace
          ++ leBytes 2 0 ++ leBytes 4 s.patrol.cfg.settle ++ leBytes 4 s.patrol.passNumber.toNat ++ List.replicate 496 0#8
          ++ s.log.slots.toList.flatMap (fun slot => match slot with
            | none => List.replicate 64 0#8
            | some e => leBytes 4 e.pass.toNat ++ leBytes 1 (match e.outcome with | .complete => 1 | .stopped => 2 | .reset => 3)
                ++ leBytes 1 e.unitsStopped ++ leBytes 2 0 ++ leBytes 8 e.startStamp.toNat ++ leBytes 8 e.endStamp.toNat
                ++ leBytes 8 e.endGen ++ leBytes 4 e.tallies.read ++ leBytes 4 e.tallies.corrected
                ++ leBytes 4 e.tallies.weakMoved ++ leBytes 4 e.tallies.lostFound ++ leBytes 4 e.tallies.blankSkipped
                ++ List.replicate 12 0#8)
      ∧ unitSummary s = four.flatMap (fun u =>
          leBytes 1 (match (s.chan u).state with | .absent => 0 | .online => 1 | .degraded => 2 | .offline => 3)
            ++ leBytes 1 (if (s.chan u).member then 1 else 0) ++ leBytes 1 (if isMirrorUnder s.width u then 1 else 0)
            ++ leBytes 1 (if isMirrorUnder s.width u = false then 0
              else if s.cme.slotRecord u .a = some (s.cme.gen, s.cme.curWseq) then 1
              else if s.cme.slotRecord u .b = some (s.cme.gen, s.cme.curWseq) then 2 else 0)
            ++ leBytes 2 (1024 - (s.rlt u).table.entries.length - (s.rlt u).table.dead.length)
            ++ leBytes 2 ((s.rlt u).moves.length + (s.rlt u).failing.length) ++ leBytes 2 (s.rlt u).table.entries.length
            ++ leBytes 2 (s.rlt u).table.dead.length ++ leBytes 2 (s.rlt u).table.entries.length
            ++ leBytes 2 ((s.rlt u).table.entries.filter fun e => e.poisoned).length ++ leBytes 1 (s.rlt u).moves.length
            ++ List.replicate 7 0#8 ++ leBytes 8 s.cme.gen ++ List.replicate 96 0#8 ++ deadBytes (s.rlt u).table.dead)
      ∧ ∀ (n : Nat) (u : UnitId), isMirrorUnder n u = true ↔ u = 0 ∨ (u = 1 ∧ (n = 2 ∨ n = 4))

/-- A copy of an image (R138, R140): format 1, check word, generation, n, B, copy unit, copy slot, log pointer, settings, pass
number, entry counts and write sequence at their places in the 512-byte header, then the regions, the log slots, the dead-spare
sets (spare s at bit s mod 8 of byte s div 8) and the relocation entries, then zeros up to B blocks; the check word is the CRC-32C
of these bytes with a zero check word; B is 3,072 and 14 for each entry, in blocks of 4,096, rounded up; block k of a copy is its
bytes from 4,096 k on. The image a copy is read as takes its fields from the same places.
A region entry written into a table image reads back as it was, for fields within their widths and a fixed generation
exactly on FIXED (R138, section 2.12). The relocation entries of a unit written into a table image read back as they were, for
fields within their widths (R138). -/
def Obligations.ImageEntriesReadBack : Prop :=
  (∀ (im : Image) (u : UnitId) (sl : Slot) (blocks entries : Nat) (body : Bytes),
      entries = (im.tables.units.toList.map fun t => t.entries.length).sum → blocks = (3072 + 14 * entries + 4095) / 4096 →
      body = leBytes 8 im.gen ++ leBytes 1 im.width ++ leBytes 1 blocks ++ leBytes 1 u.val
          ++ leBytes 1 (match sl with | .a => 1 | .b => 2) ++ leBytes 1 im.tables.log.pointer
          ++ leBytes 1 (if im.patrol.auto then 1 else 0) ++ leBytes 1 im.patrol.weak ++ leBytes 1 0 ++ leBytes 2 im.patrol.pace
          ++ leBytes 2 0 ++ leBytes 4 im.patrol.settle ++ leBytes 4 im.passNumber.toNat
          ++ im.tables.units.toList.flatMap (fun t => leBytes 2 t.entries.length) ++ leBytes 8 im.wseq ++ List.replicate 460 0
          ++ (List.range 32).flatMap (fun i => regionBytes i ((im.tables.regions[i]?).join) 0 0)
          ++ im.tables.log.slots.toList.flatMap logSlotBytes ++ im.tables.units.toList.flatMap (fun t => deadBytes t.dead)
          ++ im.tables.units.toList.flatMap (fun t => t.entries.flatMap imageEntryBytes)
          ++ List.replicate (4096 * blocks - (3072 + 14 * entries)) 0 →
      im.blocks = blocks
        ∧ copyBytes im u sl
          = leBytes 4 1 ++ leBytes 4 (crc32c (leBytes 4 1 ++ List.replicate 4 0 ++ body)).toNat ++ body
        ∧ (copyBytes im u sl).length = 4096 * blocks
        ∧ ∀ k, copyBlock im u sl k = ((copyBytes im u sl).drop (4096 * k)).take 4096)
    ∧ (∀ (dead : List Nat) (i b : Nat), i < 128 → b < 8 →
      (((deadBytes dead).getD i 0).getLsbD b = true ↔ 8 * i + b ∈ dead))
    ∧ (∀ b : Bytes, (imageOfBytes b).gen = field b 8 8 ∧ (imageOfBytes b).wseq = field b 44 8
      ∧ (imageOfBytes b).width = (byteAt b 16).toNat
      ∧ (imageOfBytes b).patrol = ⟨field b 24 2, field b 28 4, (byteAt b 22).toNat, byteAt b 21 == 1⟩
      ∧ (imageOfBytes b).passNumber = BitVec.ofNat 32 (field b 32 4)
      ∧ (imageOfBytes b).tables.log.pointer = (byteAt b 20).toNat
      ∧ (∀ i : Fin 32, (imageOfBytes b).tables.regions[i] = regionOfBytes ((b.drop (512 + 32 * i.val)).take 32))
      ∧ (∀ i : Fin 16, (imageOfBytes b).tables.log.slots[i] = logSlotOfBytes ((b.drop (1536 + 64 * i.val)).take 64))
      ∧ ∀ u : Fin 4, ((imageOfBytes b).tables.units[u]).entries = entriesOfBytes (field b (36 + 2 * u.val) 2)
          (b.drop (3072 + 14 * ((List.range u.val).map fun k => field b (36 + 2 * k) 2).sum))
        ∧ ∀ k, k ∈ ((imageOfBytes b).tables.units[u]).dead
            ↔ k < 1024 ∧ (byteAt ((b.drop (2560 + 128 * u.val)).take 128) (k / 8)).getLsbD (k % 8) = true)
    ∧ ((∀ (index : Nat) (d : RegionDef), d.base < 4294967296 → d.length < 4294967296 →
      (∀ g, d.fixedGen = some g → g < 18446744073709551616) → (d.fixedGen.isSome = true ↔ d.state = .fixed) →
      regionOfBytes (regionBytes index (some d) 0 0) = some d)
      ∧ ∀ index, regionOfBytes (regionBytes index none 0 0) = none)
    ∧ (∀ es : List RelEntry, (∀ e ∈ es, e.src < 65536 ∧ e.spare < 65536 ∧ e.gen < 18446744073709551616) →
      entriesOfBytes es.length (es.flatMap imageEntryBytes) = es)
    ∧ (∀ e : LogEntry, e.unitsStopped < 256 → e.endGen < 18446744073709551616 → e.tallies.read < 4294967296 →
      e.tallies.corrected < 4294967296 → e.tallies.weakMoved < 4294967296 → e.tallies.lostFound < 4294967296 →
      e.tallies.blankSkipped < 4294967296 → logSlotOfBytes (logSlotBytes (some e)) = some e)
    ∧ logSlotOfBytes (logSlotBytes none) = none

/-! ### Invariants -/

/-- Every step keeps the anchor page-aligned (R194) and the device's mode bits legal (R189, R196, R200). That a warm reset is in
progress only in STOPPING and HALTED, R197 naming a way to STOPPED that R200 does not exclude, is log entry 16. -/
def Obligations.AnchorStaysAlignedAndModesLegal : Prop :=
  ∀ s t : State, step s = .next t → (AnchorAligned s → AnchorAligned t) ∧ (ModesLegal s → ModesLegal t)

/-- Every step keeps locks and moves fitting together: each lock is that of a move in a slot, a channel holds at most four locks and
at most one per unit block, and no FOREGROUND entry naming a locked block is performed, queued or waiting (R88, R104). -/
def Obligations.LocksStayOnePerBlock : Prop :=
  ∀ s t : State, MoveLocksFit s → step s = .next t →
    MoveLocksFit t ∧ ∀ u, (t.chan u).locks.length ≤ 4 ∧ ((t.chan u).locks.map Lock.block).Nodup

/-- Every step keeps the counters and settings of routes, event slots and lanes within their widths (R156, R157, R177,
R181). -/
def Obligations.CountersStayInRange : Prop :=
  ∀ s t : State, CountersInRange s → step s = .next t → CountersInRange t

/-- The committed generation never decreases but by a cold reset, and every step keeps the order of commits that says so
(R142). -/
def Obligations.GenerationNeverDecreases : Prop :=
  ∀ s t : State, CommitOrdered s → step s = .next t →
    CommitOrdered t ∧ ((∀ source, s.pending.head? ≠ some (.coldReset source)) → s.cme.gen ≤ t.cme.gen)
end

