-- ==== Sys2Proof/Laws/State.lean ====
section
/-! SUPPORT. The small laws of the state: one lemma for each field under each update of one block, and what a block reads
as after an update of that block or of another. -/

namespace Sys2Proof.Machine

/-! ### setLane -/

@[simp] theorem setLane_pending (s : State) (l : LaneId) (v : Lane) : (s.setLane l v).pending = s.pending := rfl
@[simp] theorem setLane_dev (s : State) (l : LaneId) (v : Lane) : (s.setLane l v).dev = s.dev := rfl
@[simp] theorem setLane_lif (s : State) (l : LaneId) (v : Lane) : (s.setLane l v).lif = s.lif := rfl
@[simp] theorem setLane_width (s : State) (l : LaneId) (v : Lane) : (s.setLane l v).width = s.width := rfl
@[simp] theorem setLane_tick (s : State) (l : LaneId) (v : Lane) : (s.setLane l v).tick = s.tick := rfl
@[simp] theorem setLane_anchor (s : State) (l : LaneId) (v : Lane) : (s.setLane l v).anchor = s.anchor := rfl
@[simp] theorem setLane_anchorHigh (s : State) (l : LaneId) (v : Lane) : (s.setLane l v).anchorHigh = s.anchorHigh := rfl
@[simp] theorem setLane_settings (s : State) (l : LaneId) (v : Lane) : (s.setLane l v).settings = s.settings := rfl
@[simp] theorem setLane_messagesEnabled (s : State) (l : LaneId) (v : Lane) : (s.setLane l v).messagesEnabled = s.messagesEnabled := rfl
@[simp] theorem setLane_unitPresent (s : State) (l : LaneId) (v : Lane) : (s.setLane l v).unitPresent = s.unitPresent := rfl
@[simp] theorem setLane_lanes (s : State) (l : LaneId) (v : Lane) : (s.setLane l v).lanes = s.lanes.set l v := rfl
@[simp] theorem setLane_dar (s : State) (l : LaneId) (v : Lane) : (s.setLane l v).dar = s.dar := rfl
@[simp] theorem setLane_ctxs (s : State) (l : LaneId) (v : Lane) : (s.setLane l v).ctxs = s.ctxs := rfl
@[simp] theorem setLane_regions (s : State) (l : LaneId) (v : Lane) : (s.setLane l v).regions = s.regions := rfl
@[simp] theorem setLane_lockdown (s : State) (l : LaneId) (v : Lane) : (s.setLane l v).lockdown = s.lockdown := rfl
@[simp] theorem setLane_chans (s : State) (l : LaneId) (v : Lane) : (s.setLane l v).chans = s.chans := rfl
@[simp] theorem setLane_rlts (s : State) (l : LaneId) (v : Lane) : (s.setLane l v).rlts = s.rlts := rfl
@[simp] theorem setLane_patrol (s : State) (l : LaneId) (v : Lane) : (s.setLane l v).patrol = s.patrol := rfl
@[simp] theorem setLane_log (s : State) (l : LaneId) (v : Lane) : (s.setLane l v).log = s.log := rfl
@[simp] theorem setLane_cme (s : State) (l : LaneId) (v : Lane) : (s.setLane l v).cme = s.cme := rfl
@[simp] theorem setLane_ntu (s : State) (l : LaneId) (v : Lane) : (s.setLane l v).ntu = s.ntu := rfl
@[simp] theorem setLane_out (s : State) (l : LaneId) (v : Lane) : (s.setLane l v).out = s.out := rfl
@[simp] theorem setLane_ctx (s : State) (l : LaneId) (v : Lane) (k : CtxId) : (s.setLane l v).ctx k = s.ctx k := rfl
@[simp] theorem setLane_chan (s : State) (l : LaneId) (v : Lane) (k : UnitId) : (s.setLane l v).chan k = s.chan k := rfl
@[simp] theorem setLane_rlt (s : State) (l : LaneId) (v : Lane) (k : UnitId) : (s.setLane l v).rlt k = s.rlt k := rfl
@[simp] theorem setLane_patrolUnit (s : State) (l : LaneId) (v : Lane) (k : UnitId) : (s.setLane l v).patrolUnit k = s.patrolUnit k := rfl
@[simp] theorem setLane_region (s : State) (l : LaneId) (v : Lane) (k : Nat) : (s.setLane l v).region k = s.region k := rfl
@[simp] theorem setLane_route (s : State) (l : LaneId) (v : Lane) (k : RouteId) : (s.setLane l v).route k = s.route k := by cases k <;> rfl

/-! ### setCtx -/

@[simp] theorem setCtx_pending (s : State) (x : CtxId) (v : Context) : (s.setCtx x v).pending = s.pending := rfl
@[simp] theorem setCtx_dev (s : State) (x : CtxId) (v : Context) : (s.setCtx x v).dev = s.dev := rfl
@[simp] theorem setCtx_lif (s : State) (x : CtxId) (v : Context) : (s.setCtx x v).lif = s.lif := rfl
@[simp] theorem setCtx_width (s : State) (x : CtxId) (v : Context) : (s.setCtx x v).width = s.width := rfl
@[simp] theorem setCtx_tick (s : State) (x : CtxId) (v : Context) : (s.setCtx x v).tick = s.tick := rfl
@[simp] theorem setCtx_anchor (s : State) (x : CtxId) (v : Context) : (s.setCtx x v).anchor = s.anchor := rfl
@[simp] theorem setCtx_anchorHigh (s : State) (x : CtxId) (v : Context) : (s.setCtx x v).anchorHigh = s.anchorHigh := rfl
@[simp] theorem setCtx_settings (s : State) (x : CtxId) (v : Context) : (s.setCtx x v).settings = s.settings := rfl
@[simp] theorem setCtx_messagesEnabled (s : State) (x : CtxId) (v : Context) : (s.setCtx x v).messagesEnabled = s.messagesEnabled := rfl
@[simp] theorem setCtx_unitPresent (s : State) (x : CtxId) (v : Context) : (s.setCtx x v).unitPresent = s.unitPresent := rfl
@[simp] theorem setCtx_lanes (s : State) (x : CtxId) (v : Context) : (s.setCtx x v).lanes = s.lanes := rfl
@[simp] theorem setCtx_dar (s : State) (x : CtxId) (v : Context) : (s.setCtx x v).dar = s.dar := rfl
@[simp] theorem setCtx_ctxs (s : State) (x : CtxId) (v : Context) : (s.setCtx x v).ctxs = s.ctxs.set x v := rfl
@[simp] theorem setCtx_regions (s : State) (x : CtxId) (v : Context) : (s.setCtx x v).regions = s.regions := rfl
@[simp] theorem setCtx_lockdown (s : State) (x : CtxId) (v : Context) : (s.setCtx x v).lockdown = s.lockdown := rfl
@[simp] theorem setCtx_chans (s : State) (x : CtxId) (v : Context) : (s.setCtx x v).chans = s.chans := rfl
@[simp] theorem setCtx_rlts (s : State) (x : CtxId) (v : Context) : (s.setCtx x v).rlts = s.rlts := rfl
@[simp] theorem setCtx_patrol (s : State) (x : CtxId) (v : Context) : (s.setCtx x v).patrol = s.patrol := rfl
@[simp] theorem setCtx_log (s : State) (x : CtxId) (v : Context) : (s.setCtx x v).log = s.log := rfl
@[simp] theorem setCtx_cme (s : State) (x : CtxId) (v : Context) : (s.setCtx x v).cme = s.cme := rfl
@[simp] theorem setCtx_ntu (s : State) (x : CtxId) (v : Context) : (s.setCtx x v).ntu = s.ntu := rfl
@[simp] theorem setCtx_out (s : State) (x : CtxId) (v : Context) : (s.setCtx x v).out = s.out := rfl
@[simp] theorem setCtx_lane (s : State) (x : CtxId) (v : Context) (k : LaneId) : (s.setCtx x v).lane k = s.lane k := rfl
@[simp] theorem setCtx_chan (s : State) (x : CtxId) (v : Context) (k : UnitId) : (s.setCtx x v).chan k = s.chan k := rfl
@[simp] theorem setCtx_rlt (s : State) (x : CtxId) (v : Context) (k : UnitId) : (s.setCtx x v).rlt k = s.rlt k := rfl
@[simp] theorem setCtx_patrolUnit (s : State) (x : CtxId) (v : Context) (k : UnitId) : (s.setCtx x v).patrolUnit k = s.patrolUnit k := rfl
@[simp] theorem setCtx_region (s : State) (x : CtxId) (v : Context) (k : Nat) : (s.setCtx x v).region k = s.region k := rfl
@[simp] theorem setCtx_route (s : State) (x : CtxId) (v : Context) (k : RouteId) : (s.setCtx x v).route k = s.route k := by cases k <;> rfl

/-! ### setChan -/

@[simp] theorem setChan_pending (s : State) (c : UnitId) (v : Channel) : (s.setChan c v).pending = s.pending := rfl
@[simp] theorem setChan_dev (s : State) (c : UnitId) (v : Channel) : (s.setChan c v).dev = s.dev := rfl
@[simp] theorem setChan_lif (s : State) (c : UnitId) (v : Channel) : (s.setChan c v).lif = s.lif := rfl
@[simp] theorem setChan_width (s : State) (c : UnitId) (v : Channel) : (s.setChan c v).width = s.width := rfl
@[simp] theorem setChan_tick (s : State) (c : UnitId) (v : Channel) : (s.setChan c v).tick = s.tick := rfl
@[simp] theorem setChan_anchor (s : State) (c : UnitId) (v : Channel) : (s.setChan c v).anchor = s.anchor := rfl
@[simp] theorem setChan_anchorHigh (s : State) (c : UnitId) (v : Channel) : (s.setChan c v).anchorHigh = s.anchorHigh := rfl
@[simp] theorem setChan_settings (s : State) (c : UnitId) (v : Channel) : (s.setChan c v).settings = s.settings := rfl
@[simp] theorem setChan_messagesEnabled (s : State) (c : UnitId) (v : Channel) : (s.setChan c v).messagesEnabled = s.messagesEnabled := rfl
@[simp] theorem setChan_unitPresent (s : State) (c : UnitId) (v : Channel) : (s.setChan c v).unitPresent = s.unitPresent := rfl
@[simp] theorem setChan_lanes (s : State) (c : UnitId) (v : Channel) : (s.setChan c v).lanes = s.lanes := rfl
@[simp] theorem setChan_dar (s : State) (c : UnitId) (v : Channel) : (s.setChan c v).dar = s.dar := rfl
@[simp] theorem setChan_ctxs (s : State) (c : UnitId) (v : Channel) : (s.setChan c v).ctxs = s.ctxs := rfl
@[simp] theorem setChan_regions (s : State) (c : UnitId) (v : Channel) : (s.setChan c v).regions = s.regions := rfl
@[simp] theorem setChan_lockdown (s : State) (c : UnitId) (v : Channel) : (s.setChan c v).lockdown = s.lockdown := rfl
@[simp] theorem setChan_chans (s : State) (c : UnitId) (v : Channel) : (s.setChan c v).chans = s.chans.set c v := rfl
@[simp] theorem setChan_rlts (s : State) (c : UnitId) (v : Channel) : (s.setChan c v).rlts = s.rlts := rfl
@[simp] theorem setChan_patrol (s : State) (c : UnitId) (v : Channel) : (s.setChan c v).patrol = s.patrol := rfl
@[simp] theorem setChan_log (s : State) (c : UnitId) (v : Channel) : (s.setChan c v).log = s.log := rfl
@[simp] theorem setChan_cme (s : State) (c : UnitId) (v : Channel) : (s.setChan c v).cme = s.cme := rfl
@[simp] theorem setChan_ntu (s : State) (c : UnitId) (v : Channel) : (s.setChan c v).ntu = s.ntu := rfl
@[simp] theorem setChan_out (s : State) (c : UnitId) (v : Channel) : (s.setChan c v).out = s.out := rfl
@[simp] theorem setChan_lane (s : State) (c : UnitId) (v : Channel) (k : LaneId) : (s.setChan c v).lane k = s.lane k := rfl
@[simp] theorem setChan_ctx (s : State) (c : UnitId) (v : Channel) (k : CtxId) : (s.setChan c v).ctx k = s.ctx k := rfl
@[simp] theorem setChan_rlt (s : State) (c : UnitId) (v : Channel) (k : UnitId) : (s.setChan c v).rlt k = s.rlt k := rfl
@[simp] theorem setChan_patrolUnit (s : State) (c : UnitId) (v : Channel) (k : UnitId) : (s.setChan c v).patrolUnit k = s.patrolUnit k := rfl
@[simp] theorem setChan_region (s : State) (c : UnitId) (v : Channel) (k : Nat) : (s.setChan c v).region k = s.region k := rfl
@[simp] theorem setChan_route (s : State) (c : UnitId) (v : Channel) (k : RouteId) : (s.setChan c v).route k = s.route k := by cases k <;> rfl

/-! ### setRlt -/

@[simp] theorem setRlt_pending (s : State) (u : UnitId) (v : Rlt) : (s.setRlt u v).pending = s.pending := rfl
@[simp] theorem setRlt_dev (s : State) (u : UnitId) (v : Rlt) : (s.setRlt u v).dev = s.dev := rfl
@[simp] theorem setRlt_lif (s : State) (u : UnitId) (v : Rlt) : (s.setRlt u v).lif = s.lif := rfl
@[simp] theorem setRlt_width (s : State) (u : UnitId) (v : Rlt) : (s.setRlt u v).width = s.width := rfl
@[simp] theorem setRlt_tick (s : State) (u : UnitId) (v : Rlt) : (s.setRlt u v).tick = s.tick := rfl
@[simp] theorem setRlt_anchor (s : State) (u : UnitId) (v : Rlt) : (s.setRlt u v).anchor = s.anchor := rfl
@[simp] theorem setRlt_anchorHigh (s : State) (u : UnitId) (v : Rlt) : (s.setRlt u v).anchorHigh = s.anchorHigh := rfl
@[simp] theorem setRlt_settings (s : State) (u : UnitId) (v : Rlt) : (s.setRlt u v).settings = s.settings := rfl
@[simp] theorem setRlt_messagesEnabled (s : State) (u : UnitId) (v : Rlt) : (s.setRlt u v).messagesEnabled = s.messagesEnabled := rfl
@[simp] theorem setRlt_unitPresent (s : State) (u : UnitId) (v : Rlt) : (s.setRlt u v).unitPresent = s.unitPresent := rfl
@[simp] theorem setRlt_lanes (s : State) (u : UnitId) (v : Rlt) : (s.setRlt u v).lanes = s.lanes := rfl
@[simp] theorem setRlt_dar (s : State) (u : UnitId) (v : Rlt) : (s.setRlt u v).dar = s.dar := rfl
@[simp] theorem setRlt_ctxs (s : State) (u : UnitId) (v : Rlt) : (s.setRlt u v).ctxs = s.ctxs := rfl
@[simp] theorem setRlt_regions (s : State) (u : UnitId) (v : Rlt) : (s.setRlt u v).regions = s.regions := rfl
@[simp] theorem setRlt_lockdown (s : State) (u : UnitId) (v : Rlt) : (s.setRlt u v).lockdown = s.lockdown := rfl
@[simp] theorem setRlt_chans (s : State) (u : UnitId) (v : Rlt) : (s.setRlt u v).chans = s.chans := rfl
@[simp] theorem setRlt_rlts (s : State) (u : UnitId) (v : Rlt) : (s.setRlt u v).rlts = s.rlts.set u v := rfl
@[simp] theorem setRlt_patrol (s : State) (u : UnitId) (v : Rlt) : (s.setRlt u v).patrol = s.patrol := rfl
@[simp] theorem setRlt_log (s : State) (u : UnitId) (v : Rlt) : (s.setRlt u v).log = s.log := rfl
@[simp] theorem setRlt_cme (s : State) (u : UnitId) (v : Rlt) : (s.setRlt u v).cme = s.cme := rfl
@[simp] theorem setRlt_ntu (s : State) (u : UnitId) (v : Rlt) : (s.setRlt u v).ntu = s.ntu := rfl
@[simp] theorem setRlt_out (s : State) (u : UnitId) (v : Rlt) : (s.setRlt u v).out = s.out := rfl
@[simp] theorem setRlt_lane (s : State) (u : UnitId) (v : Rlt) (k : LaneId) : (s.setRlt u v).lane k = s.lane k := rfl
@[simp] theorem setRlt_ctx (s : State) (u : UnitId) (v : Rlt) (k : CtxId) : (s.setRlt u v).ctx k = s.ctx k := rfl
@[simp] theorem setRlt_chan (s : State) (u : UnitId) (v : Rlt) (k : UnitId) : (s.setRlt u v).chan k = s.chan k := rfl
@[simp] theorem setRlt_patrolUnit (s : State) (u : UnitId) (v : Rlt) (k : UnitId) : (s.setRlt u v).patrolUnit k = s.patrolUnit k := rfl
@[simp] theorem setRlt_region (s : State) (u : UnitId) (v : Rlt) (k : Nat) : (s.setRlt u v).region k = s.region k := rfl
@[simp] theorem setRlt_route (s : State) (u : UnitId) (v : Rlt) (k : RouteId) : (s.setRlt u v).route k = s.route k := by cases k <;> rfl

/-! ### setPatrolUnit -/

@[simp] theorem setPatrolUnit_pending (s : State) (u : UnitId) (v : PatrolUnit) : (s.setPatrolUnit u v).pending = s.pending := rfl
@[simp] theorem setPatrolUnit_dev (s : State) (u : UnitId) (v : PatrolUnit) : (s.setPatrolUnit u v).dev = s.dev := rfl
@[simp] theorem setPatrolUnit_lif (s : State) (u : UnitId) (v : PatrolUnit) : (s.setPatrolUnit u v).lif = s.lif := rfl
@[simp] theorem setPatrolUnit_width (s : State) (u : UnitId) (v : PatrolUnit) : (s.setPatrolUnit u v).width = s.width := rfl
@[simp] theorem setPatrolUnit_tick (s : State) (u : UnitId) (v : PatrolUnit) : (s.setPatrolUnit u v).tick = s.tick := rfl
@[simp] theorem setPatrolUnit_anchor (s : State) (u : UnitId) (v : PatrolUnit) : (s.setPatrolUnit u v).anchor = s.anchor := rfl
@[simp] theorem setPatrolUnit_anchorHigh (s : State) (u : UnitId) (v : PatrolUnit) : (s.setPatrolUnit u v).anchorHigh = s.anchorHigh := rfl
@[simp] theorem setPatrolUnit_settings (s : State) (u : UnitId) (v : PatrolUnit) : (s.setPatrolUnit u v).settings = s.settings := rfl
@[simp] theorem setPatrolUnit_messagesEnabled (s : State) (u : UnitId) (v : PatrolUnit) : (s.setPatrolUnit u v).messagesEnabled = s.messagesEnabled := rfl
@[simp] theorem setPatrolUnit_unitPresent (s : State) (u : UnitId) (v : PatrolUnit) : (s.setPatrolUnit u v).unitPresent = s.unitPresent := rfl
@[simp] theorem setPatrolUnit_lanes (s : State) (u : UnitId) (v : PatrolUnit) : (s.setPatrolUnit u v).lanes = s.lanes := rfl
@[simp] theorem setPatrolUnit_dar (s : State) (u : UnitId) (v : PatrolUnit) : (s.setPatrolUnit u v).dar = s.dar := rfl
@[simp] theorem setPatrolUnit_ctxs (s : State) (u : UnitId) (v : PatrolUnit) : (s.setPatrolUnit u v).ctxs = s.ctxs := rfl
@[simp] theorem setPatrolUnit_regions (s : State) (u : UnitId) (v : PatrolUnit) : (s.setPatrolUnit u v).regions = s.regions := rfl
@[simp] theorem setPatrolUnit_lockdown (s : State) (u : UnitId) (v : PatrolUnit) : (s.setPatrolUnit u v).lockdown = s.lockdown := rfl
@[simp] theorem setPatrolUnit_chans (s : State) (u : UnitId) (v : PatrolUnit) : (s.setPatrolUnit u v).chans = s.chans := rfl
@[simp] theorem setPatrolUnit_rlts (s : State) (u : UnitId) (v : PatrolUnit) : (s.setPatrolUnit u v).rlts = s.rlts := rfl
@[simp] theorem setPatrolUnit_patrol (s : State) (u : UnitId) (v : PatrolUnit) : (s.setPatrolUnit u v).patrol = { s.patrol with units := s.patrol.units.set u v } := rfl
@[simp] theorem setPatrolUnit_log (s : State) (u : UnitId) (v : PatrolUnit) : (s.setPatrolUnit u v).log = s.log := rfl
@[simp] theorem setPatrolUnit_cme (s : State) (u : UnitId) (v : PatrolUnit) : (s.setPatrolUnit u v).cme = s.cme := rfl
@[simp] theorem setPatrolUnit_ntu (s : State) (u : UnitId) (v : PatrolUnit) : (s.setPatrolUnit u v).ntu = s.ntu := rfl
@[simp] theorem setPatrolUnit_out (s : State) (u : UnitId) (v : PatrolUnit) : (s.setPatrolUnit u v).out = s.out := rfl
@[simp] theorem setPatrolUnit_lane (s : State) (u : UnitId) (v : PatrolUnit) (k : LaneId) : (s.setPatrolUnit u v).lane k = s.lane k := rfl
@[simp] theorem setPatrolUnit_ctx (s : State) (u : UnitId) (v : PatrolUnit) (k : CtxId) : (s.setPatrolUnit u v).ctx k = s.ctx k := rfl
@[simp] theorem setPatrolUnit_chan (s : State) (u : UnitId) (v : PatrolUnit) (k : UnitId) : (s.setPatrolUnit u v).chan k = s.chan k := rfl
@[simp] theorem setPatrolUnit_rlt (s : State) (u : UnitId) (v : PatrolUnit) (k : UnitId) : (s.setPatrolUnit u v).rlt k = s.rlt k := rfl
@[simp] theorem setPatrolUnit_region (s : State) (u : UnitId) (v : PatrolUnit) (k : Nat) : (s.setPatrolUnit u v).region k = s.region k := rfl
@[simp] theorem setPatrolUnit_route (s : State) (u : UnitId) (v : PatrolUnit) (k : RouteId) : (s.setPatrolUnit u v).route k = s.route k := by cases k <;> rfl

/-! ### setRegion -/

@[simp] theorem setRegion_pending (s : State) (i : Nat) (v : RegionEntry) : (s.setRegion i v).pending = s.pending := rfl
@[simp] theorem setRegion_dev (s : State) (i : Nat) (v : RegionEntry) : (s.setRegion i v).dev = s.dev := rfl
@[simp] theorem setRegion_lif (s : State) (i : Nat) (v : RegionEntry) : (s.setRegion i v).lif = s.lif := rfl
@[simp] theorem setRegion_width (s : State) (i : Nat) (v : RegionEntry) : (s.setRegion i v).width = s.width := rfl
@[simp] theorem setRegion_tick (s : State) (i : Nat) (v : RegionEntry) : (s.setRegion i v).tick = s.tick := rfl
@[simp] theorem setRegion_anchor (s : State) (i : Nat) (v : RegionEntry) : (s.setRegion i v).anchor = s.anchor := rfl
@[simp] theorem setRegion_anchorHigh (s : State) (i : Nat) (v : RegionEntry) : (s.setRegion i v).anchorHigh = s.anchorHigh := rfl
@[simp] theorem setRegion_settings (s : State) (i : Nat) (v : RegionEntry) : (s.setRegion i v).settings = s.settings := rfl
@[simp] theorem setRegion_messagesEnabled (s : State) (i : Nat) (v : RegionEntry) : (s.setRegion i v).messagesEnabled = s.messagesEnabled := rfl
@[simp] theorem setRegion_unitPresent (s : State) (i : Nat) (v : RegionEntry) : (s.setRegion i v).unitPresent = s.unitPresent := rfl
@[simp] theorem setRegion_lanes (s : State) (i : Nat) (v : RegionEntry) : (s.setRegion i v).lanes = s.lanes := rfl
@[simp] theorem setRegion_dar (s : State) (i : Nat) (v : RegionEntry) : (s.setRegion i v).dar = s.dar := rfl
@[simp] theorem setRegion_ctxs (s : State) (i : Nat) (v : RegionEntry) : (s.setRegion i v).ctxs = s.ctxs := rfl
@[simp] theorem setRegion_regions (s : State) (i : Nat) (v : RegionEntry) : (s.setRegion i v).regions = s.regions.setIfInBounds i v := rfl
@[simp] theorem setRegion_lockdown (s : State) (i : Nat) (v : RegionEntry) : (s.setRegion i v).lockdown = s.lockdown := rfl
@[simp] theorem setRegion_chans (s : State) (i : Nat) (v : RegionEntry) : (s.setRegion i v).chans = s.chans := rfl
@[simp] theorem setRegion_rlts (s : State) (i : Nat) (v : RegionEntry) : (s.setRegion i v).rlts = s.rlts := rfl
@[simp] theorem setRegion_patrol (s : State) (i : Nat) (v : RegionEntry) : (s.setRegion i v).patrol = s.patrol := rfl
@[simp] theorem setRegion_log (s : State) (i : Nat) (v : RegionEntry) : (s.setRegion i v).log = s.log := rfl
@[simp] theorem setRegion_cme (s : State) (i : Nat) (v : RegionEntry) : (s.setRegion i v).cme = s.cme := rfl
@[simp] theorem setRegion_ntu (s : State) (i : Nat) (v : RegionEntry) : (s.setRegion i v).ntu = s.ntu := rfl
@[simp] theorem setRegion_out (s : State) (i : Nat) (v : RegionEntry) : (s.setRegion i v).out = s.out := rfl
@[simp] theorem setRegion_lane (s : State) (i : Nat) (v : RegionEntry) (k : LaneId) : (s.setRegion i v).lane k = s.lane k := rfl
@[simp] theorem setRegion_ctx (s : State) (i : Nat) (v : RegionEntry) (k : CtxId) : (s.setRegion i v).ctx k = s.ctx k := rfl
@[simp] theorem setRegion_chan (s : State) (i : Nat) (v : RegionEntry) (k : UnitId) : (s.setRegion i v).chan k = s.chan k := rfl
@[simp] theorem setRegion_rlt (s : State) (i : Nat) (v : RegionEntry) (k : UnitId) : (s.setRegion i v).rlt k = s.rlt k := rfl
@[simp] theorem setRegion_patrolUnit (s : State) (i : Nat) (v : RegionEntry) (k : UnitId) : (s.setRegion i v).patrolUnit k = s.patrolUnit k := rfl
@[simp] theorem setRegion_route (s : State) (i : Nat) (v : RegionEntry) (k : RouteId) : (s.setRegion i v).route k = s.route k := by cases k <;> rfl

/-! ### setDev -/

@[simp] theorem setDev_pending (s : State) (d : Device) : (s.setDev d).pending = s.pending := rfl
@[simp] theorem setDev_dev (s : State) (d : Device) : (s.setDev d).dev = d := rfl
@[simp] theorem setDev_lif (s : State) (d : Device) : (s.setDev d).lif = s.lif := rfl
@[simp] theorem setDev_width (s : State) (d : Device) : (s.setDev d).width = s.width := rfl
@[simp] theorem setDev_tick (s : State) (d : Device) : (s.setDev d).tick = s.tick := rfl
@[simp] theorem setDev_anchor (s : State) (d : Device) : (s.setDev d).anchor = s.anchor := rfl
@[simp] theorem setDev_anchorHigh (s : State) (d : Device) : (s.setDev d).anchorHigh = s.anchorHigh := rfl
@[simp] theorem setDev_settings (s : State) (d : Device) : (s.setDev d).settings = s.settings := rfl
@[simp] theorem setDev_messagesEnabled (s : State) (d : Device) : (s.setDev d).messagesEnabled = s.messagesEnabled := rfl
@[simp] theorem setDev_unitPresent (s : State) (d : Device) : (s.setDev d).unitPresent = s.unitPresent := rfl
@[simp] theorem setDev_lanes (s : State) (d : Device) : (s.setDev d).lanes = s.lanes := rfl
@[simp] theorem setDev_dar (s : State) (d : Device) : (s.setDev d).dar = s.dar := rfl
@[simp] theorem setDev_ctxs (s : State) (d : Device) : (s.setDev d).ctxs = s.ctxs := rfl
@[simp] theorem setDev_regions (s : State) (d : Device) : (s.setDev d).regions = s.regions := rfl
@[simp] theorem setDev_lockdown (s : State) (d : Device) : (s.setDev d).lockdown = s.lockdown := rfl
@[simp] theorem setDev_chans (s : State) (d : Device) : (s.setDev d).chans = s.chans := rfl
@[simp] theorem setDev_rlts (s : State) (d : Device) : (s.setDev d).rlts = s.rlts := rfl
@[simp] theorem setDev_patrol (s : State) (d : Device) : (s.setDev d).patrol = s.patrol := rfl
@[simp] theorem setDev_log (s : State) (d : Device) : (s.setDev d).log = s.log := rfl
@[simp] theorem setDev_cme (s : State) (d : Device) : (s.setDev d).cme = s.cme := rfl
@[simp] theorem setDev_ntu (s : State) (d : Device) : (s.setDev d).ntu = s.ntu := rfl
@[simp] theorem setDev_out (s : State) (d : Device) : (s.setDev d).out = s.out := rfl
@[simp] theorem setDev_lane (s : State) (d : Device) (k : LaneId) : (s.setDev d).lane k = s.lane k := rfl
@[simp] theorem setDev_ctx (s : State) (d : Device) (k : CtxId) : (s.setDev d).ctx k = s.ctx k := rfl
@[simp] theorem setDev_chan (s : State) (d : Device) (k : UnitId) : (s.setDev d).chan k = s.chan k := rfl
@[simp] theorem setDev_rlt (s : State) (d : Device) (k : UnitId) : (s.setDev d).rlt k = s.rlt k := rfl
@[simp] theorem setDev_patrolUnit (s : State) (d : Device) (k : UnitId) : (s.setDev d).patrolUnit k = s.patrolUnit k := rfl
@[simp] theorem setDev_region (s : State) (d : Device) (k : Nat) : (s.setDev d).region k = s.region k := rfl
@[simp] theorem setDev_route (s : State) (d : Device) (k : RouteId) : (s.setDev d).route k = s.route k := by cases k <;> rfl

/-! ### setLif -/

@[simp] theorem setLif_pending (s : State) (v : Lif) : (s.setLif v).pending = s.pending := rfl
@[simp] theorem setLif_dev (s : State) (v : Lif) : (s.setLif v).dev = s.dev := rfl
@[simp] theorem setLif_lif (s : State) (v : Lif) : (s.setLif v).lif = v := rfl
@[simp] theorem setLif_width (s : State) (v : Lif) : (s.setLif v).width = s.width := rfl
@[simp] theorem setLif_tick (s : State) (v : Lif) : (s.setLif v).tick = s.tick := rfl
@[simp] theorem setLif_anchor (s : State) (v : Lif) : (s.setLif v).anchor = s.anchor := rfl
@[simp] theorem setLif_anchorHigh (s : State) (v : Lif) : (s.setLif v).anchorHigh = s.anchorHigh := rfl
@[simp] theorem setLif_settings (s : State) (v : Lif) : (s.setLif v).settings = s.settings := rfl
@[simp] theorem setLif_messagesEnabled (s : State) (v : Lif) : (s.setLif v).messagesEnabled = s.messagesEnabled := rfl
@[simp] theorem setLif_unitPresent (s : State) (v : Lif) : (s.setLif v).unitPresent = s.unitPresent := rfl
@[simp] theorem setLif_lanes (s : State) (v : Lif) : (s.setLif v).lanes = s.lanes := rfl
@[simp] theorem setLif_dar (s : State) (v : Lif) : (s.setLif v).dar = s.dar := rfl
@[simp] theorem setLif_ctxs (s : State) (v : Lif) : (s.setLif v).ctxs = s.ctxs := rfl
@[simp] theorem setLif_regions (s : State) (v : Lif) : (s.setLif v).regions = s.regions := rfl
@[simp] theorem setLif_lockdown (s : State) (v : Lif) : (s.setLif v).lockdown = s.lockdown := rfl
@[simp] theorem setLif_chans (s : State) (v : Lif) : (s.setLif v).chans = s.chans := rfl
@[simp] theorem setLif_rlts (s : State) (v : Lif) : (s.setLif v).rlts = s.rlts := rfl
@[simp] theorem setLif_patrol (s : State) (v : Lif) : (s.setLif v).patrol = s.patrol := rfl
@[simp] theorem setLif_log (s : State) (v : Lif) : (s.setLif v).log = s.log := rfl
@[simp] theorem setLif_cme (s : State) (v : Lif) : (s.setLif v).cme = s.cme := rfl
@[simp] theorem setLif_ntu (s : State) (v : Lif) : (s.setLif v).ntu = s.ntu := rfl
@[simp] theorem setLif_out (s : State) (v : Lif) : (s.setLif v).out = s.out := rfl
@[simp] theorem setLif_lane (s : State) (v : Lif) (k : LaneId) : (s.setLif v).lane k = s.lane k := rfl
@[simp] theorem setLif_ctx (s : State) (v : Lif) (k : CtxId) : (s.setLif v).ctx k = s.ctx k := rfl
@[simp] theorem setLif_chan (s : State) (v : Lif) (k : UnitId) : (s.setLif v).chan k = s.chan k := rfl
@[simp] theorem setLif_rlt (s : State) (v : Lif) (k : UnitId) : (s.setLif v).rlt k = s.rlt k := rfl
@[simp] theorem setLif_patrolUnit (s : State) (v : Lif) (k : UnitId) : (s.setLif v).patrolUnit k = s.patrolUnit k := rfl
@[simp] theorem setLif_region (s : State) (v : Lif) (k : Nat) : (s.setLif v).region k = s.region k := rfl
@[simp] theorem setLif_route (s : State) (v : Lif) (k : RouteId) : (s.setLif v).route k = s.route k := by cases k <;> rfl

/-! ### setCme -/

@[simp] theorem setCme_pending (s : State) (c : Cme) : (s.setCme c).pending = s.pending := rfl
@[simp] theorem setCme_dev (s : State) (c : Cme) : (s.setCme c).dev = s.dev := rfl
@[simp] theorem setCme_lif (s : State) (c : Cme) : (s.setCme c).lif = s.lif := rfl
@[simp] theorem setCme_width (s : State) (c : Cme) : (s.setCme c).width = s.width := rfl
@[simp] theorem setCme_tick (s : State) (c : Cme) : (s.setCme c).tick = s.tick := rfl
@[simp] theorem setCme_anchor (s : State) (c : Cme) : (s.setCme c).anchor = s.anchor := rfl
@[simp] theorem setCme_anchorHigh (s : State) (c : Cme) : (s.setCme c).anchorHigh = s.anchorHigh := rfl
@[simp] theorem setCme_settings (s : State) (c : Cme) : (s.setCme c).settings = s.settings := rfl
@[simp] theorem setCme_messagesEnabled (s : State) (c : Cme) : (s.setCme c).messagesEnabled = s.messagesEnabled := rfl
@[simp] theorem setCme_unitPresent (s : State) (c : Cme) : (s.setCme c).unitPresent = s.unitPresent := rfl
@[simp] theorem setCme_lanes (s : State) (c : Cme) : (s.setCme c).lanes = s.lanes := rfl
@[simp] theorem setCme_dar (s : State) (c : Cme) : (s.setCme c).dar = s.dar := rfl
@[simp] theorem setCme_ctxs (s : State) (c : Cme) : (s.setCme c).ctxs = s.ctxs := rfl
@[simp] theorem setCme_regions (s : State) (c : Cme) : (s.setCme c).regions = s.regions := rfl
@[simp] theorem setCme_lockdown (s : State) (c : Cme) : (s.setCme c).lockdown = s.lockdown := rfl
@[simp] theorem setCme_chans (s : State) (c : Cme) : (s.setCme c).chans = s.chans := rfl
@[simp] theorem setCme_rlts (s : State) (c : Cme) : (s.setCme c).rlts = s.rlts := rfl
@[simp] theorem setCme_patrol (s : State) (c : Cme) : (s.setCme c).patrol = s.patrol := rfl
@[simp] theorem setCme_log (s : State) (c : Cme) : (s.setCme c).log = s.log := rfl
@[simp] theorem setCme_cme (s : State) (c : Cme) : (s.setCme c).cme = c := rfl
@[simp] theorem setCme_ntu (s : State) (c : Cme) : (s.setCme c).ntu = s.ntu := rfl
@[simp] theorem setCme_out (s : State) (c : Cme) : (s.setCme c).out = s.out := rfl
@[simp] theorem setCme_lane (s : State) (c : Cme) (k : LaneId) : (s.setCme c).lane k = s.lane k := rfl
@[simp] theorem setCme_ctx (s : State) (c : Cme) (k : CtxId) : (s.setCme c).ctx k = s.ctx k := rfl
@[simp] theorem setCme_chan (s : State) (c : Cme) (k : UnitId) : (s.setCme c).chan k = s.chan k := rfl
@[simp] theorem setCme_rlt (s : State) (c : Cme) (k : UnitId) : (s.setCme c).rlt k = s.rlt k := rfl
@[simp] theorem setCme_patrolUnit (s : State) (c : Cme) (k : UnitId) : (s.setCme c).patrolUnit k = s.patrolUnit k := rfl
@[simp] theorem setCme_region (s : State) (c : Cme) (k : Nat) : (s.setCme c).region k = s.region k := rfl
@[simp] theorem setCme_route (s : State) (c : Cme) (k : RouteId) : (s.setCme c).route k = s.route k := by cases k <;> rfl

/-! ### setNtu -/

@[simp] theorem setNtu_pending (s : State) (n : Ntu) : (s.setNtu n).pending = s.pending := rfl
@[simp] theorem setNtu_dev (s : State) (n : Ntu) : (s.setNtu n).dev = s.dev := rfl
@[simp] theorem setNtu_lif (s : State) (n : Ntu) : (s.setNtu n).lif = s.lif := rfl
@[simp] theorem setNtu_width (s : State) (n : Ntu) : (s.setNtu n).width = s.width := rfl
@[simp] theorem setNtu_tick (s : State) (n : Ntu) : (s.setNtu n).tick = s.tick := rfl
@[simp] theorem setNtu_anchor (s : State) (n : Ntu) : (s.setNtu n).anchor = s.anchor := rfl
@[simp] theorem setNtu_anchorHigh (s : State) (n : Ntu) : (s.setNtu n).anchorHigh = s.anchorHigh := rfl
@[simp] theorem setNtu_settings (s : State) (n : Ntu) : (s.setNtu n).settings = s.settings := rfl
@[simp] theorem setNtu_messagesEnabled (s : State) (n : Ntu) : (s.setNtu n).messagesEnabled = s.messagesEnabled := rfl
@[simp] theorem setNtu_unitPresent (s : State) (n : Ntu) : (s.setNtu n).unitPresent = s.unitPresent := rfl
@[simp] theorem setNtu_lanes (s : State) (n : Ntu) : (s.setNtu n).lanes = s.lanes := rfl
@[simp] theorem setNtu_dar (s : State) (n : Ntu) : (s.setNtu n).dar = s.dar := rfl
@[simp] theorem setNtu_ctxs (s : State) (n : Ntu) : (s.setNtu n).ctxs = s.ctxs := rfl
@[simp] theorem setNtu_regions (s : State) (n : Ntu) : (s.setNtu n).regions = s.regions := rfl
@[simp] theorem setNtu_lockdown (s : State) (n : Ntu) : (s.setNtu n).lockdown = s.lockdown := rfl
@[simp] theorem setNtu_chans (s : State) (n : Ntu) : (s.setNtu n).chans = s.chans := rfl
@[simp] theorem setNtu_rlts (s : State) (n : Ntu) : (s.setNtu n).rlts = s.rlts := rfl
@[simp] theorem setNtu_patrol (s : State) (n : Ntu) : (s.setNtu n).patrol = s.patrol := rfl
@[simp] theorem setNtu_log (s : State) (n : Ntu) : (s.setNtu n).log = s.log := rfl
@[simp] theorem setNtu_cme (s : State) (n : Ntu) : (s.setNtu n).cme = s.cme := rfl
@[simp] theorem setNtu_ntu (s : State) (n : Ntu) : (s.setNtu n).ntu = n := rfl
@[simp] theorem setNtu_out (s : State) (n : Ntu) : (s.setNtu n).out = s.out := rfl
@[simp] theorem setNtu_lane (s : State) (n : Ntu) (k : LaneId) : (s.setNtu n).lane k = s.lane k := rfl
@[simp] theorem setNtu_ctx (s : State) (n : Ntu) (k : CtxId) : (s.setNtu n).ctx k = s.ctx k := rfl
@[simp] theorem setNtu_chan (s : State) (n : Ntu) (k : UnitId) : (s.setNtu n).chan k = s.chan k := rfl
@[simp] theorem setNtu_rlt (s : State) (n : Ntu) (k : UnitId) : (s.setNtu n).rlt k = s.rlt k := rfl
@[simp] theorem setNtu_patrolUnit (s : State) (n : Ntu) (k : UnitId) : (s.setNtu n).patrolUnit k = s.patrolUnit k := rfl
@[simp] theorem setNtu_region (s : State) (n : Ntu) (k : Nat) : (s.setNtu n).region k = s.region k := rfl

/-! ### setPatrol -/

@[simp] theorem setPatrol_pending (s : State) (p : Patrol) : (s.setPatrol p).pending = s.pending := rfl
@[simp] theorem setPatrol_dev (s : State) (p : Patrol) : (s.setPatrol p).dev = s.dev := rfl
@[simp] theorem setPatrol_lif (s : State) (p : Patrol) : (s.setPatrol p).lif = s.lif := rfl
@[simp] theorem setPatrol_width (s : State) (p : Patrol) : (s.setPatrol p).width = s.width := rfl
@[simp] theorem setPatrol_tick (s : State) (p : Patrol) : (s.setPatrol p).tick = s.tick := rfl
@[simp] theorem setPatrol_anchor (s : State) (p : Patrol) : (s.setPatrol p).anchor = s.anchor := rfl
@[simp] theorem setPatrol_anchorHigh (s : State) (p : Patrol) : (s.setPatrol p).anchorHigh = s.anchorHigh := rfl
@[simp] theorem setPatrol_settings (s : State) (p : Patrol) : (s.setPatrol p).settings = s.settings := rfl
@[simp] theorem setPatrol_messagesEnabled (s : State) (p : Patrol) : (s.setPatrol p).messagesEnabled = s.messagesEnabled := rfl
@[simp] theorem setPatrol_unitPresent (s : State) (p : Patrol) : (s.setPatrol p).unitPresent = s.unitPresent := rfl
@[simp] theorem setPatrol_lanes (s : State) (p : Patrol) : (s.setPatrol p).lanes = s.lanes := rfl
@[simp] theorem setPatrol_dar (s : State) (p : Patrol) : (s.setPatrol p).dar = s.dar := rfl
@[simp] theorem setPatrol_ctxs (s : State) (p : Patrol) : (s.setPatrol p).ctxs = s.ctxs := rfl
@[simp] theorem setPatrol_regions (s : State) (p : Patrol) : (s.setPatrol p).regions = s.regions := rfl
@[simp] theorem setPatrol_lockdown (s : State) (p : Patrol) : (s.setPatrol p).lockdown = s.lockdown := rfl
@[simp] theorem setPatrol_chans (s : State) (p : Patrol) : (s.setPatrol p).chans = s.chans := rfl
@[simp] theorem setPatrol_rlts (s : State) (p : Patrol) : (s.setPatrol p).rlts = s.rlts := rfl
@[simp] theorem setPatrol_patrol (s : State) (p : Patrol) : (s.setPatrol p).patrol = p := rfl
@[simp] theorem setPatrol_log (s : State) (p : Patrol) : (s.setPatrol p).log = s.log := rfl
@[simp] theorem setPatrol_cme (s : State) (p : Patrol) : (s.setPatrol p).cme = s.cme := rfl
@[simp] theorem setPatrol_ntu (s : State) (p : Patrol) : (s.setPatrol p).ntu = s.ntu := rfl
@[simp] theorem setPatrol_out (s : State) (p : Patrol) : (s.setPatrol p).out = s.out := rfl
@[simp] theorem setPatrol_lane (s : State) (p : Patrol) (k : LaneId) : (s.setPatrol p).lane k = s.lane k := rfl
@[simp] theorem setPatrol_ctx (s : State) (p : Patrol) (k : CtxId) : (s.setPatrol p).ctx k = s.ctx k := rfl
@[simp] theorem setPatrol_chan (s : State) (p : Patrol) (k : UnitId) : (s.setPatrol p).chan k = s.chan k := rfl
@[simp] theorem setPatrol_rlt (s : State) (p : Patrol) (k : UnitId) : (s.setPatrol p).rlt k = s.rlt k := rfl
@[simp] theorem setPatrol_region (s : State) (p : Patrol) (k : Nat) : (s.setPatrol p).region k = s.region k := rfl
@[simp] theorem setPatrol_route (s : State) (p : Patrol) (k : RouteId) : (s.setPatrol p).route k = s.route k := by cases k <;> rfl

/-! ### emit -/

@[simp] theorem emit_pending (s : State) (os : List Output) : (s.emit os).pending = s.pending := rfl
@[simp] theorem emit_dev (s : State) (os : List Output) : (s.emit os).dev = s.dev := rfl
@[simp] theorem emit_lif (s : State) (os : List Output) : (s.emit os).lif = s.lif := rfl
@[simp] theorem emit_width (s : State) (os : List Output) : (s.emit os).width = s.width := rfl
@[simp] theorem emit_tick (s : State) (os : List Output) : (s.emit os).tick = s.tick := rfl
@[simp] theorem emit_anchor (s : State) (os : List Output) : (s.emit os).anchor = s.anchor := rfl
@[simp] theorem emit_anchorHigh (s : State) (os : List Output) : (s.emit os).anchorHigh = s.anchorHigh := rfl
@[simp] theorem emit_settings (s : State) (os : List Output) : (s.emit os).settings = s.settings := rfl
@[simp] theorem emit_messagesEnabled (s : State) (os : List Output) : (s.emit os).messagesEnabled = s.messagesEnabled := rfl
@[simp] theorem emit_unitPresent (s : State) (os : List Output) : (s.emit os).unitPresent = s.unitPresent := rfl
@[simp] theorem emit_lanes (s : State) (os : List Output) : (s.emit os).lanes = s.lanes := rfl
@[simp] theorem emit_dar (s : State) (os : List Output) : (s.emit os).dar = s.dar := rfl
@[simp] theorem emit_ctxs (s : State) (os : List Output) : (s.emit os).ctxs = s.ctxs := rfl
@[simp] theorem emit_regions (s : State) (os : List Output) : (s.emit os).regions = s.regions := rfl
@[simp] theorem emit_lockdown (s : State) (os : List Output) : (s.emit os).lockdown = s.lockdown := rfl
@[simp] theorem emit_chans (s : State) (os : List Output) : (s.emit os).chans = s.chans := rfl
@[simp] theorem emit_rlts (s : State) (os : List Output) : (s.emit os).rlts = s.rlts := rfl
@[simp] theorem emit_patrol (s : State) (os : List Output) : (s.emit os).patrol = s.patrol := rfl
@[simp] theorem emit_log (s : State) (os : List Output) : (s.emit os).log = s.log := rfl
@[simp] theorem emit_cme (s : State) (os : List Output) : (s.emit os).cme = s.cme := rfl
@[simp] theorem emit_ntu (s : State) (os : List Output) : (s.emit os).ntu = s.ntu := rfl
@[simp] theorem emit_out (s : State) (os : List Output) : (s.emit os).out = s.out ++ os := rfl
@[simp] theorem emit_lane (s : State) (os : List Output) (k : LaneId) : (s.emit os).lane k = s.lane k := rfl
@[simp] theorem emit_ctx (s : State) (os : List Output) (k : CtxId) : (s.emit os).ctx k = s.ctx k := rfl
@[simp] theorem emit_chan (s : State) (os : List Output) (k : UnitId) : (s.emit os).chan k = s.chan k := rfl
@[simp] theorem emit_rlt (s : State) (os : List Output) (k : UnitId) : (s.emit os).rlt k = s.rlt k := rfl
@[simp] theorem emit_patrolUnit (s : State) (os : List Output) (k : UnitId) : (s.emit os).patrolUnit k = s.patrolUnit k := rfl
@[simp] theorem emit_region (s : State) (os : List Output) (k : Nat) : (s.emit os).region k = s.region k := rfl
@[simp] theorem emit_route (s : State) (os : List Output) (k : RouteId) : (s.emit os).route k = s.route k := by cases k <;> rfl

/-! ### setDurable -/

@[simp] theorem setDurable_pending (s : State) (d : Durable) : (s.setDurable d).pending = s.pending := by simp only [State.setDurable]
@[simp] theorem setDurable_dev (s : State) (d : Durable) : (s.setDurable d).dev = s.dev := by simp only [State.setDurable]
@[simp] theorem setDurable_lif (s : State) (d : Durable) : (s.setDurable d).lif = s.lif := by simp only [State.setDurable]
@[simp] theorem setDurable_width (s : State) (d : Durable) : (s.setDurable d).width = s.width := by simp only [State.setDurable]
@[simp] theorem setDurable_tick (s : State) (d : Durable) : (s.setDurable d).tick = s.tick := by simp only [State.setDurable]
@[simp] theorem setDurable_anchor (s : State) (d : Durable) : (s.setDurable d).anchor = s.anchor := by simp only [State.setDurable]
@[simp] theorem setDurable_anchorHigh (s : State) (d : Durable) : (s.setDurable d).anchorHigh = s.anchorHigh := by simp only [State.setDurable]
@[simp] theorem setDurable_settings (s : State) (d : Durable) : (s.setDurable d).settings = s.settings := by simp only [State.setDurable]
@[simp] theorem setDurable_messagesEnabled (s : State) (d : Durable) : (s.setDurable d).messagesEnabled = s.messagesEnabled := by simp only [State.setDurable]
@[simp] theorem setDurable_unitPresent (s : State) (d : Durable) : (s.setDurable d).unitPresent = s.unitPresent := by simp only [State.setDurable]
@[simp] theorem setDurable_lanes (s : State) (d : Durable) : (s.setDurable d).lanes = s.lanes := by simp only [State.setDurable]
@[simp] theorem setDurable_dar (s : State) (d : Durable) : (s.setDurable d).dar = s.dar := by simp only [State.setDurable]
@[simp] theorem setDurable_ctxs (s : State) (d : Durable) : (s.setDurable d).ctxs = s.ctxs := by simp only [State.setDurable]
@[simp] theorem setDurable_lockdown (s : State) (d : Durable) : (s.setDurable d).lockdown = s.lockdown := by simp only [State.setDurable]
@[simp] theorem setDurable_chans (s : State) (d : Durable) : (s.setDurable d).chans = s.chans := by simp only [State.setDurable]
@[simp] theorem setDurable_patrol (s : State) (d : Durable) : (s.setDurable d).patrol = s.patrol := by simp only [State.setDurable]
@[simp] theorem setDurable_cme (s : State) (d : Durable) : (s.setDurable d).cme = s.cme := by simp only [State.setDurable]
@[simp] theorem setDurable_ntu (s : State) (d : Durable) : (s.setDurable d).ntu = s.ntu := by simp only [State.setDurable]
@[simp] theorem setDurable_out (s : State) (d : Durable) : (s.setDurable d).out = s.out := by simp only [State.setDurable]
@[simp] theorem setDurable_log (s : State) (d : Durable) : (s.setDurable d).log = d.log := by simp only [State.setDurable]
@[simp] theorem setDurable_lane (s : State) (d : Durable) (k : LaneId) : (s.setDurable d).lane k = s.lane k := by
  simp only [State.lane, setDurable_lanes]
@[simp] theorem setDurable_ctx (s : State) (d : Durable) (k : CtxId) : (s.setDurable d).ctx k = s.ctx k := by
  simp only [State.ctx, setDurable_ctxs]
@[simp] theorem setDurable_chan (s : State) (d : Durable) (k : UnitId) : (s.setDurable d).chan k = s.chan k := by
  simp only [State.chan, setDurable_chans]
@[simp] theorem setDurable_patrolUnit (s : State) (d : Durable) (k : UnitId) : (s.setDurable d).patrolUnit k = s.patrolUnit k := by
  simp only [State.patrolUnit, setDurable_patrol]
@[simp] theorem setDurable_route (s : State) (d : Durable) (k : RouteId) : (s.setDurable d).route k = s.route k := by
  cases k <;> simp only [State.route, setDurable_ntu]

/-! ### A block after its own update -/

@[simp] theorem lane_setLane_same (s : State) (k : LaneId) (v : Lane) : (s.setLane k v).lane k = v := by
  simp [State.setLane, State.lane]

theorem lane_setLane_other (s : State) (k j : LaneId) (v : Lane) (h : j ≠ k) : (s.setLane k v).lane j = s.lane j := by
  have h' : k.val ≠ j.val := fun e => h (Fin.ext e.symm)
  simp [State.setLane, State.lane, h']

@[simp] theorem ctx_setCtx_same (s : State) (k : CtxId) (v : Context) : (s.setCtx k v).ctx k = v := by
  simp [State.setCtx, State.ctx]

theorem ctx_setCtx_other (s : State) (k j : CtxId) (v : Context) (h : j ≠ k) : (s.setCtx k v).ctx j = s.ctx j := by
  have h' : k.val ≠ j.val := fun e => h (Fin.ext e.symm)
  simp [State.setCtx, State.ctx, h']

@[simp] theorem chan_setChan_same (s : State) (k : UnitId) (v : Channel) : (s.setChan k v).chan k = v := by
  simp [State.setChan, State.chan]

theorem chan_setChan_other (s : State) (k j : UnitId) (v : Channel) (h : j ≠ k) : (s.setChan k v).chan j = s.chan j := by
  have h' : k.val ≠ j.val := fun e => h (Fin.ext e.symm)
  simp [State.setChan, State.chan, h']

@[simp] theorem rlt_setRlt_same (s : State) (k : UnitId) (v : Rlt) : (s.setRlt k v).rlt k = v := by
  simp [State.setRlt, State.rlt]

theorem rlt_setRlt_other (s : State) (k j : UnitId) (v : Rlt) (h : j ≠ k) : (s.setRlt k v).rlt j = s.rlt j := by
  have h' : k.val ≠ j.val := fun e => h (Fin.ext e.symm)
  simp [State.setRlt, State.rlt, h']

@[simp] theorem patrolUnit_setPatrolUnit_same (s : State) (k : UnitId) (v : PatrolUnit) : (s.setPatrolUnit k v).patrolUnit k = v := by
  simp [State.setPatrolUnit, State.patrolUnit]

theorem patrolUnit_setPatrolUnit_other (s : State) (k j : UnitId) (v : PatrolUnit) (h : j ≠ k) : (s.setPatrolUnit k v).patrolUnit j = s.patrolUnit j := by
  have h' : k.val ≠ j.val := fun e => h (Fin.ext e.symm)
  simp [State.setPatrolUnit, State.patrolUnit, h']

theorem region_setRegion_same (s : State) (i : Nat) (v : RegionEntry) (h : i < 32) : (s.setRegion i v).region i = v := by
  simp [State.setRegion, State.region, h]

theorem region_setRegion_other (s : State) (i j : Nat) (v : RegionEntry) (h : j ≠ i) :
    (s.setRegion i v).region j = s.region j := by
  simp [State.setRegion, State.region, Ne.symm h]

theorem route_setRoute_same (s : State) (r : RouteId) (v : Route) : (s.setRoute r v).route r = v := by
  cases r <;> rfl

theorem route_setRoute_other (s : State) (r q : RouteId) (v : Route) (h : q ≠ r) : (s.setRoute r v).route q = s.route q := by
  cases r <;> cases q <;> first | rfl | exact absurd rfl h

/-! ### The last update of one part counts -/

@[simp] theorem setLane_setLane (s : State) (k : LaneId) (v w : Lane) : (s.setLane k v).setLane k w = s.setLane k w := by
  simp [State.setLane]
@[simp] theorem setCtx_setCtx (s : State) (k : CtxId) (v w : Context) : (s.setCtx k v).setCtx k w = s.setCtx k w := by
  simp [State.setCtx]
@[simp] theorem setChan_setChan (s : State) (k : UnitId) (v w : Channel) : (s.setChan k v).setChan k w = s.setChan k w := by
  simp [State.setChan]
@[simp] theorem setRlt_setRlt (s : State) (k : UnitId) (v w : Rlt) : (s.setRlt k v).setRlt k w = s.setRlt k w := by
  simp [State.setRlt]
@[simp] theorem setPatrolUnit_setPatrolUnit (s : State) (k : UnitId) (v w : PatrolUnit) :
    (s.setPatrolUnit k v).setPatrolUnit k w = s.setPatrolUnit k w := by
  simp [State.setPatrolUnit]
@[simp] theorem setCme_setCme (s : State) (v w : Cme) : (s.setCme v).setCme w = s.setCme w := rfl
@[simp] theorem setPatrol_setPatrol (s : State) (v w : Patrol) : (s.setPatrol v).setPatrol w = s.setPatrol w := rfl
@[simp] theorem awaits_self (s : State) : s.awaits s.lif.epoch = true := by simp [State.awaits]
@[simp] theorem setLif_setLif (s : State) (v w : Lif) : (s.setLif v).setLif w = s.setLif w := rfl
@[simp] theorem setDev_setDev (s : State) (v w : Device) : (s.setDev v).setDev w = s.setDev w := rfl

end Sys2Proof.Machine
end

