-- ==== Sys2Proof/Laws/Frames.lean ====
section
/-! SUPPORT. What the internal effects of an event leave unchanged. A part of the state that no update of a block touches
(`CascadeFrame`) is unchanged by every operation of the cascade, by `handle` and by `drain`; one that the commit engine's
update leaves alone too is unchanged by all of them. `BlockFrame` is the part of it for operations that touch no channel and no
relocation table. -/

namespace Sys2Proof.Machine

variable {α : Type} {p : State → α}

/-- A part of the state that the updates of contexts, regions, patrol, the notification unit, the links, the durable tables and
the held lists of the locks leave unchanged. -/
structure BlockFrame {α : Type} (p : State → α) : Prop where
  ctx : ∀ (s : State) (x : CtxId) (v : Context), p (s.setCtx x v) = p s
  held : ∀ (x : CtxId) (s : State), p (forgetHeld x s) = p s
  region : ∀ (s : State) (i : Nat) (v : RegionEntry), p (s.setRegion i v) = p s
  patrol : ∀ (s : State) (v : Patrol), p (s.setPatrol v) = p s
  patrolUnit : ∀ (s : State) (u : UnitId) (v : PatrolUnit), p (s.setPatrolUnit u v) = p s
  ntu : ∀ (s : State) (v : Ntu), p (s.setNtu v) = p s
  emit : ∀ (s : State) (os : List Output), p (s.emit os) = p s
  durable : ∀ (s : State) (d : Durable), p (s.setDurable d) = p s

/-- Such a part that the updates of channels and relocation tables leave unchanged too. -/
structure CascadeFrame {α : Type} (p : State → α) : Prop extends BlockFrame p where
  chan : ∀ (s : State) (c : UnitId) (v : Channel), p (s.setChan c v) = p s
  rlt : ∀ (s : State) (u : UnitId) (v : Rlt), p (s.setRlt u v) = p s

theorem forEach_frame {β : Type} (f : β → State → State) (hf : ∀ a t, p (f a t) = p t) (xs : List β) (s : State) :
    p (forEach xs f s) = p s := by
  induction xs generalizing s with
  | nil => rfl
  | cons a xs ih => exact (ih (f a s)).trans (hf a s)

theorem effEach_frame {β : Type} (f : β → State → Eff) (hf : ∀ a t, p (f a t).1 = p t) (xs : List β) (s : State) :
    p (effEach xs f s).1 = p s := by
  induction xs generalizing s with
  | nil => rfl
  | cons a xs ih => exact (ih (f a s).1).trans (hf a s)

theorem askWrite_frame (hp : BlockFrame p) (t : WriteTarget) (content : Bytes) (s : State) :
    p (askWrite t content s) = p s := by
  unfold askWrite
  (repeat' split) <;> simp [hp.ntu]

theorem setRoute_frame (hp : BlockFrame p) (s : State) (r : RouteId) (v : Route) :
    p (State.setRoute s r v) = p s := by
  unfold State.setRoute
  (repeat' split) <;> simp [hp.ntu]

theorem askMessage_frame (hp : BlockFrame p) (r : RouteId) (s : State) :
    p (askMessage r s) = p s := by
  unfold askMessage
  (repeat' split) <;> simp [hp.ntu]

theorem sendRoute_frame (hp : BlockFrame p) (r : RouteId) (s : State) :
    p (sendRoute r s) = p s := by
  unfold sendRoute
  simp [setRoute_frame hp, askMessage_frame hp]

theorem holdRoute_frame (hp : BlockFrame p) (r : RouteId) (v : Route) (s : State) :
    p (holdRoute r v s) = p s := by
  unfold holdRoute
  simp [setRoute_frame hp]

theorem takeCause_frame (hp : BlockFrame p) (r : RouteId) (s : State) :
    p (takeCause r s) = p s := by
  unfold takeCause
  dsimp only
  (repeat' split) <;> simp [setRoute_frame hp, sendRoute_frame hp, holdRoute_frame hp]

theorem routeCause_frame (hp : BlockFrame p) (sel : RouteSel) (s : State) :
    p (routeCause sel s) = p s := by
  unfold routeCause
  (repeat' split) <;> simp [takeCause_frame hp]

theorem postEvent_frame (hp : BlockFrame p) (k : EventKind) (o : Occurrence) (s : State) :
    p (postEvent k o s) = p s := by
  unfold postEvent
  dsimp only
  simp [hp.ntu, askWrite_frame hp, routeCause_frame hp]

theorem raiseUsers_frame (hp : BlockFrame p) (is : List Nat) (s : State) :
    p (raiseUsers is s) = p s := by
  unfold raiseUsers
  exact forEach_frame _ (fun _ _ => by simp [hp.region]) _ _

theorem lowerUsers_frame (hp : BlockFrame p) (is : List Nat) (s : State) :
    p (lowerUsers is s) = p s := by
  unfold lowerUsers
  exact forEach_frame _ (fun _ _ => by simp [hp.region]) _ _

theorem enterFinishing_frame (hp : BlockFrame p) (x : CtxId) (s : State) :
    p (enterFinishing x s) = p s := by
  unfold enterFinishing
  dsimp only
  simp [hp.ctx]

theorem freeContext_frame (hp : BlockFrame p) (x : CtxId) (s : State) :
    p (freeContext x s) = p s := by
  unfold freeContext
  simp [hp.ctx, lowerUsers_frame hp]

theorem ctxSettle_frame (hp : BlockFrame p) (x : CtxId) (s : State) :
    p (ctxSettle x s) = p s := by
  unfold ctxSettle
  dsimp only
  (repeat' split) <;> simp [hp.ctx, enterFinishing_frame hp, freeContext_frame hp]

theorem ctxUpdate_frame (hp : BlockFrame p) (x : CtxId) (c : Context) (s : State) :
    p (ctxUpdate x c s) = p s := by
  unfold ctxUpdate
  simp [hp.ctx, ctxSettle_frame hp]

theorem issueStep_frame (hp : BlockFrame p) (x : CtxId) (j : Nat) (cmd : StepCmd) (s : State) :
    p (issueStep x j cmd s).1 = p s := by
  unfold issueStep
  simp [hp.ctx]

theorem issueProgram_frame (hp : BlockFrame p) (x : CtxId) (j : Nat) (cmd : StepCmd) (s : State) :
    p (issueProgram x j cmd s).1 = p s := by
  unfold issueProgram
  dsimp only
  (repeat' split) <;> simp [ctxUpdate_frame hp, issueStep_frame hp]

theorem readSucceeds_frame (hp : BlockFrame p) (x : CtxId) (j : Nat) (data : Bytes) (s : State) :
    p (readSucceeds x j data s).1 = p s := by
  unfold readSucceeds
  dsimp only
  (repeat' split) <;> simp [hp.ctx, hp.emit, ctxUpdate_frame hp, issueProgram_frame hp]

theorem stepEnds_frame (hp : BlockFrame p) (x : CtxId) (j : Nat) (out : StepOutcome) (s : State) :
    p (stepEnds x j out s).1 = p s := by
  unfold stepEnds
  dsimp only
  (repeat' split) <;> simp [hp.ctx, ctxUpdate_frame hp, readSucceeds_frame hp]

theorem reissueStep_frame (hp : BlockFrame p) (x : CtxId) (j : Nat) (s : State) :
    p (reissueStep x j s).1 = p s := by
  unfold reissueStep
  (repeat' split) <;> simp [issueStep_frame hp, issueProgram_frame hp]

theorem moveBatched_frame (hp : BlockFrame p) (x : CtxId) (j : Nat) (s : State) :
    p (moveBatched x j s) = p s := by
  unfold moveBatched
  dsimp only
  (repeat' split) <;> simp [ctxUpdate_frame hp]

theorem blockEnds_frame (hp : BlockFrame p) (x : CtxId) (j : Nat) (res : BlockResult) (s : State) :
    p (blockEnds x j res s) = p s := by
  unfold blockEnds
  dsimp only
  (repeat' split) <;> simp [ctxUpdate_frame hp]

theorem changeEnds_frame (hp : BlockFrame p) (x : CtxId) (ok : Bool) (s : State) :
    p (changeEnds x ok s) = p s := by
  unfold changeEnds
  dsimp only
  (repeat' split) <;> simp [ctxUpdate_frame hp]

theorem passEnded_frame (hp : BlockFrame p) (x : CtxId) (number : Word32) (s : State) :
    p (passEnded x number s) = p s := by
  unfold passEnded
  dsimp only
  (repeat' split) <;> simp [ctxUpdate_frame hp]

theorem withdrawHeld_frame (hp : BlockFrame p) (x : CtxId) (s : State) :
    p (withdrawHeld x s) = p s := by
  unfold withdrawHeld
  dsimp only
  simp [hp.ctx, hp.held]

theorem ctxAbort_frame (hp : BlockFrame p) (x : CtxId) (s : State) :
    p (ctxAbort x s) = p s := by
  unfold ctxAbort
  dsimp only
  (repeat' split) <;> simp [hp.ctx, ctxSettle_frame hp, withdrawHeld_frame hp]

theorem ctxHalt_frame (hp : BlockFrame p) (x : CtxId) (s : State) :
    p (ctxHalt x s) = p s := by
  unfold ctxHalt
  dsimp only
  (repeat' split) <;> simp [hp.ctx, ctxSettle_frame hp, withdrawHeld_frame hp]

theorem postDataLost_frame (hp : BlockFrame p) (u : UnitId) (b code : Nat) (lane : Option LaneId) (s : State) :
    p (postDataLost u b code lane s) = p s := by
  unfold postDataLost
  simp [postEvent_frame hp]

theorem abandonRequest_frame (hp : BlockFrame p) (u : UnitId) (q : MoveReq) (code : AbandonCode) (s : State) :
    p (abandonRequest u q code s).1 = p s := by
  unfold abandonRequest
  dsimp only
  (repeat' split) <;> simp [postDataLost_frame hp]

theorem startOn_frame (hp : CascadeFrame p) (u : UnitId) (q : MoveReq) (spare : Option Nat) (s : State) :
    p (startOn u q spare s).1 = p s := by
  unfold startOn
  dsimp only
  (repeat' split) <;> simp [hp.rlt, abandonRequest_frame hp.toBlockFrame]

theorem startMove_frame (hp : CascadeFrame p) (u : UnitId) (q : MoveReq) (s : State) :
    p (startMove u q s).1 = p s := startOn_frame hp u q _ s

theorem channelRelease_frame (hp : CascadeFrame p) (u : UnitId) (mid : Nat) (s : State) :
    p (channelRelease u mid s).1 = p s := by
  unfold channelRelease
  simp [hp.chan]

theorem leaveSlot_frame (hp : CascadeFrame p) (u : UnitId) (mid : Nat) (s : State) :
    p (leaveSlot u mid s).1 = p s := by
  unfold leaveSlot
  simp [hp.rlt, channelRelease_frame hp]

theorem abandonMove_frame (hp : CascadeFrame p) (u : UnitId) (m : Move) (code : AbandonCode) (s : State) :
    p (abandonMove u m code s).1 = p s := by
  unfold abandonMove
  simp [leaveSlot_frame hp]

theorem joinWaiting_frame (hp : CascadeFrame p) (u : UnitId) (q : MoveReq) (s : State) :
    p (joinWaiting u q s).1 = p s := by
  unfold joinWaiting
  dsimp only
  (repeat' split) <;> simp [hp.rlt, postDataLost_frame hp.toBlockFrame]

theorem joinStarted_frame (hp : CascadeFrame p) (u : UnitId) (q : MoveReq) (comp : Move) (s : State) :
    p (joinStarted u q comp s).1 = p s := by
  unfold joinStarted
  dsimp only
  (repeat' split) <;> simp [hp.rlt, postDataLost_frame hp.toBlockFrame]

theorem placeRequest_frame (hp : CascadeFrame p) (u : UnitId) (q : MoveReq) (s : State) :
    p (placeRequest u q s).1 = p s := by
  unfold placeRequest
  dsimp only
  (repeat' split) <;> simp [hp.rlt, startMove_frame hp]

theorem raiseAtTake_frame (hp : BlockFrame p) (u : UnitId) (q : MoveReq) (s : State) :
    p (raiseAtTake u q s) = p s := by
  unfold raiseAtTake
  (repeat' split) <;> simp [postDataLost_frame hp]

theorem takeRequest_frame (hp : CascadeFrame p) (u : UnitId) (q : MoveReq) (s : State) :
    p (takeRequest u q s).1 = p s := by
  unfold takeRequest
  dsimp only
  (repeat' split) <;> simp [abandonRequest_frame hp.toBlockFrame, joinWaiting_frame hp, joinStarted_frame hp, placeRequest_frame hp, raiseAtTake_frame hp.toBlockFrame]

theorem slotFreed_frame (hp : CascadeFrame p) (u : UnitId) (s : State) :
    p (slotFreed u s).1 = p s := by
  unfold slotFreed
  dsimp only
  (repeat' split) <;> simp [hp.rlt, startMove_frame hp]

theorem startAccepted_frame (hp : CascadeFrame p) (u : UnitId) (m : Move) (s : State) :
    p (startAccepted u m s).1 = p s := by
  unfold startAccepted
  dsimp only
  (repeat' split) <;> simp [hp.rlt, postDataLost_frame hp.toBlockFrame]

theorem startDropped_frame (hp : CascadeFrame p) (u : UnitId) (m : Move) (s : State) :
    p (startDropped u m s).1 = p s := by
  unfold startDropped
  dsimp only
  (repeat' split) <;> simp [hp.rlt, startMove_frame hp]

theorem moveReadEnds_frame (hp : CascadeFrame p) (u : UnitId) (mid : Nat) (out : MoveOutcome) (s : State) :
    p (moveReadEnds u mid out s).1 = p s := by
  unfold moveReadEnds
  dsimp only
  (repeat' split) <;> simp [hp.rlt, postDataLost_frame hp.toBlockFrame, abandonMove_frame hp, leaveSlot_frame hp]

theorem retryOn_frame (hp : CascadeFrame p) (u : UnitId) (m : Move) (spare : Option Nat) (s : State) :
    p (retryOn u m spare s).1 = p s := by
  unfold retryOn
  dsimp only
  (repeat' split) <;> simp [hp.rlt, abandonMove_frame hp]

theorem moveWriteEnds_frame (hp : CascadeFrame p) (u : UnitId) (mid : Nat) (out : MoveOutcome) (s : State) :
    p (moveWriteEnds u mid out s).1 = p s := by
  unfold moveWriteEnds
  dsimp only
  (repeat' split) <;> simp [hp.rlt, abandonMove_frame hp, retryOn_frame hp]

theorem takePoisonClear_frame (_ : BlockFrame p) (hc : ∀ (s : State) (c : Cme), p (s.setCme c) = p s) (u : UnitId) (b : Nat) (x : CtxId) (j : Nat) (s : State) :
    p (takePoisonClear u b x j s).1 = p s := by
  unfold takePoisonClear
  (repeat' split) <;> simp [hc]

theorem movesLost_frame (hp : CascadeFrame p) (u : UnitId) (s : State) :
    p (movesLost u s).1 = p s := by
  unfold movesLost
  dsimp only
  simp [hp.rlt, hp.chan]

theorem rltReset_frame (hp : CascadeFrame p) (u : UnitId) (s : State) :
    p (rltReset u s).1 = p s := by
  unfold rltReset
  dsimp only
  rw [effEach_frame (resetEndsMove u) (fun m t => channelRelease_frame hp u m.mid t), hp.rlt]

theorem moveEnds_frame (hp : CascadeFrame p) (u : UnitId) (mid spare : Nat) (f : ChangeFate) (s : State) :
    p (moveEnds u mid spare f s).1 = p s := by
  unfold moveEnds
  (repeat' split) <;> simp [leaveSlot_frame hp]

theorem rltChangeEnds_frame (hp : CascadeFrame p) (f : ChangeFate) (chg : Change) (s : State) :
    p (rltChangeEnds f chg s).1 = p s := by
  unfold rltChangeEnds
  (repeat' split) <;> simp [hp.rlt, moveEnds_frame hp]

theorem sendEntry_frame (hp : CascadeFrame p) (u : UnitId) (e : QEntry) (target : Nat) (data : Bytes) (poisoned : Bool) (s : State) :
    p (sendEntry u e target data poisoned s) = p s := by
  unfold sendEntry
  dsimp only
  simp [hp.chan, hp.emit]

theorem startEntry_frame (hp : CascadeFrame p) (u : UnitId) (e : QEntry) (s : State) :
    p (startEntry u e s).1 = p s := by
  unfold startEntry
  dsimp only
  (repeat' split) <;> simp [hp.chan, sendEntry_frame hp]

theorem selectEntry_frame (hp : CascadeFrame p) (u : UnitId) (s : State) :
    p (selectEntry u s).1 = p s := by
  unfold selectEntry
  dsimp only
  (repeat' split) <;> simp [hp.chan, startEntry_frame hp]

theorem holdStep_frame (hp : BlockFrame p) (x : CtxId) (j : Nat) (cmd : StepCmd) (s : State) :
    p (holdStep x j cmd s) = p s := by
  unfold holdStep
  dsimp only
  (repeat' split) <;> simp [hp.ctx, ctxUpdate_frame hp]

theorem foregroundArrives_frame (hp : CascadeFrame p) (x : CtxId) (j : Nat) (cmd : StepCmd) (s : State) :
    p (foregroundArrives x j cmd s).1 = p s := by
  unfold foregroundArrives
  dsimp only
  (repeat' split) <;> simp [hp.chan, holdStep_frame hp.toBlockFrame]

theorem moveEntryArrives_frame (hp : CascadeFrame p) (u : UnitId) (mid : Nat) (cmd : StepCmd) (b : Nat) (s : State) :
    p (moveEntryArrives u mid cmd b s).1 = p s := by
  unfold moveEntryArrives
  dsimp only
  (repeat' split) <;> simp [hp.chan]

theorem commitEntryArrives_frame (hp : CascadeFrame p) (u : UnitId) (cmd : StepCmd) (b : Nat) (s : State) :
    p (commitEntryArrives u cmd b s).1 = p s := by
  unfold commitEntryArrives
  dsimp only
  (repeat' split) <;> simp [hp.chan]

theorem setLock_frame (hp : CascadeFrame p) (u : UnitId) (m : Move) (s : State) :
    p (setLock u m s) = p s := by
  unfold setLock
  dsimp only
  rw [forEach_frame _ (fun _ _ => holdStep_frame hp.toBlockFrame _ _ _ _), hp.chan]

theorem moveStart_frame (hp : CascadeFrame p) (u : UnitId) (mid : Nat) (s : State) :
    p (moveStart u mid s).1 = p s := by
  unfold moveStart
  dsimp only
  (repeat' split) <;> simp [hp.chan, abandonMove_frame hp, startAccepted_frame hp, startDropped_frame hp, setLock_frame hp]

theorem takeDeferred_frame (u : UnitId) (b : Nat) (s : State) :
    p (takeDeferred u b s).1 = p s := by
  rfl

theorem readEnds_frame (hp : CascadeFrame p) (u : UnitId) (e : QEntry) (target : Nat) (cls : ReadClass) (weak : Bool) (data : Bytes) (s : State) :
    p (readEnds u e target cls weak data s).1 = p s := by
  unfold readEnds
  simp [hp.chan]

theorem writeEnds_frame (hp : CascadeFrame p) (u : UnitId) (e : QEntry) (target : Nat) (ok poisoned : Bool) (s : State) :
    p (writeEnds u e target ok poisoned s).1 = p s := by
  unfold writeEnds
  simp [hp.chan]

theorem unitLoss_frame (hp : CascadeFrame p) (u : UnitId) (e : QEntry) (target : Nat) (s : State) :
    p (unitLoss u e target s).1 = p s := by
  unfold unitLoss
  dsimp only
  (repeat' split) <;> simp [hp.chan, postEvent_frame hp.toBlockFrame]

theorem chanReset_frame (hp : CascadeFrame p) (u : UnitId) (s : State) :
    p (chanReset u s).1 = p s := by
  unfold chanReset
  dsimp only
  simp [hp.chan]

theorem modPatrolUnit_frame (hp : BlockFrame p) (u : UnitId) (f : PatrolUnit → PatrolUnit) (s : State) :
    p (modPatrolUnit u f s) = p s := by
  unfold modPatrolUnit
  simp [hp.patrolUnit]

theorem setSub_frame (hp : BlockFrame p) (u : UnitId) (sub : SubState) (s : State) :
    p (setSub u sub s) = p s := by
  unfold setSub
  simp [modPatrolUnit_frame hp]

theorem stopUnit_frame (hp : BlockFrame p) (u : UnitId) (s : State) :
    p (stopUnit u s) = p s := by
  unfold stopUnit
  simp [modPatrolUnit_frame hp]

theorem offerTaken_frame (hp : BlockFrame p) (u : UnitId) (s : State) :
    p (offerTaken u s) = p s := by
  unfold offerTaken
  simp [modPatrolUnit_frame hp]

theorem advanceCursor_frame (hp : BlockFrame p) (u : UnitId) (s : State) :
    p (advanceCursor u s) = p s := by
  unfold advanceCursor
  simp [modPatrolUnit_frame hp]

theorem offerBlock_frame (hp : CascadeFrame p) (u : UnitId) (s : State) :
    p (offerBlock u s).1 = p s := by
  unfold offerBlock
  dsimp only
  (repeat' split) <;> simp [startEntry_frame hp, modPatrolUnit_frame hp.toBlockFrame, setSub_frame hp.toBlockFrame, stopUnit_frame hp.toBlockFrame, offerTaken_frame hp.toBlockFrame, advanceCursor_frame hp.toBlockFrame]

theorem becomeReady_frame (hp : CascadeFrame p) (u : UnitId) (s : State) :
    p (becomeReady u s).1 = p s := by
  unfold becomeReady
  dsimp only
  (repeat' split) <;> simp [setSub_frame hp.toBlockFrame, modPatrolUnit_frame hp.toBlockFrame, offerBlock_frame hp]

theorem addTally_frame (hp : BlockFrame p) (cls : ReadClass) (s : State) :
    p (addTally cls s) = p s := by
  unfold addTally
  simp [hp.patrol]

theorem blockDone_frame (hp : BlockFrame p) (u : UnitId) (cls : ReadClass) (s : State) :
    p (blockDone u cls s).1 = p s := by
  unfold blockDone
  dsimp only
  (repeat' split) <;> simp [setSub_frame hp, advanceCursor_frame hp, addTally_frame hp]

theorem patrolReadEnds_frame (hp : BlockFrame p) (u : UnitId) (cls : ReadClass) (weak : Bool) (s : State) :
    p (patrolReadEnds u cls weak s).1 = p s := by
  unfold patrolReadEnds
  (repeat' split) <;> simp [blockDone_frame hp]

theorem settleFinding_frame (hp : CascadeFrame p) (u : UnitId) (b : Nat) (s : State) :
    p (settleFinding u b s) = p s := by
  unfold settleFinding
  simp [hp.chan]

theorem findingAnswered_frame (hp : CascadeFrame p) (u : UnitId) (b : Nat) (tag : FindingTag) (ans : FindingAnswer) (s : State) :
    p (findingAnswered u b tag ans s).1 = p s := by
  unfold findingAnswered
  (repeat' split) <;> simp [modPatrolUnit_frame hp.toBlockFrame, setSub_frame hp.toBlockFrame, blockDone_frame hp.toBlockFrame, settleFinding_frame hp]

theorem findingEnded_frame (hp : BlockFrame p) (u : UnitId) (b : Nat) (tag : FindingTag) (res : FindingEnd) (s : State) :
    p (findingEnded u b tag res s).1 = p s := by
  unfold findingEnded
  dsimp only
  (repeat' split) <;> simp [hp.patrol, modPatrolUnit_frame hp]

theorem startPass_frame (hp : BlockFrame p) (s : State) :
    p (startPass s).1 = p s := by
  unfold startPass
  simp [hp.patrol]

theorem passPosted_frame (hp : BlockFrame p) (outcome : PassOutcome) (s : State) :
    p (passPosted outcome s) = p s := by
  unfold passPosted
  simp [postEvent_frame hp]

theorem passClosed_frame (hp : BlockFrame p) (restart : Bool) (s : State) :
    p (passClosed restart s).1 = p s := by
  unfold passClosed
  simp [hp.patrol]

/-- The end of a pass changes nothing itself: all of it is in the effects it hands on (R130). -/
@[simp] theorem endPass_fst (outcome : PassOutcome) (s : State) : (endPass outcome s).1 = s := rfl

/-- The test for a pass end changes nothing itself. -/
@[simp] theorem passCheck_fst (s : State) : (passCheck s).1 = s := by
  unfold passCheck
  (repeat' split) <;> simp

theorem quietReport_frame (hp : CascadeFrame p) (u : UnitId) (s : State) :
    p (quietReport u s).1 = p s := by
  unfold quietReport
  (repeat' split) <;> simp [modPatrolUnit_frame hp.toBlockFrame, becomeReady_frame hp]

theorem freeSlotReport_frame (hp : CascadeFrame p) (u : UnitId) (s : State) :
    p (freeSlotReport u s).1 = p s := by
  unfold freeSlotReport
  (repeat' split) <;> simp [becomeReady_frame hp]

theorem patrolLost_frame (hp : BlockFrame p) (u : UnitId) (s : State) :
    p (patrolLost u s).1 = p s := by
  unfold patrolLost
  (repeat' split) <;> simp [stopUnit_frame hp]

@[simp] theorem patrolReset_fst (s : State) : (patrolReset s).1 = s := by
  unfold patrolReset
  (repeat' split) <;> simp

theorem patrolSet_frame (hp : BlockFrame p) (cfg : PatrolCfg) (s : State) :
    p (patrolSet cfg s).1 = p s := by
  unfold patrolSet
  dsimp only
  simp [hp.patrol]

theorem clearMarks_frame (hp : BlockFrame p) (batch : List Change) (s : State) :
    p (clearMarks batch s) = p s := by
  unfold clearMarks
  exact forEach_frame _ (fun _ _ => by simp [hp.region]) _ _

theorem regionEvents_frame (hp : BlockFrame p) (before : State) (g : Nat) (batch : List Change) (s : State) :
    p (regionEvents before g batch s) = p s := by
  exact forEach_frame _ (fun _ _ => forEach_frame _ (fun _ _ => postEvent_frame hp _ _ _) _ _) _ _

theorem relocatedEvents_frame (hp : BlockFrame p) (g : Nat) (batch : List Change) (s : State) :
    p (relocatedEvents g batch s) = p s := by
  exact forEach_frame _ (fun _ _ => forEach_frame _ (fun _ _ => postEvent_frame hp _ _ _) _ _) _ _

theorem spareLowEvents_frame (hp : BlockFrame p) (before : State) (g : Nat) (s : State) :
    p (spareLowEvents before g s) = p s := by
  unfold spareLowEvents
  refine forEach_frame _ (fun _ _ => ?_) _ _
  dsimp only
  split <;> simp [postEvent_frame hp]

theorem degradeUnits_frame (hp : CascadeFrame p) (g : Nat) (s : State) :
    p (degradeUnits g s) = p s := by
  unfold degradeUnits
  exact forEach_frame _ (fun _ _ => by (repeat' split) <;> simp [hp.chan, postEvent_frame hp.toBlockFrame]) _ _

theorem mirrorEvents_frame (hp : BlockFrame p) (f : InFlight) (s : State) :
    p (mirrorEvents f s) = p s := by
  unfold mirrorEvents
  exact forEach_frame _ (fun _ _ => by (repeat' split) <;> simp [postEvent_frame hp]) _ _

theorem batchEnds_frame (hp : CascadeFrame p) (f : ChangeFate) (batch : List Change) (s : State) :
    p (batchEnds f batch s).1 = p s := by
  unfold batchEnds
  exact effEach_frame _ (fun _ _ => by simp [rltChangeEnds_frame hp]) _ _

theorem commitSucceeds_frame (hp : CascadeFrame p) (hc : ∀ (s : State) (c : Cme), p (s.setCme c) = p s) (f : InFlight) (s : State) :
    p (commitSucceeds f s).1 = p s := by
  unfold commitSucceeds
  dsimp only
  simp [hp.durable, hc, clearMarks_frame hp.toBlockFrame, regionEvents_frame hp.toBlockFrame, relocatedEvents_frame hp.toBlockFrame, spareLowEvents_frame hp.toBlockFrame, degradeUnits_frame hp, mirrorEvents_frame hp.toBlockFrame, batchEnds_frame hp]

theorem commitFails_frame (hp : CascadeFrame p) (hc : ∀ (s : State) (c : Cme), p (s.setCme c) = p s) (f : InFlight) (code : Nat) (s : State) :
    p (commitFails f code s).1 = p s := by
  unfold commitFails
  dsimp only
  simp [hc, postEvent_frame hp.toBlockFrame, clearMarks_frame hp.toBlockFrame, batchEnds_frame hp]

theorem writingBegin_frame (hp : CascadeFrame p) (hc : ∀ (s : State) (c : Cme), p (s.setCme c) = p s) (s : State) :
    p (writingBegin s).1 = p s := by
  unfold writingBegin
  dsimp only
  (repeat' split) <;> simp [hc, commitFails_frame hp hc]

theorem attemptEnds_frame (hp : CascadeFrame p) (hc : ∀ (s : State) (c : Cme), p (s.setCme c) = p s) (f : InFlight) (s : State) :
    p (attemptEnds f s).1 = p s := by
  unfold attemptEnds
  dsimp only
  (repeat' split) <;> simp [hc, commitSucceeds_frame hp hc, commitFails_frame hp hc]

theorem copyEnds_frame (hp : CascadeFrame p) (hc : ∀ (s : State) (c : Cme), p (s.setCme c) = p s) (u : UnitId) (out : CopyOutcome) (s : State) :
    p (copyEnds u out s).1 = p s := by
  unfold copyEnds
  dsimp only
  (repeat' split) <;> simp [hc, attemptEnds_frame hp hc]

theorem markClosing_frame (hp : BlockFrame p) (is : List Nat) (s : State) :
    p (markClosing is s) = p s := by
  unfold markClosing
  exact forEach_frame _ (fun _ _ => by simp [hp.region]) _ _

theorem takeBatch_frame (hp : CascadeFrame p) (hc : ∀ (s : State) (c : Cme), p (s.setCme c) = p s) (s : State) :
    p (takeBatch s).1 = p s := by
  unfold takeBatch
  dsimp only
  (repeat' split) <;> simp [hc, batchEnds_frame hp, commitFails_frame hp hc, markClosing_frame hp.toBlockFrame]

theorem closingCheck_frame (hp : CascadeFrame p) (hc : ∀ (s : State) (c : Cme), p (s.setCme c) = p s) (s : State) :
    p (closingCheck s).1 = p s := by
  unfold closingCheck
  (repeat' split) <;> simp [writingBegin_frame hp hc]

theorem changeArrives_frame (hp : CascadeFrame p) (hc : ∀ (s : State) (c : Cme), p (s.setCme c) = p s) (chg : Change) (s : State) :
    p (changeArrives chg s).1 = p s := by
  unfold changeArrives
  dsimp only
  (repeat' split) <;> simp [hc, takeBatch_frame hp hc]

theorem engineLeaves_frame (hp : CascadeFrame p) (hc : ∀ (s : State) (c : Cme), p (s.setCme c) = p s) (s : State) :
    p (engineLeaves s).1 = p s := by
  unfold engineLeaves
  (repeat' split) <;> simp [hc, takeBatch_frame hp hc]

theorem setLoad_frame (_ : BlockFrame p) (hc : ∀ (s : State) (c : Cme), p (s.setCme c) = p s) (s : State) (u : UnitId) (v : UnitLoad) :
    p (State.setLoad s u v) = p s := by
  unfold State.setLoad
  simp [hc]

theorem slotJudged_frame (hp : BlockFrame p) (hc : ∀ (s : State) (c : Cme), p (s.setCme c) = p s) (u : UnitId) (sl : Slot) (copy : Option Image) (s : State) :
    p (slotJudged u sl copy s).1 = p s := by
  unfold slotJudged
  dsimp only
  (repeat' split) <;> simp [setLoad_frame hp hc]

theorem loadReadEnds_frame (hp : BlockFrame p) (hc : ∀ (s : State) (c : Cme), p (s.setCme c) = p s) (u : UnitId) (data : Option Bytes) (s : State) :
    p (loadReadEnds u data s).1 = p s := by
  unfold loadReadEnds
  dsimp only
  (repeat' split) <;> simp [setLoad_frame hp hc, slotJudged_frame hp hc]

/-! ### One internal effect and all of them -/

/-- The probe's test changes nothing once the probe is over. -/
theorem probeCheck_eq (s : State) (h : s.dev.state ≠ .probing) : probeCheck s = s := by simp [probeCheck, h]

/-- One internal effect leaves the part unchanged, if the probe's test does. -/
theorem handle_frame (hp : CascadeFrame p) (hc : ∀ (s : State) (c : Cme), p (s.setCme c) = p s) (m : Msg) (s : State)
    (hd : p (probeCheck s) = p s) : p (handle m s).1 = p s := by
  cases m <;> simp only [handle, quietly]
  case foregroundArrives => exact foregroundArrives_frame hp _ _ _ _
  case moveEntryArrives => exact moveEntryArrives_frame hp _ _ _ _ _
  case commitEntryArrives => exact commitEntryArrives_frame hp _ _ _ _
  case select => exact selectEntry_frame hp _ _
  case quiet => exact quietReport_frame hp _ _
  case takeDeferred => exact takeDeferred_frame _ _ _
  case moveStart => exact moveStart_frame hp _ _ _
  case reissue => exact reissueStep_frame hp.toBlockFrame _ _ _
  case stepEnds => exact stepEnds_frame hp.toBlockFrame _ _ _ _
  case moveBatched => exact moveBatched_frame hp.toBlockFrame _ _ _
  case blockEnds => exact blockEnds_frame hp.toBlockFrame _ _ _ _
  case changeEnds => exact changeEnds_frame hp.toBlockFrame _ _ _
  case passEnded => exact passEnded_frame hp.toBlockFrame _ _ _
  case moveRequest => exact takeRequest_frame hp _ _ _
  case moveReadEnds => exact moveReadEnds_frame hp _ _ _ _
  case moveWriteEnds => exact moveWriteEnds_frame hp _ _ _ _
  case slotFreed => exact slotFreed_frame hp _ _
  case movesLost => exact movesLost_frame hp _ _
  case patrolReady => exact becomeReady_frame hp _ _
  case patrolReadEnds => exact patrolReadEnds_frame hp.toBlockFrame _ _ _ _
  case findingAnswered => exact findingAnswered_frame hp _ _ _ _ _
  case findingEnded => exact findingEnded_frame hp.toBlockFrame _ _ _ _ _
  case freeSlotReport => exact freeSlotReport_frame hp _ _
  case patrolLost => exact patrolLost_frame hp.toBlockFrame _ _
  case passPosted => exact passPosted_frame hp.toBlockFrame _ _
  case passClosed => exact passClosed_frame hp.toBlockFrame _ _
  case passRestart => exact startPass_frame hp.toBlockFrame _
  case passCheck => exact congrArg p (passCheck_fst _)
  case change => exact changeArrives_frame hp hc _ _
  case poisonClear => exact takePoisonClear_frame hp.toBlockFrame hc _ _ _ _ _
  case closingCheck => exact closingCheck_frame hp hc _
  case copyEnds => exact copyEnds_frame hp hc _ _ _
  case engineLeaves => exact engineLeaves_frame hp hc _
  case loadReadEnds => exact loadReadEnds_frame hp.toBlockFrame hc _ _ _
  case probeCheck => exact hd

/-- All internal effects of an event leave the part unchanged, if the probe's test does. -/
theorem drain_frame (hp : CascadeFrame p) (hc : ∀ (s : State) (c : Cme), p (s.setCme c) = p s)
    (hd : ∀ s, p (probeCheck s) = p s) (n : Nat) (ms : List Msg) (s : State) : p (drain n ms s) = p s := by
  induction n generalizing ms s with
  | zero => rfl
  | succ n ih =>
    cases ms with
    | nil => rfl
    | cons m rest => exact (ih _ _).trans (handle_frame hp hc m s (hd s))

theorem cascadeFrame_pending : CascadeFrame State.pending :=
  ⟨⟨fun _ _ _ => rfl, fun _ _ => rfl, fun _ _ _ => rfl, fun _ _ => rfl, fun _ _ _ => rfl, fun _ _ => rfl,
    fun _ _ => rfl, setDurable_pending⟩, fun _ _ _ => rfl, fun _ _ _ => rfl⟩
theorem cascadeFrame_dev : CascadeFrame State.dev :=
  ⟨⟨fun _ _ _ => rfl, fun _ _ => rfl, fun _ _ _ => rfl, fun _ _ => rfl, fun _ _ _ => rfl, fun _ _ => rfl,
    fun _ _ => rfl, setDurable_dev⟩, fun _ _ _ => rfl, fun _ _ _ => rfl⟩
theorem cascadeFrame_width : CascadeFrame State.width :=
  ⟨⟨fun _ _ _ => rfl, fun _ _ => rfl, fun _ _ _ => rfl, fun _ _ => rfl, fun _ _ _ => rfl, fun _ _ => rfl,
    fun _ _ => rfl, setDurable_width⟩, fun _ _ _ => rfl, fun _ _ _ => rfl⟩
theorem cascadeFrame_tick : CascadeFrame State.tick :=
  ⟨⟨fun _ _ _ => rfl, fun _ _ => rfl, fun _ _ _ => rfl, fun _ _ => rfl, fun _ _ _ => rfl, fun _ _ => rfl,
    fun _ _ => rfl, setDurable_tick⟩, fun _ _ _ => rfl, fun _ _ _ => rfl⟩
theorem cascadeFrame_anchor : CascadeFrame State.anchor :=
  ⟨⟨fun _ _ _ => rfl, fun _ _ => rfl, fun _ _ _ => rfl, fun _ _ => rfl, fun _ _ _ => rfl, fun _ _ => rfl,
    fun _ _ => rfl, setDurable_anchor⟩, fun _ _ _ => rfl, fun _ _ _ => rfl⟩
theorem cascadeFrame_anchorHigh : CascadeFrame State.anchorHigh :=
  ⟨⟨fun _ _ _ => rfl, fun _ _ => rfl, fun _ _ _ => rfl, fun _ _ => rfl, fun _ _ _ => rfl, fun _ _ => rfl,
    fun _ _ => rfl, setDurable_anchorHigh⟩, fun _ _ _ => rfl, fun _ _ _ => rfl⟩
theorem cascadeFrame_settings : CascadeFrame State.settings :=
  ⟨⟨fun _ _ _ => rfl, fun _ _ => rfl, fun _ _ _ => rfl, fun _ _ => rfl, fun _ _ _ => rfl, fun _ _ => rfl,
    fun _ _ => rfl, setDurable_settings⟩, fun _ _ _ => rfl, fun _ _ _ => rfl⟩
theorem cascadeFrame_messagesEnabled : CascadeFrame State.messagesEnabled :=
  ⟨⟨fun _ _ _ => rfl, fun _ _ => rfl, fun _ _ _ => rfl, fun _ _ => rfl, fun _ _ _ => rfl, fun _ _ => rfl,
    fun _ _ => rfl, setDurable_messagesEnabled⟩, fun _ _ _ => rfl, fun _ _ _ => rfl⟩
theorem cascadeFrame_unitPresent : CascadeFrame State.unitPresent :=
  ⟨⟨fun _ _ _ => rfl, fun _ _ => rfl, fun _ _ _ => rfl, fun _ _ => rfl, fun _ _ _ => rfl, fun _ _ => rfl,
    fun _ _ => rfl, setDurable_unitPresent⟩, fun _ _ _ => rfl, fun _ _ _ => rfl⟩
theorem cascadeFrame_lanes : CascadeFrame State.lanes :=
  ⟨⟨fun _ _ _ => rfl, fun _ _ => rfl, fun _ _ _ => rfl, fun _ _ => rfl, fun _ _ _ => rfl, fun _ _ => rfl,
    fun _ _ => rfl, setDurable_lanes⟩, fun _ _ _ => rfl, fun _ _ _ => rfl⟩
theorem cascadeFrame_dar : CascadeFrame State.dar :=
  ⟨⟨fun _ _ _ => rfl, fun _ _ => rfl, fun _ _ _ => rfl, fun _ _ => rfl, fun _ _ _ => rfl, fun _ _ => rfl,
    fun _ _ => rfl, setDurable_dar⟩, fun _ _ _ => rfl, fun _ _ _ => rfl⟩
theorem cascadeFrame_lockdown : CascadeFrame State.lockdown :=
  ⟨⟨fun _ _ _ => rfl, fun _ _ => rfl, fun _ _ _ => rfl, fun _ _ => rfl, fun _ _ _ => rfl, fun _ _ => rfl,
    fun _ _ => rfl, setDurable_lockdown⟩, fun _ _ _ => rfl, fun _ _ _ => rfl⟩
theorem cascadeFrame_cme : CascadeFrame State.cme :=
  ⟨⟨fun _ _ _ => rfl, fun _ _ => rfl, fun _ _ _ => rfl, fun _ _ => rfl, fun _ _ _ => rfl, fun _ _ => rfl,
    fun _ _ => rfl, setDurable_cme⟩, fun _ _ _ => rfl, fun _ _ _ => rfl⟩

/-- Outside the probe the internal effects leave the device state alone, and every part with them that neither the blocks'
updates nor the commit engine's touch. -/
theorem drain_after_probe (hp : CascadeFrame p) (hc : ∀ (s : State) (c : Cme), p (s.setCme c) = p s) (n : Nat)
    (ms : List Msg) (s : State) (h : s.dev.state ≠ .probing) :
    p (drain n ms s) = p s ∧ (drain n ms s).dev = s.dev := by
  induction n generalizing ms s with
  | zero => exact ⟨rfl, rfl⟩
  | succ n ih =>
    cases ms with
    | nil => exact ⟨rfl, rfl⟩
    | cons m rest =>
      have hd : (handle m s).1.dev = s.dev :=
        handle_frame cascadeFrame_dev (fun _ _ => rfl) m s (by rw [probeCheck_eq s h])
      have hs : p (handle m s).1 = p s := handle_frame hp hc m s (by rw [probeCheck_eq s h])
      have ih' := ih ((handle m s).2 ++ rest) (handle m s).1 (by rw [hd]; exact h)
      exact ⟨ih'.1.trans hs, ih'.2.trans hd⟩

theorem drain_none (n : Nat) (s : State) : drain n [] s = s := by cases n <;> rfl

theorem workOff_none (s : State) : workOff (s, []) = s := drain_none _ s

theorem workOff_after_probe (hp : CascadeFrame p) (hc : ∀ (s : State) (c : Cme), p (s.setCme c) = p s) (e : Eff)
    (h : e.1.dev.state ≠ .probing) : p (workOff e) = p e.1 :=
  (drain_after_probe hp hc _ e.2 e.1 h).1

end Sys2Proof.Machine
end

