-- ==== Sys2Proof/Laws/Events.lean ====
section
/-! SUPPORT. What the commands leave unchanged. A part of the state that no update of a block, of a lane, of the device or of
the commit engine touches (`EventFrame`) is unchanged by every shared operation of the commands; `DeviceFrame` is the
part of it for commands that touch no channel and no relocation table; where the end of a warm reset may follow, the state is
`Settled`. The queue, the tick, the anchor, the settings, the message enable
and the lockdown flag are such parts. -/

namespace Sys2Proof.Machine

variable {α : Type} {p : State → α}

/-! ### What the choice of an image leaves (R154) -/

@[simp] theorem loadImage_pending (im : Image) (s : State) : (loadImage im s).pending = s.pending := by simp only [loadImage]
@[simp] theorem loadImage_dev (im : Image) (s : State) : (loadImage im s).dev = s.dev := by simp only [loadImage]
@[simp] theorem loadImage_lif (im : Image) (s : State) : (loadImage im s).lif = s.lif := by simp only [loadImage]
@[simp] theorem loadImage_width (im : Image) (s : State) : (loadImage im s).width = s.width := by simp only [loadImage]
@[simp] theorem loadImage_tick (im : Image) (s : State) : (loadImage im s).tick = s.tick := by simp only [loadImage]
@[simp] theorem loadImage_anchor (im : Image) (s : State) : (loadImage im s).anchor = s.anchor := by simp only [loadImage]
@[simp] theorem loadImage_anchorHigh (im : Image) (s : State) : (loadImage im s).anchorHigh = s.anchorHigh := by simp only [loadImage]
@[simp] theorem loadImage_settings (im : Image) (s : State) : (loadImage im s).settings = s.settings := by simp only [loadImage]
@[simp] theorem loadImage_messagesEnabled (im : Image) (s : State) : (loadImage im s).messagesEnabled = s.messagesEnabled := by simp only [loadImage]
@[simp] theorem loadImage_unitPresent (im : Image) (s : State) : (loadImage im s).unitPresent = s.unitPresent := by simp only [loadImage]
@[simp] theorem loadImage_lanes (im : Image) (s : State) : (loadImage im s).lanes = s.lanes := by simp only [loadImage]
@[simp] theorem loadImage_dar (im : Image) (s : State) : (loadImage im s).dar = s.dar := by simp only [loadImage]
@[simp] theorem loadImage_ctxs (im : Image) (s : State) : (loadImage im s).ctxs = s.ctxs := by simp only [loadImage]
@[simp] theorem loadImage_lockdown (im : Image) (s : State) : (loadImage im s).lockdown = s.lockdown := by simp only [loadImage]
@[simp] theorem loadImage_chans (im : Image) (s : State) : (loadImage im s).chans = s.chans := by simp only [loadImage]
@[simp] theorem loadImage_ntu (im : Image) (s : State) : (loadImage im s).ntu = s.ntu := by simp only [loadImage]
@[simp] theorem loadImage_out (im : Image) (s : State) : (loadImage im s).out = s.out := by simp only [loadImage]

/-- A part of the state that the updates of lanes, device, commit engine, arbiter and image load leave unchanged too. -/
structure DeviceFrame {α : Type} (p : State → α) : Prop extends BlockFrame p where
  lane : ∀ (s : State) (l : LaneId) (v : Lane), p (s.setLane l v) = p s
  dev : ∀ (s : State) (d : Device), p (s.setDev d) = p s
  lif : ∀ (s : State) (v : Lif), p (s.setLif v) = p s
  cme : ∀ (s : State) (c : Cme), p (s.setCme c) = p s
  dar : ∀ (s : State) (d : Dar), p { s with dar := d } = p s
  devDar : ∀ (s : State) (e : Device) (d : Dar), p { s with dev := e, dar := d } = p s
  width : ∀ (s : State) (n : Nat), p { s with width := n } = p s
  load : ∀ (im : Image) (s : State), p (loadImage im s) = p s

/-- A part of the state that the blocks' own updates leave unchanged. -/
structure EventFrame {α : Type} (p : State → α) : Prop extends CascadeFrame p, DeviceFrame p

/-! ### The parts that are so framed -/

theorem eventFrame_pending : EventFrame State.pending :=
  ⟨cascadeFrame_pending, fun _ _ _ => rfl, fun _ _ => rfl, fun _ _ => rfl, fun _ _ => rfl, fun _ _ => rfl, fun _ _ _ => rfl,
    fun _ _ => rfl, loadImage_pending⟩
theorem eventFrame_tick : EventFrame State.tick :=
  ⟨cascadeFrame_tick, fun _ _ _ => rfl, fun _ _ => rfl, fun _ _ => rfl, fun _ _ => rfl, fun _ _ => rfl, fun _ _ _ => rfl,
    fun _ _ => rfl, loadImage_tick⟩
theorem eventFrame_anchor : EventFrame State.anchor :=
  ⟨cascadeFrame_anchor, fun _ _ _ => rfl, fun _ _ => rfl, fun _ _ => rfl, fun _ _ => rfl, fun _ _ => rfl, fun _ _ _ => rfl,
    fun _ _ => rfl, loadImage_anchor⟩
theorem eventFrame_anchorHigh : EventFrame State.anchorHigh :=
  ⟨cascadeFrame_anchorHigh, fun _ _ _ => rfl, fun _ _ => rfl, fun _ _ => rfl, fun _ _ => rfl, fun _ _ => rfl, fun _ _ _ => rfl,
    fun _ _ => rfl, loadImage_anchorHigh⟩
theorem eventFrame_settings : EventFrame State.settings :=
  ⟨cascadeFrame_settings, fun _ _ _ => rfl, fun _ _ => rfl, fun _ _ => rfl, fun _ _ => rfl, fun _ _ => rfl, fun _ _ _ => rfl,
    fun _ _ => rfl, loadImage_settings⟩
theorem eventFrame_messagesEnabled : EventFrame State.messagesEnabled :=
  ⟨cascadeFrame_messagesEnabled, fun _ _ _ => rfl, fun _ _ => rfl, fun _ _ => rfl, fun _ _ => rfl, fun _ _ => rfl, fun _ _ _ => rfl,
    fun _ _ => rfl, loadImage_messagesEnabled⟩
theorem eventFrame_unitPresent : EventFrame State.unitPresent :=
  ⟨cascadeFrame_unitPresent, fun _ _ _ => rfl, fun _ _ => rfl, fun _ _ => rfl, fun _ _ => rfl, fun _ _ => rfl, fun _ _ _ => rfl,
    fun _ _ => rfl, loadImage_unitPresent⟩
theorem eventFrame_lockdown : EventFrame State.lockdown :=
  ⟨cascadeFrame_lockdown, fun _ _ _ => rfl, fun _ _ => rfl, fun _ _ => rfl, fun _ _ => rfl, fun _ _ => rfl, fun _ _ _ => rfl,
    fun _ _ => rfl, loadImage_lockdown⟩

theorem takeAction_event (hp : DeviceFrame p) (s : State) : p s.takeAction = p s := by
  unfold State.takeAction
  split <;> simp [hp.dev]

theorem refuseAction_event (hp : DeviceFrame p) (c : FaultCode) (s : State) : p (s.refuseAction c) = p s := by
  unfold State.refuseAction
  split <;> simp [hp.dev]

theorem modLane_event (hp : DeviceFrame p) (l : LaneId) (f : Lane → Lane) (s : State) :
    p (modLane l f s) = p s := by
  unfold modLane
  simp [hp.lane]

theorem askStatus_event (hp : DeviceFrame p) (l : LaneId) (s : State) :
    p (askStatus l s) = p s := by
  unfold askStatus
  dsimp only
  (repeat' split) <;> simp [askWrite_frame hp.toBlockFrame, modLane_event hp]

theorem issueFetch_event (hp : DeviceFrame p) (l : LaneId) (s : State) :
    p (issueFetch l s) = p s := by
  unfold issueFetch
  (repeat' split) <;> simp [hp.emit, modLane_event hp]

theorem issueLinkRead_event (hp : DeviceFrame p) (l : LaneId) (a : Addr) (s : State) :
    p (issueLinkRead l a s) = p s := by
  unfold issueLinkRead
  simp [hp.emit, modLane_event hp]

theorem reread_event (hp : DeviceFrame p) (l : LaneId) (s : State) :
    p (reread l s) = p s := by
  unfold reread
  (repeat' split) <;> simp [modLane_event hp, issueFetch_event hp, issueLinkRead_event hp]

theorem park_event (hp : DeviceFrame p) (l : LaneId) (st : LaneState) (s : State) :
    p (park l st s) = p s := by
  unfold park
  simp [modLane_event hp, askStatus_event hp]

theorem handCauses_event (hp : DeviceFrame p) (l : LaneId) (run : List WinRec) (s : State) :
    p (handCauses l run s) = p s := by
  unfold handCauses
  exact forEach_frame _ (fun _ _ => by simp [routeCause_frame hp.toBlockFrame]) _ _

theorem laneRetire_event (hp : DeviceFrame p) (l : LaneId) (s : State) :
    p (laneRetire l s) = p s := by
  unfold laneRetire
  dsimp only
  (repeat' split) <;> simp [modLane_event hp, askStatus_event hp, handCauses_event hp]

theorem retireAll_event (hp : DeviceFrame p) (l : LaneId) (s : State) :
    p (retireAll l s) = p s := by
  unfold retireAll
  simp [modLane_event hp]

theorem laneOff_event (hp : DeviceFrame p) (l : LaneId) (s : State) :
    p (laneOff l s) = p s := by
  unfold laneOff
  dsimp only
  (repeat' split) <;> simp [modLane_event hp, askStatus_event hp, handCauses_event hp, retireAll_event hp]

theorem laneHaltedOff_event (hp : DeviceFrame p) (l : LaneId) (s : State) :
    p (laneHaltedOff l s) = p s := by
  unfold laneHaltedOff
  dsimp only
  (repeat' split) <;> simp [modLane_event hp]

theorem laneFault_event (hp : DeviceFrame p) (l : LaneId) (code : LaneFault) (a : Addr) (s : State) :
    p (laneFault l code a s) = p s := by
  unfold laneFault
  simp [postEvent_frame hp.toBlockFrame, modLane_event hp, askStatus_event hp]

theorem cancelStaged_event (hp : DeviceFrame p) (l : LaneId) (s : State) :
    p (cancelStaged l s) = p s := by
  unfold cancelStaged
  (repeat' split) <;> simp [hp.emit, modLane_event hp]

theorem abortContexts_event (hp : DeviceFrame p) (l : LaneId) (s : State) :
    p (abortContexts l s) = p s := by
  unfold abortContexts
  exact forEach_frame _ (fun _ _ => by (repeat' split) <;> simp [ctxAbort_frame hp.toBlockFrame]) _ _

theorem laneAbort_event (hp : DeviceFrame p) (l : LaneId) (s : State) :
    p (laneAbort l s) = p s := by
  unfold laneAbort
  (repeat' split) <;> simp [modLane_event hp, askStatus_event hp, laneOff_event hp, cancelStaged_event hp, abortContexts_event hp]

theorem laneHaltedAbort_event (hp : DeviceFrame p) (l : LaneId) (s : State) :
    p (laneHaltedAbort l s) = p s := by
  unfold laneHaltedAbort
  (repeat' split) <;> simp [modLane_event hp]

theorem laneHalt_event (hp : DeviceFrame p) (l : LaneId) (s : State) :
    p (laneHalt l s) = p s := by
  unfold laneHalt
  simp [modLane_event hp]

theorem refuseSignal_event (hp : DeviceFrame p) (l : LaneId) (s : State) :
    p (refuseSignal l s) = p s := by
  unfold refuseSignal
  split <;> simp [modLane_event hp, askStatus_event hp]

theorem startFromOff_event (hp : DeviceFrame p) (l : LaneId) (s : State) :
    p (startFromOff l s) = p s := by
  unfold startFromOff
  simp [hp.emit, modLane_event hp]

theorem retireAtStart_event (hp : DeviceFrame p) (l : LaneId) (s : State) :
    p (retireAtStart l s) = p s := by
  unfold retireAtStart
  dsimp only
  (repeat' split) <;> simp [askStatus_event hp, handCauses_event hp, retireAll_event hp]

theorem laneStart_event (hp : DeviceFrame p) (l : LaneId) (s : State) :
    p (laneStart l s) = p s := by
  unfold laneStart
  (repeat' split) <;> simp [refuseSignal_event hp, startFromOff_event hp, retireAtStart_event hp]

theorem laneLook_event (hp : DeviceFrame p) (l : LaneId) (s : State) :
    p (laneLook l s) = p s := by
  unfold laneLook
  (repeat' split) <;> simp [reread_event hp]

theorem laneRun_event (hp : DeviceFrame p) (l : LaneId) (s : State) :
    p (laneRun l s) = p s := by
  unfold laneRun
  (repeat' split) <;> simp [issueFetch_event hp, reread_event hp]

theorem reportFinal_event (hp : DeviceFrame p) (l : LaneId) (x : CtxId) (fs : FinalState) (s : State) :
    p (reportFinal l x fs s) = p s := by
  unfold reportFinal
  simp [modLane_event hp, laneRetire_event hp]

theorem loadsOver_event (hp : DeviceFrame p) (s : State) :
    p (loadsOver s) = p s := by
  unfold loadsOver
  simp [hp.cme]

theorem probePasses_event (hp : EventFrame p) (n : Nat) (s : State) :
    p (probePasses n s) = p s := by
  unfold probePasses
  dsimp only
  simp [hp.dev, loadsOver_event hp.toDeviceFrame, hp.width, hp.toCascadeFrame.chan, forEach_frame]

theorem haltEntry_event (hp : DeviceFrame p) (cause : FaultCode) (s : State) :
    p (haltEntry cause s) = p s := by
  unfold haltEntry
  dsimp only
  simp [hp.dev, hp.lif, hp.ntu, forEach_frame, ctxHalt_frame hp.toBlockFrame, laneHalt_event hp]

theorem probeFails_event (hp : DeviceFrame p) (s : State) :
    p (probeFails s) = p s := by
  unfold probeFails
  simp [haltEntry_event hp, loadsOver_event hp]

theorem probeCheck_event (hp : EventFrame p) (s : State) :
    p (probeCheck s) = p s := by
  unfold probeCheck
  (repeat' split) <;> simp [freshStart, hp.load, probePasses_event hp, probeFails_event hp.toDeviceFrame]

theorem stoppedCheck_event (hp : DeviceFrame p) (s : State) :
    p (stoppedCheck s) = p s := by
  unfold stoppedCheck
  (repeat' split) <;> simp [hp.dev]

/-- `t` is a state with the part of `s` unchanged, or the end of a warm reset at such a state (R200). -/
def Settled (p : State → α) (s t : State) : Prop := ∃ u, p u = p s ∧ (t = u ∨ t = resetEnd u)

theorem Settled.of_eq {s t : State} (h : p t = p s) : Settled p s t := ⟨t, h, .inl rfl⟩

/-- A part that the end of a warm reset keeps is unchanged. -/
theorem Settled.eq (hr : ∀ s, p (resetEnd s) = p s) {s t : State} (h : Settled p s t) : p t = p s := by
  obtain ⟨u, hu, rfl | rfl⟩ := h
  · exact hu
  · exact (hr u).trans hu

theorem resetEndCheck_settled {s u : State} (h : p u = p s) : Settled p s (resetEndCheck u) := by
  unfold resetEndCheck
  split
  · exact ⟨u, h, .inr rfl⟩
  · exact ⟨u, h, .inl rfl⟩

theorem settleLanes_event (hp : DeviceFrame p) (s : State) :
    p (settleLanes s) = p s := by
  unfold settleLanes
  exact forEach_frame _ (fun _ _ => by (repeat' split) <;> simp [laneOff_event hp, laneHaltedOff_event hp]) _ _

theorem finishEvent_settled (hp : DeviceFrame p) {s u : State} (h : p u = p s) : Settled p s (finishEvent u) :=
  resetEndCheck_settled ((stoppedCheck_event hp _).trans ((settleLanes_event hp _).trans h))

theorem workOff_event (hp : EventFrame p) (e : Eff) : p (workOff e) = p e.1 :=
  drain_frame hp.toCascadeFrame hp.cme (probeCheck_event hp) _ _ _

theorem runEvent_settled (hp : EventFrame p) {s : State} {e : Eff} (h : p e.1 = p s) : Settled p s (runEvent e) :=
  finishEvent_settled hp.toDeviceFrame ((workOff_event hp _).trans h)

theorem resetDevice_event (hp : DeviceFrame p) (s : State) :
    p (resetDevice s) = p s := by
  exact (hp.devDar s.takeAction _ _).trans (takeAction_event hp s)

theorem resetBlocks_event (hp : EventFrame p) (s : State) :
    p (resetBlocks s).1 = p s := by
  unfold resetBlocks andThen
  dsimp only
  rw [effEach_frame _ (fun _ _ => rltReset_frame hp.toCascadeFrame _ _), patrolReset_fst,
    effEach_frame _ (fun _ _ => chanReset_frame hp.toCascadeFrame _ _)]
  refine forEach_frame _ (fun _ _ => ?_) _ _
  split <;> simp [laneHaltedAbort_event hp.toDeviceFrame, laneAbort_event hp.toDeviceFrame]

theorem warmReset_settled (hp : EventFrame p) (s : State) : Settled p s (warmReset s) := by
  unfold warmReset
  dsimp only
  with_reducible refine finishEvent_settled hp.toDeviceFrame ?_
  rw [forEach_frame _ (fun _ _ => ctxSettle_frame hp.toBlockFrame _ _), workOff_event hp, resetBlocks_event hp,
    resetDevice_event hp.toDeviceFrame]

theorem runRequested_event (hp : DeviceFrame p) (s : State) :
    p (runRequested s) = p s := by
  unfold runRequested
  dsimp only
  rw [hp.emit, hp.lif, hp.dev, takeAction_event hp]

theorem takeGrant_event (hp : DeviceFrame p) (l : LaneId) (x : CtxId) (r : Bytes) (s : State) :
    p (takeGrant l x r s) = p s := by
  unfold takeGrant
  dsimp only
  rw [issueLinkRead_event hp, modLane_event hp]
  exact (hp.dar _ _).trans ((hp.emit _ _).trans (hp.ctx _ _ _))

theorem refuseRecord_event (hp : DeviceFrame p) (x : CtxId) (st : Status) (s : State) :
    p (refuseRecord x st s) = p s := by
  unfold refuseRecord
  simp [hp.ctx, enterFinishing_frame hp.toBlockFrame]

theorem checkAccess_event (hp : DeviceFrame p) (k : OpKind) (accept : CtxId → State → Eff) (x : CtxId) (s : State) (ha : ∀ x s, p (accept x s).1 = p s) :
    p (checkAccess k accept x s).1 = p s := by
  unfold checkAccess
  dsimp only
  split <;> simp [refuseRecord_event hp, ha]

theorem loadList_event (hp : DeviceFrame p) (x : CtxId) (s : State) :
    p (loadList x s) = p s := by
  unfold loadList
  dsimp only
  simp [hp.ctx, hp.emit]

theorem checkRecord_event (hp : DeviceFrame p) (k : OpKind) (accept : CtxId → State → Eff) (x : CtxId) (s : State) (ha : ∀ x s, p (accept x s).1 = p s) :
    p (checkRecord k accept x s).1 = p s := by
  unfold checkRecord
  dsimp only
  split
  · exact refuseRecord_event hp _ _ _
  · split
    · exact loadList_event hp _ _
    · exact (checkAccess_event hp _ _ _ _ ha).trans (hp.ctx _ _ _)

theorem acceptData_event (hp : DeviceFrame p) (x : CtxId) (s : State) :
    p (acceptData x s) = p s := by
  unfold acceptData
  dsimp only
  (repeat' split) <;> simp [hp.ctx, raiseUsers_frame hp.toBlockFrame]

theorem acceptBlocks_event (hp : DeviceFrame p) (x : CtxId) (s : State) :
    p (acceptBlocks x s).1 = p s := by
  unfold acceptBlocks
  simp [acceptData_event hp]

theorem acceptRelocate_event (hp : DeviceFrame p) (x : CtxId) (s : State) :
    p (acceptRelocate x s).1 = p s := by
  unfold acceptRelocate
  dsimp only
  simp [ctxUpdate_frame hp.toBlockFrame, acceptData_event hp]

theorem acceptBarrier_event (hp : DeviceFrame p) (x : CtxId) (s : State) :
    p (acceptBarrier x s).1 = p s := by
  unfold acceptBarrier
  simp [enterFinishing_frame hp.toBlockFrame]

theorem issueChunk_event (hp : DeviceFrame p) (x : CtxId) (s : State) :
    p (issueChunk x s) = p s := by
  unfold issueChunk
  dsimp only
  simp [hp.emit, ctxUpdate_frame hp.toBlockFrame]

theorem acceptTableRead_event (hp : DeviceFrame p) (x : CtxId) (s : State) :
    p (acceptTableRead x s).1 = p s := by
  unfold acceptTableRead
  dsimp only
  simp [hp.ctx, issueChunk_event hp]

theorem acceptStartPass_event (hp : DeviceFrame p) (x : CtxId) (s : State) :
    p (acceptStartPass x s).1 = p s := by
  unfold acceptStartPass
  dsimp only
  simp [hp.ctx, enterFinishing_frame hp.toBlockFrame, startPass_frame hp.toBlockFrame]

theorem acceptStopPass_event (hp : DeviceFrame p) (x : CtxId) (s : State) :
    p (acceptStopPass x s).1 = p s := by
  unfold acceptStopPass
  dsimp only
  (repeat' split) <;> simp [hp.ctx, hp.patrol, enterFinishing_frame hp.toBlockFrame]

theorem acceptSet_event (hp : DeviceFrame p) (x : CtxId) (s : State) :
    p (acceptSet x s).1 = p s := by
  unfold acceptSet
  dsimp only
  simp [hp.ctx, patrolSet_frame hp.toBlockFrame]

theorem acceptRegionOp_event (hp : DeviceFrame p) (k : OpKind) (x : CtxId) (s : State) :
    p (acceptRegionOp k x s).1 = p s := by
  unfold acceptRegionOp
  dsimp only
  (repeat' split) <;> simp [hp.ctx, hp.region, enterFinishing_frame hp.toBlockFrame]

theorem acceptNothing_event (hp : DeviceFrame p) (x : CtxId) (s : State) :
    p (acceptNothing x s).1 = p s := by
  unfold acceptNothing
  simp [enterFinishing_frame hp.toBlockFrame]

theorem acceptListed_event (hp : DeviceFrame p) (k : OpKind) (x : CtxId) (s : State) :
    p (acceptListed k x s).1 = p s := by
  unfold acceptListed
  split <;> simp [acceptTableRead_event hp, acceptBlocks_event hp]

theorem listReadEnds_event (hp : DeviceFrame p) (x : CtxId) (read : HostResult Bytes) (s : State) :
    p (listReadEnds x read s).1 = p s := by
  unfold listReadEnds
  dsimp only
  (repeat' split) <;> simp [hp.ctx, enterFinishing_frame hp.toBlockFrame, refuseRecord_event hp, checkAccess_event hp, acceptListed_event hp]

theorem takeBlock_event (hp : DeviceFrame p) (x : CtxId) (s : State) :
    p (takeBlock x s).1 = p s := by
  unfold takeBlock
  dsimp only
  (repeat' split) <;> simp [hp.ctx, hp.emit, issueStep_frame hp.toBlockFrame, issueProgram_frame hp.toBlockFrame]

theorem hostReadEnds_event (hp : DeviceFrame p) (x : CtxId) (j : Nat) (read : HostResult Bytes) (s : State) :
    p (hostReadEnds x j read s).1 = p s := by
  unfold hostReadEnds
  dsimp only
  (repeat' split) <;> simp [hp.ctx, ctxUpdate_frame hp.toBlockFrame, issueProgram_frame hp.toBlockFrame]

theorem chunkEnds_event (hp : DeviceFrame p) (x : CtxId) (j : Nat) (error : Bool) (s : State) :
    p (chunkEnds x j error s) = p s := by
  unfold chunkEnds
  dsimp only
  (repeat' split) <;> simp [hp.ctx, ctxUpdate_frame hp.toBlockFrame, issueChunk_event hp]

theorem bufferWriteEnds_event (hp : DeviceFrame p) (x : CtxId) (j : Nat) (error : Bool) (s : State) :
    p (bufferWriteEnds x j error s) = p s := by
  unfold bufferWriteEnds
  dsimp only
  (repeat' split) <;> simp [ctxUpdate_frame hp.toBlockFrame, chunkEnds_event hp]

theorem finalWrite_event (hp : DeviceFrame p) (x : CtxId) (fs : FinalState) (part : DevicePart) (s : State) :
    p (finalWrite x fs part s) = p s := by
  unfold finalWrite
  dsimp only
  simp [hp.emit, freeContext_frame hp.toBlockFrame, reportFinal_event hp]

theorem readOver_event (hp : DeviceFrame p) (l : LaneId) (s : State) :
    p (readOver l s) = p s := by
  unfold readOver
  simp [modLane_event hp]

theorem configRead_event (hp : DeviceFrame p) (l : LaneId) (read : HostResult Bytes) (s : State) :
    p (configRead l read s) = p s := by
  unfold configRead
  dsimp only
  (repeat' split)
  · exact laneFault_event hp _ _ _ _
  · exact laneFault_event hp _ _ _ _
  · exact laneFault_event hp _ _ _ _
  · rw [issueFetch_event hp, askStatus_event hp]
    exact (hp.dar _ _).trans (modLane_event hp _ _ _)

theorem fetched_event (hp : DeviceFrame p) (l : LaneId) (a : Addr) (read : HostResult Bytes) (s : State) :
    p (fetched l a read s) = p s := by
  unfold fetched
  (repeat' split) <;> simp [modLane_event hp, park_event hp, laneFault_event hp]

theorem linkReadNonZero_event (hp : DeviceFrame p) (l : LaneId) (s : State) :
    p (linkReadNonZero l s) = p s := by
  unfold linkReadNonZero
  simp [modLane_event hp]

theorem followLink_event (hp : DeviceFrame p) (l : LaneId) (link : Addr) (s : State) :
    p (followLink l link s) = p s := by
  unfold followLink
  simp [modLane_event hp, issueFetch_event hp, laneRetire_event hp, linkReadNonZero_event hp]

theorem linkRead_event (hp : DeviceFrame p) (l : LaneId) (a : Addr) (read : HostResult Addr) (s : State) :
    p (linkRead l a read s) = p s := by
  unfold linkRead
  (repeat' split) <;> simp [park_event hp, laneRetire_event hp, laneFault_event hp, linkReadNonZero_event hp, followLink_event hp]

theorem drainedLink_event (hp : DeviceFrame p) (l : LaneId) (read : HostResult Addr) (s : State) :
    p (drainedLink l read s) = p s := by
  unfold drainedLink
  (repeat' split) <;> simp [modLane_event hp, laneRetire_event hp, linkReadNonZero_event hp]

theorem stopPoll_event (hp : DeviceFrame p) (l : LaneId) (s : State) :
    p (stopPoll l s) = p s := by
  unfold stopPoll
  simp [modLane_event hp]

theorem identified_event (hp : EventFrame p) (u : UnitId) (valid : Bool) (s : State) :
    p (identified u valid s) = p s := by
  unfold identified
  simp [hp.toCascadeFrame.chan]

theorem identifyEnds_event (hp : EventFrame p) (u : UnitId) (valid : Bool) (s : State) :
    p (identifyEnds u valid s).1 = p s := by
  unfold identifyEnds
  (repeat' split) <;> simp [identified_event hp]

theorem writeAnswered_settled (hp : EventFrame p) (cmd : StepCmd) (u : UnitId) (attempt : Nat) (answer : ProgramAnswer) (s : State) :
    Settled p s (writeAnswered cmd u attempt answer s) := by
  unfold writeAnswered
  (repeat' split) <;> first
    | ((with_reducible refine runEvent_settled hp ?_); simp [writeEnds_frame hp.toCascadeFrame])
    | ((with_reducible refine Settled.of_eq ?_); simp)

theorem identifyLost_event (hp : EventFrame p) (u : UnitId) (s : State) :
    p (identifyLost u s).1 = p s := by
  unfold identifyLost
  dsimp only
  simp [hp.toCascadeFrame.chan, postEvent_frame hp.toBlockFrame]

theorem sendAgain_event (hp : EventFrame p) (u : UnitId) (link : Nat → Tick → Link) (cmd : MediaCmd) (s : State) :
    p (sendAgain u link cmd s) = p s := by
  unfold sendAgain
  dsimp only
  simp [hp.toCascadeFrame.chan, hp.emit]

theorem attemptExpires_settled (hp : EventFrame p) (u : UnitId) (s : State) :
    Settled p s (attemptExpires u s) := by
  unfold attemptExpires
  (repeat' split) <;> first
    | ((with_reducible refine runEvent_settled hp ?_); simp [unitLoss_frame hp.toCascadeFrame, identifyLost_event hp])
    | ((with_reducible refine Settled.of_eq ?_); simp [sendAgain_event hp])

theorem paceExpires_event (hp : EventFrame p) (u : UnitId) (s : State) :
    p (paceExpires u s).1 = p s := by
  unfold paceExpires
  dsimp only
  (repeat' split) <;> simp [modPatrolUnit_frame hp.toBlockFrame, becomeReady_frame hp.toCascadeFrame]

theorem settleExpires_event (hp : EventFrame p) (u : UnitId) (s : State) :
    p (settleExpires u s).1 = p s := by
  unfold settleExpires
  dsimp only
  (repeat' split) <;> simp [modPatrolUnit_frame hp.toBlockFrame, becomeReady_frame hp.toCascadeFrame]

/-! ### The grants and the device's own commands -/

theorem grantRow_event (hp : EventFrame p) (k : OpKind) (accept : CtxId → State → Eff) (s : State)
    (ha : ∀ x s, p (accept x s).1 = p s) : p (grantRow k accept s) = p s := by
  unfold grantRow
  split
  · split
    · rw [workOff_event hp, checkRecord_event hp.toDeviceFrame _ _ _ _ ha, takeGrant_event hp.toDeviceFrame]
    · rfl
  · rfl

theorem acknowledgeRoute_event (hp : DeviceFrame p) (r : RouteId) (s : State) : p (acknowledgeRoute r s) = p s := by
  unfold acknowledgeRoute
  dsimp only
  (repeat' split) <;> simp [setRoute_frame hp.toBlockFrame, sendRoute_frame hp.toBlockFrame, holdRoute_frame hp.toBlockFrame]

theorem applyThreshold_event (hp : DeviceFrame p) (r : RouteId) (s : State) : p (applyThreshold r s) = p s := by
  unfold applyThreshold
  split <;> simp [sendRoute_frame hp.toBlockFrame]

theorem beginProbe_event (hp : EventFrame p) (s : State) : p (beginProbe s) = p s :=
  forEach_frame _ (fun _ _ => (hp.emit _ _).trans (hp.toCascadeFrame.chan _ _ _)) _ _

theorem execRun_event (hp : DeviceFrame p) (s : State) (t : State)
    (h : execRun s = .next t) : p t = p s := by
  cases h
  (repeat' split) <;> simp [refuseAction_event hp, runRequested_event hp]

theorem execStop_settled (hp : DeviceFrame p) (s : State) (t : State)
    (h : execStop s = .next t) : Settled p s t := by
  cases h
  (repeat' split) <;> first
    | ((with_reducible refine finishEvent_settled hp ?_); simp [hp.dev, takeAction_event hp])
    | ((with_reducible refine Settled.of_eq ?_); simp [hp.dev, takeAction_event hp, refuseAction_event hp])

theorem execReset_settled (hp : EventFrame p) (s : State) (t : State)
    (h : execReset s = .next t) : Settled p s t := by
  cases h
  split
  · exact warmReset_settled hp s
  · exact Settled.of_eq rfl

theorem execStart_event (hp : DeviceFrame p) (mask : BitVec 4) (s : State) (t : State)
    (h : execStart mask s = .next t) : p t = p s := by
  cases h
  split
  all_goals first | rfl | exact forEach_frame _ (fun _ _ => laneStart_event hp _ _) _ _

theorem execLook_event (hp : DeviceFrame p) (mask : BitVec 4) (s : State) (t : State)
    (h : execLook mask s = .next t) : p t = p s := by
  cases h
  split
  all_goals first | rfl | exact forEach_frame _ (fun _ _ => laneLook_event hp _ _) _ _

theorem execAbort_settled (hp : DeviceFrame p) (mask : BitVec 4) (s : State) (t : State)
    (h : execAbort mask s = .next t) : Settled p s t := by
  cases h
  split
  · with_reducible exact Settled.of_eq rfl
  · exact finishEvent_settled hp (forEach_frame _ (fun _ _ => laneAbort_event hp _ _) _ _)

theorem execAcknowledge_event (hp : DeviceFrame p) (mask : BitVec 2) (s : State) (t : State)
    (h : execAcknowledge mask s = .next t) : p t = p s := by
  cases h
  split
  all_goals first | rfl | exact forEach_frame _ (fun _ _ => acknowledgeRoute_event hp _ _) _ _

theorem execIgnoredWrite_event (_ : DeviceFrame p) (_offset _width : Nat) (_value : Word32) (s : State) (t : State)
    (h : execIgnoredWrite _offset _width _value s = .next t) : p t = p s := by
  cases h
  simp []

theorem execRead_event (hp : EventFrame p) (s : State) (t : State)
    (h : execRead s = .next t) : p t = p s := by
  cases h
  exact grantRow_event hp _ _ s fun _ _ => acceptBlocks_event hp.toDeviceFrame _ _

theorem execWrite_event (hp : EventFrame p) (s : State) (t : State)
    (h : execWrite s = .next t) : p t = p s := by
  cases h
  exact grantRow_event hp _ _ s fun _ _ => acceptBlocks_event hp.toDeviceFrame _ _

theorem execFill_event (hp : EventFrame p) (s : State) (t : State)
    (h : execFill s = .next t) : p t = p s := by
  cases h
  exact grantRow_event hp _ _ s fun _ _ => acceptBlocks_event hp.toDeviceFrame _ _

theorem execCopy_event (hp : EventFrame p) (s : State) (t : State)
    (h : execCopy s = .next t) : p t = p s := by
  cases h
  exact grantRow_event hp _ _ s fun _ _ => acceptBlocks_event hp.toDeviceFrame _ _

theorem execVerify_event (hp : EventFrame p) (s : State) (t : State)
    (h : execVerify s = .next t) : p t = p s := by
  cases h
  exact grantRow_event hp _ _ s fun _ _ => acceptBlocks_event hp.toDeviceFrame _ _

theorem execDigest_event (hp : EventFrame p) (s : State) (t : State)
    (h : execDigest s = .next t) : p t = p s := by
  cases h
  exact grantRow_event hp _ _ s fun _ _ => acceptBlocks_event hp.toDeviceFrame _ _

theorem execRelocate_event (hp : EventFrame p) (s : State) (t : State)
    (h : execRelocate s = .next t) : p t = p s := by
  cases h
  exact grantRow_event hp _ _ s fun _ _ => acceptRelocate_event hp.toDeviceFrame _ _

theorem execBarrier_event (hp : EventFrame p) (s : State) (t : State)
    (h : execBarrier s = .next t) : p t = p s := by
  cases h
  exact grantRow_event hp _ _ s fun _ _ => acceptBarrier_event hp.toDeviceFrame _ _

theorem execTableRead_event (hp : EventFrame p) (s : State) (t : State)
    (h : execTableRead s = .next t) : p t = p s := by
  cases h
  exact grantRow_event hp _ _ s fun _ _ => acceptTableRead_event hp.toDeviceFrame _ _

theorem execStartPass_event (hp : EventFrame p) (s : State) (t : State)
    (h : execStartPass s = .next t) : p t = p s := by
  cases h
  exact grantRow_event hp _ _ s fun _ _ => acceptStartPass_event hp.toDeviceFrame _ _

theorem execStopPass_event (hp : EventFrame p) (s : State) (t : State)
    (h : execStopPass s = .next t) : p t = p s := by
  cases h
  exact grantRow_event hp _ _ s fun _ _ => acceptStopPass_event hp.toDeviceFrame _ _

theorem execSetPatrol_event (hp : EventFrame p) (s : State) (t : State)
    (h : execSetPatrol s = .next t) : p t = p s := by
  cases h
  exact grantRow_event hp _ _ s fun _ _ => acceptSet_event hp.toDeviceFrame _ _

theorem execRegionDefine_event (hp : EventFrame p) (s : State) (t : State)
    (h : execRegionDefine s = .next t) : p t = p s := by
  cases h
  exact grantRow_event hp _ _ s fun _ _ => acceptRegionOp_event hp.toDeviceFrame _ _ _

theorem execRegionDelete_event (hp : EventFrame p) (s : State) (t : State)
    (h : execRegionDelete s = .next t) : p t = p s := by
  cases h
  exact grantRow_event hp _ _ s fun _ _ => acceptRegionOp_event hp.toDeviceFrame _ _ _

theorem execRegionGuard_event (hp : EventFrame p) (s : State) (t : State)
    (h : execRegionGuard s = .next t) : p t = p s := by
  cases h
  exact grantRow_event hp _ _ s fun _ _ => acceptRegionOp_event hp.toDeviceFrame _ _ _

theorem execRegionRelease_event (hp : EventFrame p) (s : State) (t : State)
    (h : execRegionRelease s = .next t) : p t = p s := by
  cases h
  exact grantRow_event hp _ _ s fun _ _ => acceptRegionOp_event hp.toDeviceFrame _ _ _

theorem execRegionFix_event (hp : EventFrame p) (s : State) (t : State)
    (h : execRegionFix s = .next t) : p t = p s := by
  cases h
  exact grantRow_event hp _ _ s fun _ _ => acceptRegionOp_event hp.toDeviceFrame _ _ _

theorem execBadOp_event (hp : EventFrame p) (s : State) (t : State)
    (h : execBadOp s = .next t) : p t = p s := by
  cases h
  exact grantRow_event hp _ _ s fun _ _ => acceptNothing_event hp.toDeviceFrame _ _

theorem execListReadEnd_event (hp : EventFrame p) (x : CtxId) (epoch : Nat) (read : HostResult Bytes) (s : State) (t : State)
    (h : execListReadEnd x read s epoch = .next t) : p t = p s := by
  cases h
  (repeat' split) <;> simp [workOff_event hp, listReadEnds_event hp.toDeviceFrame]

theorem execTakeBlock_settled (hp : EventFrame p) (x : CtxId) (s : State) (t : State)
    (h : execTakeBlock x s = .next t) : Settled p s t := by
  cases h
  (repeat' split) <;> first
    | ((with_reducible refine runEvent_settled hp ?_); simp [ctxSettle_frame hp.toBlockFrame, takeBlock_event hp.toDeviceFrame])
    | ((with_reducible refine Settled.of_eq ?_); simp)

theorem execHostReadEnd_settled (hp : EventFrame p) (x : CtxId) (j : Nat) (epoch : Nat) (read : HostResult Bytes) (s : State) (t : State)
    (h : execHostReadEnd x j read s epoch = .next t) : Settled p s t := by
  cases h
  (repeat' split) <;> first
    | ((with_reducible refine runEvent_settled hp ?_); simp [hostReadEnds_event hp.toDeviceFrame])
    | ((with_reducible refine Settled.of_eq ?_); simp)

theorem execBufferWriteEnd_event (hp : DeviceFrame p) (x : CtxId) (j : Nat) (epoch : Nat) (error : Bool) (s : State) (t : State)
    (h : execBufferWriteEnd x j error s epoch = .next t) : p t = p s := by
  cases h
  (repeat' split) <;> simp [bufferWriteEnds_event hp]

theorem execFinalWrite_settled (hp : DeviceFrame p) (x : CtxId) (s : State) (t : State)
    (h : execFinalWrite x s = .next t) : Settled p s t := by
  cases h
  (repeat' split) <;> first
    | ((with_reducible refine finishEvent_settled hp ?_); simp [finalWrite_event hp])
    | ((with_reducible refine Settled.of_eq ?_); simp)

theorem execResultError_settled (hp : DeviceFrame p) (epoch : Nat) (s : State) (t : State)
    (h : execResultError s epoch = .next t) : Settled p s t := by
  cases h
  (repeat' split) <;> first
    | ((with_reducible refine finishEvent_settled hp ?_); simp [haltEntry_event hp])
    | ((with_reducible refine Settled.of_eq ?_); simp)

theorem execConfigReadEnd_settled (hp : DeviceFrame p) (l : LaneId) (epoch : Nat) (read : HostResult Bytes) (s : State) (t : State)
    (h : execConfigReadEnd l read s epoch = .next t) : Settled p s t := by
  cases h
  (repeat' split) <;> first
    | ((with_reducible refine finishEvent_settled hp ?_); simp [readOver_event hp, configRead_event hp])
    | ((with_reducible refine Settled.of_eq ?_); simp)

theorem execFetchEnd_settled (hp : DeviceFrame p) (l : LaneId) (epoch : Nat) (read : HostResult Bytes) (s : State) (t : State)
    (h : execFetchEnd l read s epoch = .next t) : Settled p s t := by
  cases h
  (repeat' split) <;> first
    | ((with_reducible refine finishEvent_settled hp ?_); simp [modLane_event hp, readOver_event hp, fetched_event hp])
    | ((with_reducible refine Settled.of_eq ?_); simp)

theorem execLinkReadEnd_settled (hp : DeviceFrame p) (l : LaneId) (epoch : Nat) (read : HostResult Addr) (s : State) (t : State)
    (h : execLinkReadEnd l read s epoch = .next t) : Settled p s t := by
  cases h
  (repeat' split) <;> first
    | ((with_reducible refine finishEvent_settled hp ?_); simp [readOver_event hp, linkRead_event hp, drainedLink_event hp])
    | ((with_reducible refine Settled.of_eq ?_); simp)

theorem execPollExpiry_event (hp : DeviceFrame p) (l : LaneId) (s : State) (t : State)
    (h : execPollExpiry l s = .next t) : p t = p s := by
  cases h
  (repeat' split) <;> simp [reread_event hp, stopPoll_event hp]

theorem execIdentifyAnswer_settled (hp : EventFrame p) (u : UnitId) (attempt : Nat) (answer : IdentityAnswer) (s : State) (t : State)
    (h : execIdentifyAnswer u attempt answer s = .next t) : Settled p s t := by
  cases h
  (repeat' split) <;> first
    | ((with_reducible refine runEvent_settled hp ?_); simp [identifyEnds_event hp])
    | ((with_reducible refine Settled.of_eq ?_); simp)

theorem execReadAnswer_settled (hp : EventFrame p) (u : UnitId) (attempt : Nat) (answer : ReadAnswer) (s : State) (t : State)
    (h : execReadAnswer u attempt answer s = .next t) : Settled p s t := by
  cases h
  (repeat' split) <;> first
    | ((with_reducible refine runEvent_settled hp ?_); simp [readEnds_frame hp.toCascadeFrame])
    | ((with_reducible refine Settled.of_eq ?_); simp)

theorem execProgramAnswer_settled (hp : EventFrame p) (u : UnitId) (attempt : Nat) (answer : ProgramAnswer) (s : State) (t : State)
    (h : execProgramAnswer u attempt answer s = .next t) : Settled p s t := by
  cases h
  exact writeAnswered_settled hp _ _ _ _ _

theorem execClearAnswer_settled (hp : EventFrame p) (u : UnitId) (attempt : Nat) (answer : ProgramAnswer) (s : State) (t : State)
    (h : execClearAnswer u attempt answer s = .next t) : Settled p s t := by
  cases h
  exact writeAnswered_settled hp _ _ _ _ _

theorem execNoResponse_settled (hp : EventFrame p) (u : UnitId) (attempt : Nat) (s : State) (t : State)
    (h : execNoResponse u attempt s = .next t) : Settled p s t := by
  cases h
  split
  · exact attemptExpires_settled hp _ _
  · exact Settled.of_eq rfl

theorem execPaceExpiry_event (hp : EventFrame p) (u : UnitId) (s : State) (t : State)
    (h : execPaceExpiry u s = .next t) : p t = p s := by
  cases h
  (repeat' split) <;> simp [workOff_event hp, paceExpires_event hp]

theorem execSettleExpiry_event (hp : EventFrame p) (u : UnitId) (s : State) (t : State)
    (h : execSettleExpiry u s = .next t) : p t = p s := by
  cases h
  (repeat' split) <;> simp [workOff_event hp, settleExpires_event hp]

theorem execDeviceAreaWrite_event (hp : DeviceFrame p) (s : State) (t : State)
    (h : execDeviceAreaWrite s = .next t) : p t = p s := by
  cases h
  (repeat' split) <;> simp [hp.ntu, hp.emit]

theorem execDeviceAreaError_settled (hp : DeviceFrame p) (epoch : Nat) (s : State) (t : State)
    (h : execDeviceAreaError s epoch = .next t) : Settled p s t := by
  cases h
  (repeat' split) <;> first
    | ((with_reducible refine finishEvent_settled hp ?_); simp [haltEntry_event hp])
    | ((with_reducible refine Settled.of_eq ?_); simp)

theorem execHoldExpiry_event (hp : DeviceFrame p) (r : RouteId) (s : State) (t : State)
    (h : execHoldExpiry r s = .next t) : p t = p s := by
  cases h
  (repeat' split) <;> simp [sendRoute_frame hp.toBlockFrame]

theorem execControlRefused_event (hp : DeviceFrame p) (_bits : BitVec 3) (s : State) (t : State)
    (h : execControlRefused _bits s = .next t) : p t = p s := by
  cases h
  simp [refuseAction_event hp]

theorem execDeviceAreaWriteCompleted_settled (hp : DeviceFrame p) (epoch : Nat) (s : State) (t : State)
    (h : execDeviceAreaWriteCompleted s epoch = .next t) : Settled p s t := by
  cases h
  (repeat' split) <;> first
    | ((with_reducible refine resetEndCheck_settled ?_); simp [hp.ntu])
    | ((with_reducible refine Settled.of_eq ?_); simp)

theorem execResetInputRelease_event (hp : EventFrame p) (s : State) (t : State)
    (h : execResetInputRelease s = .next t) : p t = p s := by
  cases h
  (repeat' split) <;> simp [hp.dev, beginProbe_event hp]

/-- The commands that may write the settings, the anchor, the lockdown flag, or everything. `exec_event` frames the
others. -/
def writesDevice : Instr → Bool
  | .coldReset _ | .runTaken _ _ | .anchorHi _ | .anchorLo _ | .lockdown => true
  | _ => false

/-- The commands but those of `writesDevice` leave the part unchanged, up to the end of a warm reset. -/
theorem exec_event (hp : EventFrame p) (c : Instr) (s t : State)
    (hw : writesDevice c = false) (h : exec c s = .next t) : Settled p s t := by
  cases c
  case run => exact .of_eq (execRun_event hp.toDeviceFrame _ _ h)
  case stop => exact execStop_settled hp.toDeviceFrame _ _ h
  case reset => exact execReset_settled hp _ _ h
  case start => exact .of_eq (execStart_event hp.toDeviceFrame _ _ _ h)
  case look => exact .of_eq (execLook_event hp.toDeviceFrame _ _ _ h)
  case abort => exact execAbort_settled hp.toDeviceFrame _ _ _ h
  case acknowledge => exact .of_eq (execAcknowledge_event hp.toDeviceFrame _ _ _ h)
  case ignoredWrite o w v => exact .of_eq (execIgnoredWrite_event hp.toDeviceFrame o w v _ _ h)
  case read => exact .of_eq (execRead_event hp _ _ h)
  case write => exact .of_eq (execWrite_event hp _ _ h)
  case fill => exact .of_eq (execFill_event hp _ _ h)
  case copy => exact .of_eq (execCopy_event hp _ _ h)
  case verify => exact .of_eq (execVerify_event hp _ _ h)
  case digest => exact .of_eq (execDigest_event hp _ _ h)
  case relocate => exact .of_eq (execRelocate_event hp _ _ h)
  case barrier => exact .of_eq (execBarrier_event hp _ _ h)
  case tableRead => exact .of_eq (execTableRead_event hp _ _ h)
  case startPass => exact .of_eq (execStartPass_event hp _ _ h)
  case stopPass => exact .of_eq (execStopPass_event hp _ _ h)
  case setPatrol => exact .of_eq (execSetPatrol_event hp _ _ h)
  case regionDefine => exact .of_eq (execRegionDefine_event hp _ _ h)
  case regionDelete => exact .of_eq (execRegionDelete_event hp _ _ h)
  case regionGuard => exact .of_eq (execRegionGuard_event hp _ _ h)
  case regionRelease => exact .of_eq (execRegionRelease_event hp _ _ h)
  case regionFix => exact .of_eq (execRegionFix_event hp _ _ h)
  case badOp => exact .of_eq (execBadOp_event hp _ _ h)
  case listReadEnd => exact .of_eq (execListReadEnd_event hp _ _ _ _ _ h)
  case takeBlock => exact execTakeBlock_settled hp _ _ _ h
  case hostReadEnd => exact execHostReadEnd_settled hp _ _ _ _ _ _ h
  case bufferWriteEnd => exact .of_eq (execBufferWriteEnd_event hp.toDeviceFrame _ _ _ _ _ _ h)
  case finalWrite => exact execFinalWrite_settled hp.toDeviceFrame _ _ _ h
  case resultError => exact execResultError_settled hp.toDeviceFrame _ _ _ h
  case configReadEnd => exact execConfigReadEnd_settled hp.toDeviceFrame _ _ _ _ _ h
  case fetchEnd => exact execFetchEnd_settled hp.toDeviceFrame _ _ _ _ _ h
  case linkReadEnd => exact execLinkReadEnd_settled hp.toDeviceFrame _ _ _ _ _ h
  case pollExpiry => exact .of_eq (execPollExpiry_event hp.toDeviceFrame _ _ _ h)
  case identifyAnswer => exact execIdentifyAnswer_settled hp _ _ _ _ _ h
  case readAnswer => exact execReadAnswer_settled hp _ _ _ _ _ h
  case programAnswer => exact execProgramAnswer_settled hp _ _ _ _ _ h
  case clearAnswer => exact execClearAnswer_settled hp _ _ _ _ _ h
  case noResponse => exact execNoResponse_settled hp _ _ _ _ h
  case paceExpiry => exact .of_eq (execPaceExpiry_event hp _ _ _ h)
  case settleExpiry => exact .of_eq (execSettleExpiry_event hp _ _ _ h)
  case deviceAreaWrite => exact .of_eq (execDeviceAreaWrite_event hp.toDeviceFrame _ _ h)
  case deviceAreaError => exact execDeviceAreaError_settled hp.toDeviceFrame _ _ _ h
  case holdExpiry => exact .of_eq (execHoldExpiry_event hp.toDeviceFrame _ _ _ h)
  case controlRefused b => exact .of_eq (execControlRefused_event hp.toDeviceFrame b _ _ h)
  case deviceAreaWriteCompleted => exact execDeviceAreaWriteCompleted_settled hp.toDeviceFrame _ _ _ h
  case resetInputRelease => exact .of_eq (execResetInputRelease_event hp _ _ h)
  all_goals exact Bool.noConfusion hw

end Sys2Proof.Machine
end

