-- ==== Sys2Proof/Laws/Notify.lean ====
section
/-! SUPPORT. What the operations on routes and on the write list do: the route and the requests each leaves, in one lemma
each. -/

namespace Sys2Proof.Machine

theorem setRoute_route (s : State) (r q : RouteId) (v : Route) :
    (s.setRoute r v).route q = if q = r then v else s.route q := by
  cases r <;> cases q <;> simp [State.setRoute, State.route]

theorem setRoute_writes (s : State) (r : RouteId) (v : Route) : (s.setRoute r v).ntu.writes = s.ntu.writes := by
  cases r <;> rfl

theorem askMessage_route (r q : RouteId) (s : State) : (askMessage r s).route q = s.route q := by
  unfold askMessage; split <;> cases q <;> rfl

/-- The requests after a message is asked for: it stands last and once, or nothing is placed (R178, R180, R185). -/
theorem askMessage_writes (r : RouteId) (s : State) :
    (askMessage r s).ntu.writes
      = if s.anchor = 0 ∨ s.halted = true ∨ s.messagesEnabled = false then s.ntu.writes else placeMessage r s.ntu.writes := by
  unfold askMessage; split <;> rfl

theorem sendRoute_route (r q : RouteId) (s : State) :
    (sendRoute r s).route q = if q = r then (s.route r).signalled else s.route q := by
  rw [sendRoute, askMessage_route, setRoute_route]

theorem sendRoute_writes (r : RouteId) (s : State) :
    (sendRoute r s).ntu.writes
      = if s.anchor = 0 ∨ s.halted = true ∨ s.messagesEnabled = false then s.ntu.writes else placeMessage r s.ntu.writes := by
  rw [sendRoute, askMessage_writes]
  cases r <;> rfl

/-- A route's acknowledgement leaves the other route (R186). -/
theorem acknowledgeRoute_other (r q : RouteId) (s : State) (h : q ≠ r) : (acknowledgeRoute r s).route q = s.route q := by
  unfold acknowledgeRoute holdRoute
  dsimp only
  split <;> (try rfl)
  split
  · split <;> simp [sendRoute_route, setRoute_route, h]
  · simp [setRoute_route, h]

/-- A route after its acknowledgement (R186). -/
theorem acknowledgeRoute_self (r : RouteId) (s : State) :
    (acknowledgeRoute r s).route r =
      if (s.route r).state ≠ .signalled then s.route r
      else if (s.route r).more = false then { s.route r with state := .idle, count := 0 }
      else if (s.routeCfg r).hold = 0 ∨ (s.routeCfg r).threshold ≤ (s.route r).count then
        { s.route r with state := .signalled, count := 0, more := false, timer := none }
      else { s.route r with
        state := .holding, more := false, timer := some (s.tick + BitVec.ofNat 64 (s.routeCfg r).hold) } := by
  unfold acknowledgeRoute holdRoute
  dsimp only
  split
  · next h => simp [h]
  · next h => simp [h]
  · next h =>
    simp only [h, ne_eq, not_true_eq_false, if_false]
    cases hm : (s.route r).more
    · simp [setRoute_route]
    · simp only [if_true, Bool.true_eq_false, if_false]
      split <;> simp [sendRoute_route, setRoute_route, Route.signalled]

/-! ### Only the notification unit changes -/

/-- `t` is `s` but for its notification unit. -/
def NtuOnly (s t : State) : Prop := ∃ n, t = s.setNtu n

theorem NtuOnly.refl (s : State) : NtuOnly s s := ⟨s.ntu, rfl⟩

theorem NtuOnly.set (s : State) (n : Ntu) : NtuOnly s (s.setNtu n) := ⟨n, rfl⟩

theorem NtuOnly.trans {s t u : State} (h : NtuOnly s t) (g : NtuOnly t u) : NtuOnly s u := by
  obtain ⟨n, rfl⟩ := h
  obtain ⟨m, rfl⟩ := g
  exact ⟨m, rfl⟩

theorem NtuOnly.each {β : Type} {f : β → State → State} (hf : ∀ a t, NtuOnly t (f a t)) (xs : List β) (s : State) :
    NtuOnly s (forEach xs f s) := by
  induction xs generalizing s with
  | nil => exact .refl s
  | cons a xs ih => exact (hf a s).trans (ih (f a s))

theorem askWrite_ntuOnly (t : WriteTarget) (content : Bytes) (s : State) : NtuOnly s (askWrite t content s) := by
  unfold askWrite; split
  · exact .refl s
  · exact .set s _

theorem setRoute_ntuOnly (s : State) (r : RouteId) (v : Route) : NtuOnly s (s.setRoute r v) := by
  cases r <;> exact .set s _

theorem askMessage_ntuOnly (r : RouteId) (s : State) : NtuOnly s (askMessage r s) := by
  unfold askMessage; split
  · exact .refl s
  · exact .set s _

theorem sendRoute_ntuOnly (r : RouteId) (s : State) : NtuOnly s (sendRoute r s) :=
  (setRoute_ntuOnly s r _).trans (askMessage_ntuOnly r _)

theorem takeCause_ntuOnly (r : RouteId) (s : State) : NtuOnly s (takeCause r s) := by
  unfold takeCause holdRoute
  dsimp only
  (repeat' split) <;> first | exact sendRoute_ntuOnly r s | exact setRoute_ntuOnly s r _

theorem routeCause_ntuOnly (sel : RouteSel) (s : State) : NtuOnly s (routeCause sel s) := by
  unfold routeCause
  (repeat' split) <;> first | exact .refl s | exact takeCause_ntuOnly _ s

theorem acknowledgeRoute_ntuOnly (r : RouteId) (s : State) : NtuOnly s (acknowledgeRoute r s) := by
  unfold acknowledgeRoute holdRoute
  dsimp only
  (repeat' split) <;>
    first
      | exact .refl s
      | exact setRoute_ntuOnly s r _
      | exact (setRoute_ntuOnly s r _).trans (sendRoute_ntuOnly r _)

theorem applyThreshold_ntuOnly (r : RouteId) (s : State) : NtuOnly s (applyThreshold r s) := by
  unfold applyThreshold; split
  · exact sendRoute_ntuOnly r s
  · exact .refl s

theorem postEvent_ntuOnly (k : EventKind) (o : Occurrence) (s : State) : NtuOnly s (postEvent k o s) :=
  ((NtuOnly.set s _).trans (askWrite_ntuOnly _ _ _)).trans (routeCause_ntuOnly _ _)

end Sys2Proof.Machine
end

