-- ==== Sys2Proof/Laws/Lanes.lean ====
section
/-! SUPPORT. What the operations on a lane do to the lanes, and what they leave: a lane's operation changes that lane, the
notification unit and the links alone, and the tests an event ends with change no lane that is not DRAINING. -/

namespace Sys2Proof.Machine

/-! ### Lanes, notification unit and links alone -/

/-- `t` is `s` but for lanes, notification unit and links. -/
def LanesOnly (s t : State) : Prop := ∃ ls n o, t = { s with lanes := ls, ntu := n, out := o }

theorem LanesOnly.refl (s : State) : LanesOnly s s := ⟨s.lanes, s.ntu, s.out, rfl⟩

theorem LanesOnly.trans {s t u : State} (h : LanesOnly s t) (g : LanesOnly t u) : LanesOnly s u := by
  obtain ⟨a, b, c, rfl⟩ := h
  obtain ⟨d, e, f, rfl⟩ := g
  exact ⟨d, e, f, rfl⟩

theorem LanesOnly.each {β : Type} {f : β → State → State} (hf : ∀ a t, LanesOnly t (f a t)) (xs : List β) (s : State) :
    LanesOnly s (forEach xs f s) := by
  induction xs generalizing s with
  | nil => exact .refl s
  | cons a xs ih => exact (hf a s).trans (ih (f a s))

theorem NtuOnly.lanesOnly {s t : State} (h : NtuOnly s t) : LanesOnly s t := by
  obtain ⟨n, rfl⟩ := h
  exact ⟨s.lanes, n, s.out, rfl⟩

theorem modLane_lanesOnly (l : LaneId) (f : Lane → Lane) (s : State) : LanesOnly s (modLane l f s) :=
  ⟨_, s.ntu, s.out, rfl⟩

theorem emit_lanesOnly (s : State) (os : List Output) : LanesOnly s (s.emit os) := ⟨s.lanes, s.ntu, _, rfl⟩

theorem askStatus_lanesOnly (l : LaneId) (s : State) : LanesOnly s (askStatus l s) := by
  unfold askStatus
  dsimp only
  split
  · exact .refl s
  · exact (modLane_lanesOnly l _ s).trans (askWrite_ntuOnly _ _ _).lanesOnly

theorem handCauses_ntuOnly (l : LaneId) (run : List WinRec) (s : State) : NtuOnly s (handCauses l run s) :=
  NtuOnly.each (fun _ t => routeCause_ntuOnly _ t) _ _

theorem issueFetch_lanesOnly (l : LaneId) (s : State) : LanesOnly s (issueFetch l s) := by
  unfold issueFetch
  split
  · split
    · exact (modLane_lanesOnly l _ s).trans (emit_lanesOnly _ _)
    · exact .refl s
  · exact .refl s

theorem issueLinkRead_lanesOnly (l : LaneId) (a : Addr) (s : State) : LanesOnly s (issueLinkRead l a s) :=
  (modLane_lanesOnly l _ s).trans (emit_lanesOnly _ _)

theorem reread_lanesOnly (l : LaneId) (s : State) : LanesOnly s (reread l s) := by
  unfold reread
  (repeat' split) <;>
    first
      | exact .refl s
      | exact issueLinkRead_lanesOnly l _ s
      | exact (modLane_lanesOnly l _ s).trans (issueFetch_lanesOnly l _)

theorem park_lanesOnly (l : LaneId) (st : LaneState) (s : State) : LanesOnly s (park l st s) :=
  (modLane_lanesOnly l _ s).trans (askStatus_lanesOnly l _)

theorem laneRetire_lanesOnly (l : LaneId) (s : State) : LanesOnly s (laneRetire l s) := by
  unfold laneRetire
  dsimp only
  split
  · exact .refl s
  · exact ((modLane_lanesOnly l _ s).trans (askStatus_lanesOnly l _)).trans (handCauses_ntuOnly l _ _).lanesOnly

theorem laneOff_lanesOnly (l : LaneId) (s : State) : LanesOnly s (laneOff l s) := by
  unfold laneOff
  dsimp only
  split
  · exact ((modLane_lanesOnly l _ s).trans ((modLane_lanesOnly l _ _).trans (askStatus_lanesOnly l _))).trans
      (handCauses_ntuOnly l _ _).lanesOnly
  · exact .refl s

theorem laneHaltedOff_lanesOnly (l : LaneId) (s : State) : LanesOnly s (laneHaltedOff l s) := by
  unfold laneHaltedOff
  dsimp only
  split
  · exact modLane_lanesOnly l _ s
  · exact .refl s

theorem laneFault_lanesOnly (l : LaneId) (code : LaneFault) (a : Addr) (s : State) : LanesOnly s (laneFault l code a s) :=
  ((modLane_lanesOnly l _ s).trans (askStatus_lanesOnly l _)).trans (postEvent_ntuOnly _ _ _).lanesOnly

theorem refuseSignal_lanesOnly (l : LaneId) (s : State) : LanesOnly s (refuseSignal l s) := by
  unfold refuseSignal
  split
  · exact (modLane_lanesOnly l _ s).trans (askStatus_lanesOnly l _)
  · exact .refl s

theorem startFromOff_lanesOnly (l : LaneId) (s : State) : LanesOnly s (startFromOff l s) :=
  (modLane_lanesOnly l _ s).trans (emit_lanesOnly _ _)

theorem retireAtStart_lanesOnly (l : LaneId) (s : State) : LanesOnly s (retireAtStart l s) := by
  unfold retireAtStart
  dsimp only
  split
  · exact .refl s
  · exact ((modLane_lanesOnly l _ s).trans (askStatus_lanesOnly l _)).trans (handCauses_ntuOnly l _ _).lanesOnly

theorem laneStart_lanesOnly (l : LaneId) (s : State) : LanesOnly s (laneStart l s) := by
  unfold laneStart
  (repeat' split) <;>
    first
      | exact startFromOff_lanesOnly l s
      | exact (retireAtStart_lanesOnly l s).trans (startFromOff_lanesOnly l _)
      | exact refuseSignal_lanesOnly l s

theorem laneLook_lanesOnly (l : LaneId) (s : State) : LanesOnly s (laneLook l s) := by
  unfold laneLook
  split
  · exact reread_lanesOnly l s
  · exact .refl s

theorem laneRun_lanesOnly (l : LaneId) (s : State) : LanesOnly s (laneRun l s) := by
  unfold laneRun
  (repeat' split) <;> first | exact issueFetch_lanesOnly l s | exact reread_lanesOnly l s | exact .refl s

theorem settleLanes_lanesOnly (s : State) : LanesOnly s (settleLanes s) :=
  LanesOnly.each
    (fun l t => by
      (repeat' split) <;> first | exact laneHaltedOff_lanesOnly l t | exact .refl t | exact laneOff_lanesOnly l t) four s

/-! ### The lanes -/

theorem modLane_lane (l k : LaneId) (f : Lane → Lane) (s : State) :
    (modLane l f s).lane k = if k = l then f (s.lane l) else s.lane k := by
  unfold modLane
  split
  · next h => subst h; exact lane_setLane_same s k _
  · next h => exact lane_setLane_other s l k _ h

theorem NtuOnly.lane {s t : State} (h : NtuOnly s t) (k : LaneId) : t.lane k = s.lane k := by
  obtain ⟨n, rfl⟩ := h
  rfl

/-- Asking for the status entry notes the entry asked for and changes no other part of a lane (R169). -/
theorem askStatus_lane (l k : LaneId) (s : State) :
    (askStatus l s).lane k = if k = l then { s.lane l with lastStatus := some (s.lane l).status } else s.lane k := by
  unfold askStatus
  dsimp only
  split
  · next h =>
    split
    · next hk => subst hk; rw [← h]
    · rfl
  · rw [(askWrite_ntuOnly _ _ _).lane, modLane_lane]

theorem issueLinkRead_lane (l k : LaneId) (a : Addr) (s : State) :
    (issueLinkRead l a s).lane k
      = if k = l then { s.lane l with state := .seeking, reading := some (.link a), poll := none } else s.lane k := by
  rw [issueLinkRead, emit_lane, modLane_lane]

/-- The fetch unit's own fetch: only a SEEKING lane with a fetch target and no read in flight of a RUNNING device reads
(R161). -/
theorem issueFetch_lane (l k : LaneId) (s : State) :
    (issueFetch l s).lane k = if k = l ∧ (s.lane l).state = .seeking ∧ (s.lane l).reading = none ∧ s.dev.state = .running
      then { s.lane l with reading := (s.lane l).target.map LaneRead.fetch } else s.lane k := by
  unfold issueFetch
  split
  · next a h1 h2 h3 =>
    rw [h1, h2, h3]
    split
    · next h4 => rw [emit_lane, modLane_lane]; by_cases hk : k = l <;> simp [hk, h4]
    · next h4 => simp [h4]
  · next h =>
    split
    · next g =>
      obtain ⟨rfl, g1, g2, g3⟩ := g
      cases ht : (s.lane k).target with
      | none => rw [Option.map_none, ← g2]
      | some a => exact absurd g2 (h a g1 ht)
    · rfl

/-- The retirement of a lane changes that lane's window, retire sequence and noted entry (R169). -/
theorem laneRetire_lane_other (l k : LaneId) (s : State) (h : k ≠ l) : (laneRetire l s).lane k = s.lane k := by
  unfold laneRetire
  dsimp only
  split
  · rfl
  · rw [(handCauses_ntuOnly _ _ _).lane, askStatus_lane, if_neg h, modLane_lane, if_neg h]

/-- The retired run leaves the window and gives the retire seq (R169). -/
theorem laneRetire_lane (l : LaneId) (s : State) :
    ((laneRetire l s).lane l).window = (s.lane l).window.drop (s.lane l).retirable.length
      ∧ ((laneRetire l s).lane l).retireSeq = lastSeq (s.lane l).retireSeq (s.lane l).retirable
      ∧ (laneRetire l s).lane l = { s.lane l with
        window := ((laneRetire l s).lane l).window
        retireSeq := ((laneRetire l s).lane l).retireSeq
        lastStatus := ((laneRetire l s).lane l).lastStatus } := by
  unfold laneRetire
  dsimp only
  split
  · next h => rw [List.isEmpty_iff.mp h]; exact ⟨rfl, rfl, rfl⟩
  · rw [(handCauses_ntuOnly _ _ _).lane, askStatus_lane, if_pos rfl, modLane_lane, if_pos rfl]
    exact ⟨rfl, rfl, rfl⟩

theorem laneOff_lane_other (l k : LaneId) (s : State) (h : k ≠ l) : (laneOff l s).lane k = s.lane k := by
  unfold laneOff
  dsimp only
  split
  · rw [(handCauses_ntuOnly _ _ _).lane, askStatus_lane, if_neg h, modLane_lane, if_neg h, retireAll, modLane_lane, if_neg h]
  · rfl

theorem laneHaltedOff_lane_other (l k : LaneId) (s : State) (h : k ≠ l) : (laneHaltedOff l s).lane k = s.lane k := by
  unfold laneHaltedOff
  dsimp only
  split
  · rw [modLane_lane, if_neg h]
  · rfl

/-- A lane after the tests an event ends with: one that was not DRAINING is unchanged, a DRAINING one is DRAINING or OFF
with its configuration, fault record, reads and counts kept (R174). -/
structure LaneSettled (k n : Lane) : Prop where
  kept : k.state ≠ .draining → n = k
  drained : k.state = .draining → n.state = .draining ∨ n.state = .off
  cfg : n.cfg = k.cfg
  reading : n.reading = k.reading
  staged : n.staged = k.staged
  fault : n.fault = k.fault
  faultAddr : n.faultAddr = k.faultAddr
  poll : n.poll = k.poll
  expSeq : n.expSeq = k.expSeq
  refused : n.refused = k.refused
  target : n.target = k.target ∨ n.target = none

theorem LaneSettled.refl (k : Lane) : LaneSettled k k :=
  ⟨fun _ => rfl, .inl, rfl, rfl, rfl, rfl, rfl, rfl, rfl, rfl, .inl rfl⟩

theorem laneOff_lane (l k : LaneId) (s : State) : LaneSettled (s.lane k) ((laneOff l s).lane k) := by
  by_cases hk : k = l
  · subst hk
    unfold laneOff
    dsimp only
    split
    · next h =>
      rw [(handCauses_ntuOnly _ _ _).lane, askStatus_lane, if_pos rfl, modLane_lane, if_pos rfl, retireAll, modLane_lane, if_pos rfl]
      exact ⟨fun g => absurd h.1 g, fun _ => .inr rfl, rfl, rfl, rfl, rfl, rfl, rfl, rfl, rfl, .inr rfl⟩
    · exact .refl _
  · rw [laneOff_lane_other _ _ _ hk]; exact .refl _

theorem laneHaltedOff_lane (l k : LaneId) (s : State) : LaneSettled (s.lane k) ((laneHaltedOff l s).lane k) := by
  by_cases hk : k = l
  · subst hk
    unfold laneHaltedOff
    dsimp only
    split
    · next h =>
      rw [modLane_lane, if_pos rfl]
      exact ⟨fun g => absurd h.1 g, fun _ => .inr rfl, rfl, rfl, rfl, rfl, rfl, rfl, rfl, rfl, .inr rfl⟩
    · exact .refl _
  · rw [laneHaltedOff_lane_other _ _ _ hk]; exact .refl _

theorem LaneSettled.trans {k n m : Lane} (h : LaneSettled k n) (g : LaneSettled n m) : LaneSettled k m := by
  refine ⟨fun hk => ?_, fun hk => ?_, g.cfg.trans h.cfg, g.reading.trans h.reading, g.staged.trans h.staged,
    g.fault.trans h.fault, g.faultAddr.trans h.faultAddr, g.poll.trans h.poll, g.expSeq.trans h.expSeq,
    g.refused.trans h.refused, ?_⟩
  · have := h.kept hk
    subst this
    exact g.kept hk
  · rcases h.drained hk with hd | ho
    · exact g.drained hd
    · have := g.kept (by rw [ho]; decide)
      rw [this]
      exact .inr ho
  · rcases g.target with hg | hg
    · rw [hg]; exact h.target
    · exact .inr hg

theorem settleLanes_lane (k : LaneId) (s : State) : LaneSettled (s.lane k) ((settleLanes s).lane k) := by
  suffices h : ∀ xs : List LaneId, ∀ t : State, LaneSettled (t.lane k)
      ((forEach xs
        (fun l u => if u.halted then (if u.dev.resetInProgress then laneHaltedOff l u else u) else laneOff l u) t).lane k) from
    h four s
  intro xs
  induction xs with
  | nil => exact fun t => .refl _
  | cons l xs ih =>
    intro t
    refine LaneSettled.trans ?_ (ih _)
    change LaneSettled (t.lane k)
      (State.lane (if t.halted then (if t.dev.resetInProgress then laneHaltedOff l t else t) else laneOff l t) k)
    (repeat' split) <;> first | exact laneHaltedOff_lane l k t | exact .refl _ | exact laneOff_lane l k t

/-- The lanes after the tests an event ends with (R174). -/
theorem finishEvent_lane (k : LaneId) (s : State) : LaneSettled (s.lane k) ((finishEvent s).lane k) := by
  have h : (finishEvent s).lane k = (settleLanes s).lane k := by
    unfold finishEvent resetEndCheck resetEnd stoppedCheck
    (repeat' split) <;> rfl
  rw [h]
  exact settleLanes_lane k s

/-- What the tests an event ends with leave: everything but device mode, anchor, lanes, notification unit and links. -/
structure FinishKeeps (s t : State) : Prop where
  pending : t.pending = s.pending
  width : t.width = s.width
  tick : t.tick = s.tick
  settings : t.settings = s.settings
  messagesEnabled : t.messagesEnabled = s.messagesEnabled
  unitPresent : t.unitPresent = s.unitPresent
  dar : t.dar = s.dar
  ctxs : t.ctxs = s.ctxs
  regions : t.regions = s.regions
  lockdown : t.lockdown = s.lockdown
  chans : t.chans = s.chans
  rlts : t.rlts = s.rlts
  patrol : t.patrol = s.patrol
  log : t.log = s.log
  cme : t.cme = s.cme

theorem finishEvent_keeps (s : State) : FinishKeeps s (finishEvent s) := by
  obtain ⟨ls, n, o, h⟩ := settleLanes_lanesOnly s
  unfold finishEvent resetEndCheck resetEnd stoppedCheck
  rw [h]
  (repeat' split) <;> exact ⟨rfl, rfl, rfl, rfl, rfl, rfl, rfl, rfl, rfl, rfl, rfl, rfl, rfl, rfl, rfl⟩

/-- A lane that faults: FAULTED with code, fault address and resume address, nothing in flight (R172). -/
theorem laneFault_lane (l k : LaneId) (code : LaneFault) (a : Addr) (s : State) :
    (laneFault l code a s).lane k = if k = l then
      (let n := { s.lane l with
        state := .faulted, fault := code, faultAddr := a, resume := a, target := none, reading := none, poll := none }
      { n with lastStatus := some n.status }) else s.lane k := by
  unfold laneFault
  rw [(postEvent_ntuOnly _ _ _).lane, askStatus_lane, modLane_lane, modLane_lane, if_pos rfl]
  split <;> simp_all

/-- A lane that parks (R166). -/
theorem park_lane (l k : LaneId) (st : LaneState) (s : State) :
    (park l st s).lane k = if k = l then
      (let n := { s.lane l with state := st, reading := none, poll := pollFrom s l }
      { n with lastStatus := some n.status }) else s.lane k := by
  rw [park, askStatus_lane, modLane_lane, modLane_lane, if_pos rfl]
  split <;> simp_all

/-! ### One operation on several lanes -/

/-- `f` on the lanes of a list: a lane outside it is unchanged, and one of it is what `f` makes of a state that has that
lane as it was and is as `R` says. -/
theorem forEach_lane {R : State → State → Prop} {f : LaneId → State → State} (hr : ∀ s, R s s)
    (ht : ∀ {s t u}, R s t → R t u → R s u) (hf : ∀ l t, R t (f l t)) (ho : ∀ l k t, k ≠ l → (f l t).lane k = t.lane k)
    (xs : List LaneId) (hn : xs.Nodup) (s : State) :
    (∀ l, l ∉ xs → (forEach xs f s).lane l = s.lane l)
      ∧ ∀ l, l ∈ xs → ∃ u, R s u ∧ u.lane l = s.lane l ∧ (forEach xs f s).lane l = (f l u).lane l := by
  induction xs generalizing s with
  | nil => exact ⟨fun _ _ => rfl, fun l h => absurd h (by simp)⟩
  | cons a xs ih =>
    obtain ⟨ih1, ih2⟩ := ih (List.nodup_cons.mp hn).2 (f a s)
    have ha := (List.nodup_cons.mp hn).1
    refine ⟨fun l h => ?_, fun l h => ?_⟩
    · rw [List.mem_cons, not_or] at h
      exact (ih1 l h.2).trans (ho a l s h.1)
    · rcases List.mem_cons.mp h with rfl | h
      · exact ⟨s, hr s, rfl, ih1 l ha⟩
      · obtain ⟨u, h1, h2, h3⟩ := ih2 l h
        exact ⟨u, ht (hf a s) h1, h2.trans (ho a l s fun e => ha (e ▸ h)), h3⟩

theorem four_nodup : four.Nodup := by decide

theorem mem_four (l : LaneId) : l ∈ four := by revert l; decide

theorem laneStart_lane_other (l k : LaneId) (s : State) (h : k ≠ l) : (laneStart l s).lane k = s.lane k := by
  unfold laneStart startFromOff refuseSignal retireAtStart retireAll
  dsimp only
  (repeat' split) <;> simp [askStatus_lane, modLane_lane, h, (handCauses_ntuOnly _ _ _).lane]

theorem reread_lane_other (l k : LaneId) (s : State) (h : k ≠ l) : (reread l s).lane k = s.lane k := by
  unfold reread
  (repeat' split) <;> simp [issueFetch_lane, issueLinkRead_lane, modLane_lane, h]

theorem laneLook_lane_other (l k : LaneId) (s : State) (h : k ≠ l) : (laneLook l s).lane k = s.lane k := by
  unfold laneLook
  (repeat' split) <;> simp [reread_lane_other, h]

theorem laneRun_lane_other (l k : LaneId) (s : State) (h : k ≠ l) : (laneRun l s).lane k = s.lane k := by
  unfold laneRun
  (repeat' split) <;> simp [reread_lane_other, issueFetch_lane, h]

theorem maskLanes_nodup (mask : BitVec 4) : (maskLanes mask).Nodup := four_nodup.filter _

theorem mem_maskLanes (mask : BitVec 4) (l : LaneId) : l ∈ maskLanes mask ↔ mask.getLsbD l.val = true := by
  simp [maskLanes, mem_four]

end Sys2Proof.Machine
end

