-- ==== Sys2Proof/Laws/Durable.lean ====
section
/-! SUPPORT. The durable tables (chapter 7) under the updates of a commit: what puts tables in force, and what leaves them. -/

namespace Sys2Proof.Machine

theorem getElem_mapVec {α β : Type} {n : Nat} (f : α → β) (v : Vector α n) (j : Nat) (h : j < n) : (mapVec f v)[j] = f v[j] := by
  simp [mapVec]

theorem durable_eq {s t : State} (hr : mapVec RegionEntry.live t.regions = mapVec RegionEntry.live s.regions)
    (hu : mapVec Rlt.table t.rlts = mapVec Rlt.table s.rlts) (hl : t.log = s.log) : t.durable = s.durable := by
  unfold State.durable
  rw [hr, hu, hl]

/-- An update of a region's marks and users leaves the durable tables. -/
theorem setRegion_durable (s : State) (i : Nat) (v : RegionEntry) (h : v.live = (s.region i).live) :
    (s.setRegion i v).durable = s.durable := by
  refine durable_eq ?_ rfl rfl
  ext1 j hj
  rw [getElem_mapVec, getElem_mapVec, setRegion_regions, Vector.getElem_setIfInBounds]
  split
  · next e => subst e; rw [h]; simp [State.region, hj]
  · rfl

/-- An update of a relocation table's moves, requests and failing spares leaves the durable tables. -/
theorem setRlt_durable (s : State) (u : UnitId) (v : Rlt) (h : v.table = (s.rlt u).table) :
    (s.setRlt u v).durable = s.durable := by
  refine durable_eq rfl ?_ rfl
  ext1 j hj
  rw [getElem_mapVec, getElem_mapVec, setRlt_rlts, Vector.getElem_set]
  split
  · next e => rw [h]; simp only [State.rlt, Fin.getElem_fin, e]
  · rfl

theorem setDurable_regions (s : State) (d : Durable) :
    (s.setDurable d).regions = Vector.ofFn fun (i : Fin 32) => { s.regions[i] with live := d.regions[i] } := by
  simp only [State.setDurable]

theorem setDurable_rlts (s : State) (d : Durable) :
    (s.setDurable d).rlts = Vector.ofFn fun (u : Fin 4) => { s.rlts[u] with table := d.units[u] } := by
  simp only [State.setDurable]

/-- Durable tables put in force are in force. -/
theorem durable_setDurable (s : State) (d : Durable) : (s.setDurable d).durable = d := by
  obtain ⟨r, u, l⟩ := d
  unfold State.durable
  rw [setDurable_regions, setDurable_rlts, setDurable_log]
  rw [Durable.mk.injEq]
  refine ⟨?_, ?_, rfl⟩
  · ext1 j hj
    rw [getElem_mapVec, Vector.getElem_ofFn]
    rfl
  · ext1 j hj
    rw [getElem_mapVec, Vector.getElem_ofFn]
    rfl

theorem NtuOnly.durable {s t : State} (h : NtuOnly s t) : t.durable = s.durable := by
  obtain ⟨n, rfl⟩ := h
  rfl

theorem markClosing_durable (is : List Nat) (s : State) : (markClosing is s).durable = s.durable := by
  unfold markClosing
  refine forEach_frame (p := State.durable) _ (fun i t => ?_) is s
  exact setRegion_durable t i { t.region i with closing := true } rfl

theorem clearMarks_durable (batch : List Change) (s : State) : (clearMarks batch s).durable = s.durable := by
  unfold clearMarks
  refine forEach_frame (p := State.durable) _ (fun c t => ?_) _ s
  exact setRegion_durable t c.1 { t.region c.1 with pending := none, closing := false } rfl

theorem degradeUnits_durable (g : Nat) (s : State) : (degradeUnits g s).durable = s.durable := by
  refine forEach_frame (p := State.durable) _ (fun u t => ?_) _ _
  split
  · exact (postEvent_ntuOnly _ _ _).durable
  · rfl

theorem leaveSlot_durable (u : UnitId) (mid : Nat) (s : State) : (leaveSlot u mid s).1.durable = s.durable :=
  (durable_eq rfl rfl rfl).trans (setRlt_durable s u ((s.rlt u).dropMove mid) rfl)

theorem moveEnds_durable (u : UnitId) (mid spare : Nat) (f : ChangeFate) (s : State) :
    (moveEnds u mid spare f s).1.durable = s.durable := by
  unfold moveEnds
  split
  · rfl
  · exact leaveSlot_durable u mid s

theorem rltChangeEnds_durable (f : ChangeFate) (chg : Change) (s : State) : (rltChangeEnds f chg s).1.durable = s.durable := by
  cases chg
  case entry => exact moveEnds_durable ..
  case dead => exact setRlt_durable _ _ _ rfl
  all_goals rfl

theorem batchEnds_durable (f : ChangeFate) (batch : List Change) (s : State) : (batchEnds f batch s).1.durable = s.durable :=
  effEach_frame (p := State.durable) _ (fun chg t => rltChangeEnds_durable f chg t) _ _

theorem mirrorEvents_ntuOnly (f : InFlight) (s : State) : NtuOnly s (mirrorEvents f s) :=
  NtuOnly.each (fun k t => by split <;> first | exact postEvent_ntuOnly _ _ t | exact .refl t) _ _

theorem regionEvents_ntuOnly (before : State) (g : Nat) (batch : List Change) (s : State) :
    NtuOnly s (regionEvents before g batch s) :=
  NtuOnly.each (fun _ t => NtuOnly.each (fun _ u => postEvent_ntuOnly _ _ u) _ t) _ s

theorem relocatedEvents_ntuOnly (g : Nat) (batch : List Change) (s : State) : NtuOnly s (relocatedEvents g batch s) :=
  NtuOnly.each (fun _ t => NtuOnly.each (fun _ u => postEvent_ntuOnly _ _ u) _ t) _ s

theorem spareLowEvents_ntuOnly (before : State) (g : Nat) (s : State) : NtuOnly s (spareLowEvents before g s) :=
  NtuOnly.each
    (fun u t => by dsimp only; split <;> first | exact postEvent_ntuOnly _ _ t | exact .refl t) _ _

/-- A successful commit puts its batch in force (R148, R139). -/
theorem commitSucceeds_durable (f : InFlight) (s : State) :
    (commitSucceeds f s).1.durable = s.durable.applyAll f.image.gen f.batch := by
  have h : ∀ (t : State) (c : Cme), (t.setCme c).durable = t.durable := fun _ _ => rfl
  unfold commitSucceeds
  dsimp only
  rw [batchEnds_durable, degradeUnits_durable, (spareLowEvents_ntuOnly _ _ _).durable,
    (relocatedEvents_ntuOnly _ _ _).durable, (regionEvents_ntuOnly _ _ _ _).durable, clearMarks_durable,
    durable_setDurable, h, (mirrorEvents_ntuOnly _ _).durable]

/-- A failed commit leaves the durable tables (R149). -/
theorem commitFails_durable (f : InFlight) (code : Nat) (s : State) : (commitFails f code s).1.durable = s.durable := by
  have h : ∀ (t : State) (c : Cme), (t.setCme c).durable = t.durable := fun _ _ => rfl
  unfold commitFails
  dsimp only
  rw [batchEnds_durable, (postEvent_ntuOnly _ _ _).durable, clearMarks_durable, h]

end Sys2Proof.Machine
end

