-- ==== Sys2Proof/Laws/Contexts.lean ====
section
/-! SUPPORT. What the ends of blocks do to a context's block table and staging buffers (R62), and what the entry to HALTED does
to contexts and held lists (R70). -/

namespace Sys2Proof.Machine

/-! ### One block ends -/

@[simp] theorem endBlock_phase (c : Context) (j : Nat) : (c.endBlock j).phase j = none := by
  simp [Context.phase, Context.endBlock]

@[simp] theorem endBlock_blocks (c : Context) (j : Nat) : (c.endBlock j).blocks = c.blocks.filter fun b => b.j != j := rfl

@[simp] theorem endBlock_bufs (c : Context) (j : Nat) (i : Fin 4) :
    (c.endBlock j).bufs[i] = if (c.bufs[i]).bound = some j then StagingBuf.free else c.bufs[i] :=
  getElem_mapVec _ c.bufs i.val i.isLt

/-- A context that reads as `c` with block `j` ended, the buffers of `c` bound as those of `s` and, but for `j`'s, the same. -/
theorem BlockGone.of_endBlock {x : CtxId} {j : Nat} {s t : State} (c : Context) (hb : (t.ctx x).blocks = (c.endBlock j).blocks)
    (hu : (t.ctx x).bufs = (c.endBlock j).bufs) (bound : ∀ i : Fin 4, (c.bufs[i]).bound = ((s.ctx x).bufs[i]).bound)
    (same : ∀ i : Fin 4, ((s.ctx x).bufs[i]).bound ≠ some j → c.bufs[i] = (s.ctx x).bufs[i]) : BlockGone x j s t where
  phase := by
    have h := endBlock_phase c j
    unfold Context.phase at h ⊢
    rw [hb, h]
  freed := fun i h => by rw [hu, endBlock_bufs, bound i, if_pos h]; rfl
  others := fun i h => by rw [hu, endBlock_bufs, bound i, if_neg h, same i h]

/-- A block ends in a context that is otherwise as it was in block table and buffers. -/
theorem BlockGone.of_end {x : CtxId} {j : Nat} {s t : State} (hb : (t.ctx x).blocks = ((s.ctx x).endBlock j).blocks)
    (hu : (t.ctx x).bufs = ((s.ctx x).endBlock j).bufs) : BlockGone x j s t :=
  .of_endBlock (s.ctx x) hb hu (fun _ => rfl) fun _ _ => rfl

/-- Data that goes into block `j`'s buffer leaves the bindings and the other buffers. -/
theorem putData_bound (c : Context) (j : Nat) (data : Bytes) (i : Fin 4) : ((c.putData j data).bufs[i]).bound = (c.bufs[i]).bound := by
  have h : (c.putData j data).bufs[i] = if (c.bufs[i]).bound = some j then { c.bufs[i] with data := some data } else c.bufs[i] :=
    getElem_mapVec _ c.bufs i.val i.isLt
  rw [h]; split <;> rfl

theorem putData_other (c : Context) (j : Nat) (data : Bytes) (i : Fin 4) (h : (c.bufs[i]).bound ≠ some j) :
    (c.putData j data).bufs[i] = c.bufs[i] :=
  (getElem_mapVec _ c.bufs i.val i.isLt).trans (if_neg h)

/-! ### Several blocks end -/

theorem endBlocks_blocks (js : List Nat) (c : Context) :
    (js.foldl Context.endBlock c).blocks = c.blocks.filter fun b => !js.contains b.j := by
  induction js generalizing c with
  | nil => simp
  | cons j js ih =>
    rw [List.foldl_cons, ih, endBlock_blocks, List.filter_filter]
    congr 1; funext b
    rw [List.contains_cons]
    cases h : (b.j == j) <;> simp_all

theorem endBlocks_freed (js : List Nat) (c : Context) (i : Fin 4) (h : c.bufs[i] = StagingBuf.free) :
    (js.foldl Context.endBlock c).bufs[i] = StagingBuf.free := by
  induction js generalizing c with
  | nil => exact h
  | cons j js ih => exact ih _ (by rw [endBlock_bufs, h]; split <;> rfl)

theorem endBlocks_bufs (js : List Nat) (c : Context) (i : Fin 4) :
    (js.foldl Context.endBlock c).bufs[i] = if ∃ j ∈ js, (c.bufs[i]).bound = some j then StagingBuf.free else c.bufs[i] := by
  induction js generalizing c with
  | nil => simp
  | cons j js ih =>
    rw [List.foldl_cons]
    by_cases hj : (c.bufs[i]).bound = some j
    · rw [endBlocks_freed js _ i (by rw [endBlock_bufs, if_pos hj]), if_pos ⟨j, by simp, hj⟩]
    · rw [ih, endBlock_bufs, if_neg hj]
      refine if_congr ⟨fun ⟨k, hk, hb⟩ => ⟨k, List.mem_cons_of_mem _ hk, hb⟩, fun ⟨k, hk, hb⟩ => ?_⟩ rfl rfl
      rcases List.mem_cons.mp hk with rfl | hk
      · exact absurd hb hj
      · exact ⟨k, hk, hb⟩

/-- The blocks in the given phases are dropped. -/
theorem dropBlocks_dropped (p : BlockPhase → Bool) (c : Context) : BlocksDropped p c (c.dropBlocks p) where
  blocks := by
    unfold Context.dropBlocks
    rw [endBlocks_blocks]
    congr 1; funext b
    rw [Bool.eq_iff_iff]
    simp only [Bool.not_eq_true', List.contains_eq_mem, decide_eq_false_iff_not, List.mem_map, List.mem_filter, List.all_eq_true,
      Bool.or_eq_true, bne_iff_ne, ne_eq]
    constructor
    · intro h g hg
      by_cases e : g.j = b.j
      · exact Or.inr (by cases hp : p g.phase <;> first | rfl | exact absurd ⟨g, ⟨hg, hp⟩, e⟩ h)
      · exact Or.inl e
    · rintro h ⟨g, ⟨hg, hp⟩, e⟩
      rcases h g hg with h | h
      · exact h e
      · rw [hp] at h; exact absurd h (by decide)
  freed := fun i g hg hp hb => by
    unfold Context.dropBlocks
    rw [endBlocks_bufs, if_pos ⟨g.j, List.mem_map.mpr ⟨g, List.mem_filter.mpr ⟨hg, hp⟩, rfl⟩, hb⟩]; rfl
  others := fun i h => by
    unfold Context.dropBlocks
    rw [endBlocks_bufs, if_neg]
    rintro ⟨j, hj, hb⟩
    obtain ⟨g, hg, rfl⟩ := List.mem_map.mp hj
    exact h g (List.mem_filter.mp hg).1 (List.mem_filter.mp hg).2 hb

/-- Dropping by one phase and then by another is dropping by either. -/
theorem BlocksDropped.trans {p q : BlockPhase → Bool} {c d e : Context} (h : BlocksDropped p c d) (k : BlocksDropped q d e) :
    BlocksDropped (fun x => p x || q x) c e := by
  have mem : ∀ b, b ∈ d.blocks ↔ b ∈ c.blocks ∧ ∀ g ∈ c.blocks, g.j ≠ b.j ∨ p g.phase = false := fun b => by
    rw [h.blocks]; simp
  -- a block one of the phases names: the first names some block of its index, or it is still there for the second
  have split : ∀ g ∈ c.blocks, (p g.phase || q g.phase) = true →
      (∃ f ∈ c.blocks, p f.phase = true ∧ f.j = g.j) ∨ (g ∈ d.blocks ∧ q g.phase = true) := fun g hg hp => by
    by_cases hd : g ∈ d.blocks
    · cases hpg : p g.phase
      · exact Or.inr ⟨hd, by simpa [hpg] using hp⟩
      · exact Or.inl ⟨g, hg, hpg, rfl⟩
    · rw [mem] at hd
      have : ∃ f ∈ c.blocks, ¬ (f.j ≠ g.j ∨ p f.phase = false) := by
        refine Classical.byContradiction fun no => hd ⟨hg, fun f hf => ?_⟩
        exact Classical.byContradiction fun nf => no ⟨f, hf, nf⟩
      obtain ⟨f, hf, hn⟩ := this
      exact Or.inl ⟨f, hf, by simpa using (not_or.mp hn).2, by simpa using (not_or.mp hn).1⟩
  refine ⟨?_, fun i g hg hp hb => ?_, fun i no => ?_⟩
  · rw [k.blocks, h.blocks, List.filter_filter]
    refine List.filter_congr fun b hb => ?_
    rw [Bool.eq_iff_iff]
    constructor
    · intro hall
      rw [Bool.and_eq_true] at hall
      obtain ⟨h1, h2⟩ := hall
      rw [List.all_eq_true] at h1 h2 ⊢
      intro g hg
      by_cases e : g.j = b.j
      · rcases hpq : (p g.phase || q g.phase) with _ | _
        · simp
        · rcases split g hg hpq with ⟨f, hf, hpf, ef⟩ | ⟨hd, hq⟩
          · have := h2 f hf; simp [hpf, ef, e] at this
          · have := h1 g (h.blocks ▸ hd); simp [hq, e] at this
      · simp [e]
    · intro hall
      rw [List.all_eq_true] at hall
      rw [Bool.and_eq_true, List.all_eq_true, List.all_eq_true]
      refine ⟨fun g hg => ?_, fun g hg => ?_⟩
      · have := hall g (List.mem_filter.mp hg).1
        cases hq : q g.phase <;> simp_all
      · have := hall g hg
        cases hp : p g.phase <;> simp_all
  · rcases split g hg hp with ⟨f, hf, hpf, ef⟩ | ⟨hd, hq⟩
    · have hf' := h.freed i f hf hpf (ef ▸ hb)
      rw [k.others i (fun g _ _ e => by rw [hf'] at e; exact absurd e (by simp)), hf']
    · by_cases hx : ∃ f ∈ c.blocks, p f.phase = true ∧ (c.bufs[i]).bound = some f.j
      · obtain ⟨f, hf, hpf, ef⟩ := hx
        have hf' := h.freed i f hf hpf ef
        rw [k.others i (fun g _ _ e => by rw [hf'] at e; exact absurd e (by simp)), hf']
      · have hs := h.others i fun f hf hpf ef => hx ⟨f, hf, hpf, ef⟩
        exact k.freed i g hd hq (by rw [hs]; exact hb)
  · have hs := h.others i fun f hf hpf ef => no f hf (by simp [hpf]) ef
    rw [k.others i fun g hg hq e => no g ((mem g).mp hg).1 (by simp [hq]) (by rw [← hs]; exact e), hs]

/-! ### The entry to HALTED (R70) -/

theorem forgetHeld_chan (x : CtxId) (s : State) (u : UnitId) : (forgetHeld x s).chan u
    = { s.chan u with locks := (s.chan u).locks.map fun k => { k with held := k.held.filter fun h => h.1 != x } } :=
  getElem_mapVec _ s.chans u.val u.isLt

theorem ctxSettle_chans (x : CtxId) (s : State) : (ctxSettle x s).chans = s.chans := by
  have low : ∀ (is : List Nat) (t : State), (lowerUsers is t).chans = t.chans := fun is t => by
    unfold lowerUsers
    induction is generalizing t with
    | nil => rfl
    | cons i is ih => exact (ih _).trans rfl
  unfold ctxSettle freeContext enterFinishing
  dsimp only
  (repeat' split) <;> simp [low]

/-- What a context that is not FREE is after the entry to HALTED: `c` before, `d` after (R70). -/
structure HaltedContext (c d : Context) : Prop where
  state : d.state = c.state
  abortMark : d.abortMark = true
  listReading : d.listReading = false
  failure : d.failure = c.failure
  blocksOk : d.blocksOk = c.blocksOk
  dropped : BlocksDropped (fun p => match p with | .held _ | .hostRead | .bufferWrite => true | _ => false) c d

theorem endBlocks_keep (js : List Nat) (c : Context) :
    (js.foldl Context.endBlock c).state = c.state ∧ (js.foldl Context.endBlock c).failure = c.failure
      ∧ (js.foldl Context.endBlock c).blocksOk = c.blocksOk := by
  induction js generalizing c with
  | nil => exact ⟨rfl, rfl, rfl⟩
  | cons j js ih => exact ih _

/-- A context at the entry to HALTED, no warm reset in progress: itself, the other contexts, and the channels' held lists. -/
theorem ctxHalt_effect (x : CtxId) (s : State) (hh : s.dev.state = .halted) (hr : s.dev.resetInProgress = false)
    (hx : (s.ctx x).state ≠ .free) :
    HaltedContext (s.ctx x) ((ctxHalt x s).ctx x) ∧ (∀ y, y ≠ x → (ctxHalt x s).ctx y = s.ctx y)
      ∧ (∀ u, (ctxHalt x s).chan u = (forgetHeld x s).chan u) ∧ (ctxHalt x s).dev = s.dev := by
  have settle : ∀ t : State, t.dev = s.dev → (t.ctx x).state ≠ .free → ctxSettle x t = t := fun t hd hf => by
    unfold ctxSettle State.halted
    simp [hd, hh, hr, hf]
  have keep := endBlocks_keep
  unfold ctxHalt
  rw [if_neg hx]
  dsimp only
  rw [settle _ (by rfl) (by
    simp only [withdrawHeld, Context.dropBlocks, ctx_setCtx_same, (keep _ _).1]
    exact hx)]
  have first := dropBlocks_dropped BlockPhase.isHeld (s.ctx x)
  have second := dropBlocks_dropped BlockPhase.hostFacing ((s.ctx x).dropBlocks BlockPhase.isHeld)
  have both := first.trans second
  refine ⟨⟨?_, ?_, ?_, ?_, ?_, ?_⟩, fun y hy => ?_, fun u => ?_, rfl⟩
  · simp only [withdrawHeld, Context.dropBlocks, ctx_setCtx_same, (keep _ _).1]; rfl
  · simp only [ctx_setCtx_same]
  · simp only [ctx_setCtx_same]
  · simp only [withdrawHeld, Context.dropBlocks, ctx_setCtx_same, (keep _ _).2.1]; rfl
  · simp only [withdrawHeld, Context.dropBlocks, ctx_setCtx_same, (keep _ _).2.2]; rfl
  · have e : (fun p => BlockPhase.isHeld p || BlockPhase.hostFacing p)
        = fun p => match p with | .held _ | .hostRead | .bufferWrite => true | _ => false := by
      funext p; cases p <;> rfl
    rw [e] at both
    simp only [withdrawHeld, ctx_setCtx_same]
    exact ⟨both.blocks, both.freed, both.others⟩
  · simp only [withdrawHeld]
    rw [ctx_setCtx_other _ _ _ _ hy, ctx_setCtx_other _ _ _ _ hy]
    rfl
  · rfl

/-- The contexts of a list at the entry to HALTED, no warm reset in progress. -/
theorem forEach_ctxHalt (xs : List CtxId) (hn : xs.Nodup) (s : State) (hh : s.dev.state = .halted)
    (hr : s.dev.resetInProgress = false) :
    (∀ x, x ∉ xs ∨ (s.ctx x).state = .free → (forEach xs ctxHalt s).ctx x = s.ctx x)
      ∧ (∀ x, x ∈ xs → (s.ctx x).state ≠ .free → HaltedContext (s.ctx x) ((forEach xs ctxHalt s).ctx x))
      ∧ ∀ u, (forEach xs ctxHalt s).chan u = { s.chan u with
          locks := (s.chan u).locks.map fun k => { k with
            held := k.held.filter fun h => !xs.contains h.1 || (s.ctx h.1).state == .free } } := by
  induction xs generalizing s with
  | nil => exact ⟨fun _ _ => rfl, fun x h => absurd h (by simp), fun u => by simp [forEach]⟩
  | cons a xs ih =>
    obtain ⟨ha, hn⟩ := List.nodup_cons.mp hn
    by_cases hf : (s.ctx a).state = .free
    · have e : ctxHalt a s = s := by unfold ctxHalt; rw [if_pos hf]
      have e' : forEach (a :: xs) ctxHalt s = forEach xs ctxHalt s := by
        change forEach xs ctxHalt (ctxHalt a s) = _; rw [e]
      rw [e']
      obtain ⟨h1, h2, h3⟩ := ih hn s hh hr
      refine ⟨fun x h => h1 x ?_, fun x hx hs => h2 x ?_ hs, fun u => ?_⟩
      · exact h.imp (fun h m => h (List.mem_cons_of_mem _ m)) id
      · rcases List.mem_cons.mp hx with rfl | hx
        · exact absurd hf hs
        · exact hx
      · rw [h3]
        dsimp only
        congr 1
        refine List.map_congr_left fun k _ => ?_
        congr 1
        refine List.filter_congr fun h _ => ?_
        by_cases hb : h.1 = a <;> simp [hb, hf]
    · obtain ⟨g1, g2, g3, g4⟩ := ctxHalt_effect a s hh hr hf
      obtain ⟨h1, h2, h3⟩ := ih hn (ctxHalt a s) (by rw [g4]; exact hh) (by rw [g4]; exact hr)
      have other : ∀ x, x ≠ a → (ctxHalt a s).ctx x = s.ctx x := g2
      change (∀ x, _ → (forEach xs ctxHalt (ctxHalt a s)).ctx x = _) ∧ (∀ x, _ → _ → HaltedContext _
        ((forEach xs ctxHalt (ctxHalt a s)).ctx x)) ∧ ∀ u, (forEach xs ctxHalt (ctxHalt a s)).chan u = _
      refine ⟨fun x h => ?_, fun x hx hs => ?_, fun u => ?_⟩
      · have hxa : x ≠ a := by
          rintro rfl
          exact h.elim (fun h => h (by simp)) hf
        rw [h1 x (h.imp (fun h m => h (List.mem_cons_of_mem _ m)) fun h => by rw [other x hxa]; exact h), other x hxa]
      · by_cases hxa : x = a
        · subst hxa
          rw [h1 x (Or.inl ha)]
          exact g1
        · have := h2 x ((List.mem_cons.mp hx).resolve_left hxa) (by rw [other x hxa]; exact hs)
          rwa [other x hxa] at this
      · rw [h3, g3, forgetHeld_chan]
        simp only [List.map_map]
        congr 1
        refine List.map_congr_left fun k _ => ?_
        simp only [Function.comp_apply, List.filter_filter]
        congr 1
        refine List.filter_congr fun h _ => ?_
        by_cases hb : h.1 = a
        · simp [hb, ha, hf]
        · simp [hb, other h.1 hb]

end Sys2Proof.Machine
end

