-- ==== Sys2Proof/Laws/Grants.lean ====
section
/-! SUPPORT. What the grant of a record does (R57, R59, R164), whatever becomes of the record, and which parts of the state
the check order reads. -/

namespace Sys2Proof.Machine

/-- A grant row of the command table runs the record of the grant through the check order. -/
theorem exec_grantCommand (k : OpKind) (s : State) :
    ∃ accept : CtxId → State → Eff, exec (grantCommand k) s = .next (grantRow k accept s) := by
  cases k <;> exact ⟨_, rfl⟩

theorem grantRow_taken {k : OpKind} {s : State} {l : LaneId} {x : CtxId} {r : Bytes} {a : Addr} (g : Grants s l x r k a)
    (accept : CtxId → State → Eff) : grantRow k accept s = workOff (checkRecord k accept x (takeGrant l x r s)) := by
  simp only [grantRow, g.grant, g.kind, if_true]

/-- The state after a grant, before the check order: `s` with the context taken, the arbiter, lane `l` and the links. -/
theorem takeGrant_eq (l : LaneId) (x : CtxId) (r : Bytes) (a : Addr) (s : State) (h : (s.lane l).stagedAddr = some a) :
    takeGrant l x r s
      = { s with
          ctxs := s.ctxs.set x (Context.granted r a l (s.lane l).cfg.tableRight s.tick)
          dar := s.dar.granted (grantCredits s) l
          lanes := s.lanes.set l { s.lane l with
            staged := none, window := dispatchInWindow x (s.lane l).window, resume := a
            state := .seeking, reading := some (.link a), poll := none }
          out := s.out ++ grantOutputs a } := by
  unfold takeGrant issueLinkRead modLane
  dsimp only
  rw [h, lane_setLane_same]
  simp only [State.setLane, State.setCtx, State.emit, Option.getD_some, grantOutputs, List.append_assoc, List.cons_append,
    List.nil_append, Vector.set_set]
  rfl

theorem takeGrant_ctx (l : LaneId) (x : CtxId) (r : Bytes) (a : Addr) (s : State) (h : (s.lane l).stagedAddr = some a) :
    (takeGrant l x r s).ctx x = Context.granted r a l (s.lane l).cfg.tableRight s.tick := by
  rw [takeGrant_eq l x r a s h]
  simp [State.ctx]

theorem takeGrant_ctx_other (l : LaneId) (x y : CtxId) (r : Bytes) (a : Addr) (s : State)
    (h : (s.lane l).stagedAddr = some a) (hy : y ≠ x) : (takeGrant l x r s).ctx y = s.ctx y := by
  rw [takeGrant_eq l x r a s h]
  have hv : x.val ≠ y.val := fun e => hy (Fin.ext e.symm)
  simp [State.ctx, hv]

theorem takeGrant_taken (l : LaneId) (x : CtxId) (r : Bytes) (a : Addr) (s : State)
    (h : (s.lane l).stagedAddr = some a) : GrantTaken s (takeGrant l x r s) l x a := by
  rw [takeGrant_eq l x r a s h]
  refine ⟨rfl, ?_, ?_, ?_, ?_, ?_, fun k hk => ?_⟩ <;> simp only [State.lane]
  · simp
  · simp
  · simp
  · simp
  · simp
  · have hv : l.val ≠ k.val := fun e => hk (Fin.ext e.symm)
    simp [hv]

theorem GrantTaken.of_same {s t u : State} {l : LaneId} {x : CtxId} {a : Addr} (h : GrantTaken s t l x a)
    (hl : u.lanes = t.lanes) (hd : u.dar = t.dar) : GrantTaken s u l x a := by
  have e : ∀ k, u.lane k = t.lane k := fun k => by unfold State.lane; rw [hl]
  exact ⟨hd.trans h.dar, by rw [e]; exact h.state, by rw [e]; exact h.staged, by rw [e]; exact h.reading,
    by rw [e]; exact h.resume, by rw [e]; exact h.window, fun k hk => (e k).trans (h.others k hk)⟩

/-- Steps 1 and 2 read the units' states and the patrol settings alone. -/
theorem argumentChecks_same {s t : State} (hc : t.chans = s.chans) (hp : t.patrol = s.patrol) (k : OpKind) (r : Bytes) :
    argumentChecks t k r = argumentChecks s k r := by
  unfold argumentChecks step2Ok argsOk tableArgsOk
  simp only [State.chan, hc, hp]

/-- Steps 3 to 8 read regions, patrol, stripe width and lockdown flag alone. -/
theorem accessChecks_same {s t : State} (hr : t.regions = s.regions) (hp : t.patrol = s.patrol) (hw : t.width = s.width)
    (hl : t.lockdown = s.lockdown) (k : OpKind) (r : Bytes) (l : LaneId) (right : Bool) :
    accessChecks t k r l right = accessChecks s k r l right := by
  unfold accessChecks defineChecks deleteChecks protectChecks windowFree
  simp only [State.region, hr, hp, hw, hl]

variable {k : OpKind} {s : State} {l : LaneId} {x : CtxId} {r : Bytes} {a : Addr}

/-- A record that passes the check order is accepted in the state of its grant (R33). -/
theorem grantRow_passes (g : Grants s l x r k a) (h : PassesChecks s l r k) (accept : CtxId → State → Eff) :
    grantRow k accept s = workOff (accept x ((takeGrant l x r s).setCtx x
      { Context.granted r a l (s.lane l).cfg.tableRight s.tick with
        segs := if k.needsSegments then inlineSegments r else [] })) := by
  rw [grantRow_taken g]
  have hc := takeGrant_ctx l x r a s g.addr
  have e := takeGrant_eq l x r a s g.addr
  have h1 : ∀ r', argumentChecks (takeGrant l x r s) k r' = argumentChecks s k r' :=
    argumentChecks_same (by rw [e]) (by rw [e]) k
  have h2 : ∀ c r' l' b, accessChecks ((takeGrant l x r s).setCtx x c) k r' l' b = accessChecks s k r' l' b :=
    fun c => accessChecks_same (by rw [e]; rfl) (by rw [e]; rfl) (by rw [e]; rfl) (by rw [e]; rfl) k
  unfold checkRecord checkAccess
  simp only [hc, h1, ctx_setCtx_same, h2]
  have hr : (Context.granted r a l (s.lane l).cfg.tableRight s.tick).record = r := rfl
  have hl : (Context.granted r a l (s.lane l).cfg.tableRight s.tick).lane = l := rfl
  have ht : (Context.granted r a l (s.lane l).cfg.tableRight s.tick).tableRight = (s.lane l).cfg.tableRight := rfl
  simp only [hr, hl, ht, h.arguments, h.noList, h.access, Bool.false_eq_true, if_false]

/-- A record refused at a step of the check order goes to FINISHING in the state of its grant (R33). -/
theorem grantRow_refused (g : Grants s l x r k a) (st : Status)
    (h : firstFail (argumentChecks s k r) = some st
      ∨ (firstFail (argumentChecks s k r) = none ∧ recSeglist r = false
        ∧ firstFail (accessChecks s k r l (s.lane l).cfg.tableRight) = some st)) (accept : CtxId → State → Eff) :
    ∃ gs, grantRow k accept s = enterFinishing x ((takeGrant l x r s).setCtx x
      { Context.granted r a l (s.lane l).cfg.tableRight s.tick with segs := gs, refusal := some st }) := by
  rw [grantRow_taken g]
  have hc := takeGrant_ctx l x r a s g.addr
  have e := takeGrant_eq l x r a s g.addr
  have h1 : ∀ r', argumentChecks (takeGrant l x r s) k r' = argumentChecks s k r' :=
    argumentChecks_same (by rw [e]) (by rw [e]) k
  have h2 : ∀ c r' l' b, accessChecks ((takeGrant l x r s).setCtx x c) k r' l' b = accessChecks s k r' l' b :=
    fun c => accessChecks_same (by rw [e]; rfl) (by rw [e]; rfl) (by rw [e]; rfl) (by rw [e]; rfl) k
  have hr : (Context.granted r a l (s.lane l).cfg.tableRight s.tick).record = r := rfl
  have hl : (Context.granted r a l (s.lane l).cfg.tableRight s.tick).lane = l := rfl
  have ht : (Context.granted r a l (s.lane l).cfg.tableRight s.tick).tableRight = (s.lane l).cfg.tableRight := rfl
  unfold checkRecord checkAccess
  simp only [hc, h1, ctx_setCtx_same, h2, hr, hl, ht]
  rcases h with h | ⟨h, hs, h2⟩
  · refine ⟨[], ?_⟩
    simp only [h]
    rw [workOff_none, refuseRecord, hc]
    rfl
  · refine ⟨if k.needsSegments then inlineSegments r else [], ?_⟩
    simp only [h, h2, hs, Bool.false_eq_true, if_false]
    rw [workOff_none, refuseRecord, ctx_setCtx_same]
    simp [State.setCtx]

end Sys2Proof.Machine
end

