-- ==== Sys2Proof/Laws/Relocation.lean ====
section
/-! SUPPORT. What the relocation tables' shared operations do: when a block counts as lost, a move's start by the
choosable spare, and what a DATA_LOST event leaves alone. -/

namespace Sys2Proof.Machine

/-- The table's test of a DIRECTED request says that the block is lost (R47, R115). -/
theorem knownLost_iff (r : Rlt) (b : Nat) : r.knownLost b = true ↔ LostBlock r b := by
  simp [Rlt.knownLost, LostBlock, or_assoc]

/-- With a choosable spare the move takes a slot in STARTING and its channel is asked (R105). -/
theorem startMove_some (u : UnitId) (q : MoveReq) (s : State) {k : Nat} (h : (s.rlt u).lowestChoosable = some k) :
    startMove u q s
      = (s.setRlt u { s.rlt u with
          moves := (s.rlt u).moves ++ [⟨(s.rlt u).nextMid, q, .starting, k, 1⟩], nextMid := (s.rlt u).nextMid + 1 },
        q.findingReply u .taken ++ [.moveStart u (s.rlt u).nextMid]) := by
  unfold startMove
  rw [h]
  rfl

/-- Without one the request is abandoned NO_SPARE and the slot is free (R105, R112). -/
theorem startMove_none (u : UnitId) (q : MoveReq) (s : State) (h : (s.rlt u).lowestChoosable = none) :
    startMove u q s = ((abandonRequest u q .noSpare s).1, (abandonRequest u q .noSpare s).2 ++ [.slotFreed u]) := by
  unfold startMove
  rw [h]
  rfl

/-- DATA_LOST touches the notification unit alone (R117). -/
theorem postDataLost_ntuOnly (u : UnitId) (b code : Nat) (lane : Option LaneId) (s : State) :
    NtuOnly s (postDataLost u b code lane s) := postEvent_ntuOnly _ _ _

/-- The DATA_LOST of a request at its take touches the notification unit alone (R117). -/
theorem raiseAtTake_ntuOnly (u : UnitId) (q : MoveReq) (s : State) : NtuOnly s (raiseAtTake u q s) := by
  unfold raiseAtTake
  split
  · exact postDataLost_ntuOnly ..
  · exact NtuOnly.refl s

end Sys2Proof.Machine
end

