-- ==== Sys2Proof/Laws/Locks.lean ====
section
/-! SUPPORT. Locks and moves fit together (R88, R104): what each operation on a channel or a relocation table does to them, and
that every internal effect keeps them so. -/

namespace Sys2Proof.Machine

/-- Block and move of a lock. -/
def Lock.key (k : Lock) : Nat × Nat := (k.block, k.mid)

/-! ### Channels that hold no more than before -/

/-- Channel `d` has no lock and no FOREGROUND entry that `c` has not. -/
structure Shrinks (c d : Channel) : Prop where
  locks : (d.locks.map Lock.key).Sublist (c.locks.map Lock.key)
  entries : ∀ e ∈ d.entries, e.isForeground = true → e ∈ c.entries

theorem QEntry.isForeground_of_foregroundOn {e : QEntry} {b : Nat} (h : e.foregroundOn b = true) : e.isForeground = true := by
  unfold QEntry.foregroundOn at h
  exact (Bool.and_eq_true _ _ ▸ h).1

theorem Shrinks.lock {c d : Channel} (h : Shrinks c d) {k : Lock} (hk : k ∈ d.locks) :
    ∃ g ∈ c.locks, g.block = k.block ∧ g.mid = k.mid := by
  obtain ⟨g, hg, e⟩ := List.mem_map.mp (h.locks.subset (List.mem_map_of_mem hk))
  exact ⟨g, hg, congrArg Prod.fst e, congrArg Prod.snd e⟩

theorem LocksFit.shrinks {c d : Channel} {r : Rlt} (f : LocksFit c r) (h : Shrinks c d) : LocksFit d r where
  slots := f.slots
  blocks := f.blocks
  numbers := f.numbers
  numbered := f.numbered
  started k hk := by
    obtain ⟨g, hg, eb, em⟩ := h.lock hk
    rw [← eb, ← em]
    exact f.started g hg
  once := by
    have e : ∀ l : List Lock, l.map Lock.block = (l.map Lock.key).map Prod.fst := fun l => by
      rw [List.map_map]; rfl
    rw [e]
    exact (h.locks.map Prod.fst).nodup (e _ ▸ f.once)
  kept k hk e he := by
    obtain ⟨g, hg, eb, -⟩ := h.lock hk
    rw [← eb]
    cases hf : e.foregroundOn g.block
    · rfl
    · exact absurd (f.kept g hg e (h.entries e he (QEntry.isForeground_of_foregroundOn hf))) (by simp [hf])

/-- The moves of the table are the same. -/
theorem LocksFit.sameMoves {c : Channel} {r q : Rlt} (f : LocksFit c r) (hm : q.moves = r.moves) (hn : q.nextMid = r.nextMid) :
    LocksFit c q where
  slots := hm ▸ f.slots
  blocks := hm ▸ f.blocks
  numbers := hm ▸ f.numbers
  numbered := hm ▸ hn ▸ f.numbered
  started := hm ▸ f.started
  once := f.once
  kept := f.kept

/-- A channel has at most four locks, on blocks of their own (R88). -/
theorem LocksFit.bound {c : Channel} {r : Rlt} (f : LocksFit c r) : c.locks.length ≤ 4 ∧ (c.locks.map Lock.block).Nodup := by
  refine ⟨?_, f.once⟩
  have sub : c.locks.map Lock.block ⊆ r.moves.map fun m => m.req.src := fun b hb => by
    obtain ⟨k, hk, rfl⟩ := List.mem_map.mp hb
    obtain ⟨m, hm, -, e, -⟩ := f.started k hk
    exact List.mem_map.mpr ⟨m, hm, e⟩
  have := (List.subperm_of_subset f.once sub).length_le
  simp only [List.length_map] at this
  exact this.trans f.slots

/-! ### The table's moves -/

/-- A move changed in its place: number and block stay, and it does not return to STARTING. -/
theorem LocksFit.putMove {c : Channel} {r : Rlt} {m n : Move} (f : LocksFit c r) (hm : m ∈ r.moves) (id : n.mid = m.mid)
    (src : n.req.src = m.req.src) (st : n.state = .starting → m.state = .starting) : LocksFit c (r.putMove n) := by
  have one : ∀ k ∈ r.moves, k.mid = n.mid → k = m := fun k hk e =>
    List.inj_on_of_nodup_map f.numbers hk hm (e.trans id)
  have same : ∀ g : Move → Nat, g n = g m → (r.putMove n).moves.map g = r.moves.map g := fun g e => by
    unfold Rlt.putMove
    rw [List.map_map]
    refine List.map_congr_left fun k hk => ?_
    simp only [Function.comp_apply]
    split
    · next h => rw [one k hk h, e]
    · rfl
  refine ⟨?_, ?_, ?_, ?_, ?_, f.once, f.kept⟩
  · simpa [Rlt.putMove] using f.slots
  · rw [same _ src]; exact f.blocks
  · rw [same _ id]; exact f.numbers
  · intro k hk
    obtain ⟨g, hg, rfl⟩ := List.mem_map.mp hk
    split
    · rw [id]; exact f.numbered m hm
    · exact f.numbered g hg
  · intro k hk
    obtain ⟨g, hg, e1, e2, e3⟩ := f.started k hk
    refine ⟨_, List.mem_map_of_mem (f := fun k => if k.mid = n.mid then n else k) hg, ?_⟩
    split
    · next h =>
      obtain rfl := one g hg h
      exact ⟨id.trans e1, src.trans e2, fun h => e3 (st h)⟩
    · exact ⟨e1, e2, e3⟩

/-- A request takes a free slot: no move of its block is in one. -/
theorem LocksFit.addMove {c : Channel} {r : Rlt} (f : LocksFit c r) (q : MoveReq) (spare : Nat) (room : r.moves.length < 4)
    (fresh : ∀ m ∈ r.moves, m.req.src ≠ q.src) :
    LocksFit c { r with moves := r.moves ++ [⟨r.nextMid, q, .starting, spare, 1⟩], nextMid := r.nextMid + 1 } where
  slots := by simp only [List.length_append, List.length_cons, List.length_nil]; omega
  blocks := by
    rw [List.map_append, List.nodup_append]
    refine ⟨f.blocks, List.nodup_singleton _, fun a ha b hb => ?_⟩
    obtain ⟨m, hm, rfl⟩ := List.mem_map.mp ha
    rw [List.mem_singleton.mp hb]
    exact fresh m hm
  numbers := by
    rw [List.map_append, List.nodup_append]
    refine ⟨f.numbers, List.nodup_singleton _, fun a ha b hb => ?_⟩
    obtain ⟨m, hm, rfl⟩ := List.mem_map.mp ha
    rw [List.mem_singleton.mp hb]
    exact Nat.ne_of_lt (f.numbered m hm)
  numbered m hm := by
    rcases List.mem_append.mp hm with h | h
    · exact Nat.lt_succ_of_lt (f.numbered m h)
    · rw [List.mem_singleton.mp h]; exact Nat.lt_succ_self _
  started k hk := by
    obtain ⟨m, hm, e⟩ := f.started k hk
    exact ⟨m, List.mem_append_left _ hm, e⟩
  once := f.once
  kept := f.kept

/-- Moves without a lock leave their slots. -/
theorem LocksFit.keepMoves {c : Channel} {r q : Rlt} (f : LocksFit c r) (p : Move → Bool) (hm : q.moves = r.moves.filter p)
    (hn : q.nextMid = r.nextMid) (free : ∀ m ∈ r.moves, p m = false → ∀ k ∈ c.locks, k.mid ≠ m.mid) : LocksFit c q where
  slots := hm ▸ (List.length_filter_le _ _).trans f.slots
  blocks := hm ▸ (List.filter_sublist.map _).nodup f.blocks
  numbers := hm ▸ (List.filter_sublist.map _).nodup f.numbers
  numbered m h := hn ▸ f.numbered m (List.mem_filter.mp (hm ▸ h)).1
  started k hk := by
    obtain ⟨m, h, e, rest⟩ := f.started k hk
    refine ⟨m, hm ▸ List.mem_filter.mpr ⟨h, ?_⟩, e, rest⟩
    cases hp : p m
    · exact absurd e.symm (free m h hp k hk)
    · rfl
  once := f.once
  kept := f.kept

/-! ### What the channel's operations hold -/

theorem Shrinks.refl (c : Channel) : Shrinks c c := ⟨.refl _, fun _ h _ => h⟩

theorem Shrinks.trans {c d e : Channel} (h : Shrinks c d) (k : Shrinks d e) : Shrinks c e :=
  ⟨k.locks.trans h.locks, fun x hx hf => h.entries x (k.entries x hx hf) hf⟩

/-- Locks, link, queue and waiting list are the same. -/
theorem Shrinks.same {c d : Channel} (hl : d.locks = c.locks) (hk : d.link = c.link) (hq : d.queue = c.queue)
    (hw : d.waiting = c.waiting) : Shrinks c d :=
  ⟨hl ▸ .refl _, fun e he _ => by simpa [Channel.entries, Channel.performing, hk, hq, hw] using he⟩

theorem mem_entries {c : Channel} {e : QEntry} :
    e ∈ c.entries ↔ c.performing = some e ∨ e ∈ c.queue ∨ e ∈ c.waiting := by
  simp [Channel.entries, Option.mem_toList]

/-- An entry that is not FOREGROUND joins the queue. -/
theorem Shrinks.enqueue (c : Channel) (e : QEntry) (h : e.isForeground = false) : Shrinks c { c with queue := c.queue ++ [e] } where
  locks := .refl _
  entries x hx hf := by
    rw [mem_entries] at hx ⊢
    rcases hx with hx | hx | hx
    · exact .inl hx
    · rcases List.mem_append.mp hx with hx | hx
      · exact .inr (.inl hx)
      · rw [List.mem_singleton.mp hx, h] at hf; cases hf
    · exact .inr (.inr hx)

/-- Entries and locks are only taken out. -/
theorem Shrinks.drop {c d : Channel} (hl : (d.locks.map Lock.key).Sublist (c.locks.map Lock.key)) (hk : d.performing = c.performing)
    (hq : d.queue ⊆ c.queue) (hw : d.waiting ⊆ c.waiting) : Shrinks c d :=
  ⟨hl, fun e he _ => by
    rw [mem_entries] at he ⊢
    exact he.imp (fun h => hk ▸ h) (.imp (fun h => hq h) fun h => hw h)⟩

theorem Shrinks.depart (c : Channel) (t : Tick) : Shrinks c (c.depart t) where
  locks := .refl _
  entries e he _ := by
    rw [mem_entries] at he ⊢
    rcases he with h | h | h
    · exact .inl h
    · rcases List.mem_append.mp h with h | h
      · exact .inr (.inl h)
      · exact .inr (.inr (List.mem_of_mem_take h))
    · exact .inr (.inr (List.mem_of_mem_drop h))

/-- The link performs nothing, or an entry the channel had or that is not FOREGROUND. -/
theorem Shrinks.relink {c d : Channel} (hl : d.locks = c.locks) (hq : d.queue = c.queue) (hw : d.waiting = c.waiting)
    (hk : ∀ e, d.performing = some e → e.isForeground = true → e ∈ c.entries) : Shrinks c d :=
  ⟨hl ▸ .refl _, fun e he hf => by
    rw [mem_entries, hq, hw] at he
    rcases he with h | h
    · exact hk e h hf
    · exact mem_entries.mpr (.inr h)⟩

theorem Shrinks.idle (c : Channel) : Shrinks c { c with link := .idle } :=
  .relink rfl rfl rfl fun _ h => by cases h

theorem Shrinks.dropMark (c : Channel) (b : Nat) : Shrinks c (c.dropMark b) := .same rfl rfl rfl rfl

theorem Shrinks.rewriteMark (c : Channel) (b : Nat) : Shrinks c (c.rewriteMark b) := .same rfl rfl rfl rfl

theorem Shrinks.endMove (c : Channel) (mid : Nat) : Shrinks c (c.endMove mid) :=
  .drop (List.filter_sublist.map _) rfl (List.filter_subset_self _) fun _ h => h

/-- A held list grows. -/
theorem Shrinks.addHeld (c : Channel) (b : Nat) (hs : List (CtxId × Nat)) : Shrinks c (c.addHeld b hs) := by
  have e : (c.addHeld b hs).locks.map Lock.key = c.locks.map Lock.key := by
    unfold Channel.addHeld
    rw [List.map_map]
    refine List.map_congr_left fun k _ => ?_
    simp only [Function.comp_apply]
    split <;> rfl
  exact .drop (e ▸ .refl _) rfl (fun _ h => h) (fun _ h => h)

theorem Shrinks.noteStart (c : Channel) (e : QEntry) : Shrinks c (noteStart c e) := by
  unfold Machine.noteStart
  (repeat' split) <;> exact .same rfl rfl rfl rfl

theorem Shrinks.noteReadEnd (c : Channel) (e : QEntry) (cls : ReadClass) (weak : Bool) (data : Bytes) :
    Shrinks c (c.noteReadEnd e cls weak data) := by
  unfold Channel.noteReadEnd
  (repeat' split) <;> exact .same rfl rfl rfl rfl

theorem Shrinks.noteWriteEnd (c : Channel) (e : QEntry) (ok : Bool) : Shrinks c (c.noteWriteEnd e ok) := by
  unfold Channel.noteWriteEnd
  (repeat' split) <;> exact .same rfl rfl rfl rfl

theorem Shrinks.endEntry (c : Channel) (e : QEntry) (t : Tick) : Shrinks c (c.endEntry e t) := by
  unfold Channel.endEntry
  dsimp only
  split
  · exact (Shrinks.idle c).trans (.depart _ t)
  · exact .idle c

theorem Shrinks.endMoves (ms : List Move) (c : Channel) : Shrinks c (ms.foldl (fun c m => c.endMove m.mid) c) := by
  induction ms generalizing c with
  | nil => exact .refl c
  | cons m ms ih => exact (Shrinks.endMove c m.mid).trans (ih _)

/-- After a move's end no lock is its. -/
theorem endMove_free (c : Channel) (mid : Nat) : ∀ k ∈ (c.endMove mid).locks, k.mid ≠ mid := fun k hk =>
  by simpa using (List.mem_filter.mp hk).2

theorem endMoves_free (ms : List Move) (c : Channel) :
    ∀ m ∈ ms, ∀ k ∈ (ms.foldl (fun c m => c.endMove m.mid) c).locks, k.mid ≠ m.mid := by
  induction ms generalizing c with
  | nil => simp
  | cons n ms ih =>
    intro m hm k hk
    rcases List.mem_cons.mp hm with rfl | hm
    · obtain ⟨g, hg, -, e⟩ := (Shrinks.endMoves ms (c.endMove m.mid)).lock hk
      exact e ▸ endMove_free c m.mid g hg
    · exact ih _ m hm k hk

/-! ### The state -/

/-- What of a state decides whether locks and moves fit together. -/
def lockView (s : State) (u : UnitId) : List Move × Nat × List (Nat × Nat) × List QEntry :=
  ((s.rlt u).moves, (s.rlt u).nextMid, (s.chan u).locks.map Lock.key, (s.chan u).entries)

theorem MoveLocksFit.view {s t : State} (f : MoveLocksFit s) (h : lockView t = lockView s) : MoveLocksFit t := fun u => by
  have e := congrFun h u
  simp only [lockView, Prod.mk.injEq] at e
  exact ((f u).shrinks ⟨e.2.2.1 ▸ .refl _, fun _ he _ => e.2.2.2 ▸ he⟩).sameMoves e.1 e.2.1

theorem setDurable_rlt (s : State) (d : Durable) (u : UnitId) : (s.setDurable d).rlt u = { s.rlt u with table := d.units[u] } := by
  unfold State.rlt
  rw [setDurable_rlts]
  exact Vector.getElem_ofFn _

theorem loadImage_rlt (im : Image) (s : State) (u : UnitId) :
    (loadImage im s).rlt u = { s.rlt u with table := if u.val < im.width then im.tables.units[u] else ⟨[], []⟩ } :=
  Vector.getElem_ofFn _

theorem lockView_device : DeviceFrame lockView :=
  ⟨⟨fun _ _ _ => rfl,
    fun x s => funext fun u => by
      simp only [lockView, forgetHeld_chan, Channel.entries, Channel.performing, List.map_map]; rfl,
    fun _ _ _ => rfl, fun _ _ => rfl, fun _ _ _ => rfl, fun _ _ => rfl, fun _ _ => rfl,
    fun s d => funext fun u => by simp only [lockView, setDurable_rlt, setDurable_chan]⟩,
    fun _ _ _ => rfl, fun _ _ => rfl, fun _ _ => rfl, fun _ _ => rfl, fun _ _ => rfl, fun _ _ _ => rfl,
    fun _ _ => rfl,
    fun im s => funext fun u => by
      have e : (loadImage im s).chan u = s.chan u := by unfold State.chan; rw [loadImage_chans]
      simp only [lockView, loadImage_rlt, e]⟩

theorem lockView_blocks : BlockFrame lockView := lockView_device.toBlockFrame

theorem MoveLocksFit.setChan {s : State} (f : MoveLocksFit s) {u : UnitId} {c : Channel} (h : LocksFit c (s.rlt u)) :
    MoveLocksFit (s.setChan u c) := fun v => by
  by_cases e : v = u
  · subst e; rw [chan_setChan_same, setChan_rlt]; exact h
  · rw [chan_setChan_other _ _ _ _ e, setChan_rlt]; exact f v

theorem MoveLocksFit.setRlt {s : State} (f : MoveLocksFit s) {u : UnitId} {r : Rlt} (h : LocksFit (s.chan u) r) :
    MoveLocksFit (s.setRlt u r) := fun v => by
  by_cases e : v = u
  · subst e; rw [rlt_setRlt_same, setRlt_chan]; exact h
  · rw [rlt_setRlt_other _ _ _ _ e, setRlt_chan]; exact f v

/-- Channel and table of a unit change together. -/
theorem MoveLocksFit.setBoth {s : State} (f : MoveLocksFit s) {u : UnitId} {c : Channel} {r : Rlt} (h : LocksFit c r) :
    MoveLocksFit ((s.setRlt u r).setChan u c) := fun v => by
  by_cases e : v = u
  · subst e; rw [chan_setChan_same, setChan_rlt, rlt_setRlt_same]; exact h
  · rw [chan_setChan_other _ _ _ _ e, setChan_rlt, rlt_setRlt_other _ _ _ _ e, setRlt_chan]; exact f v

theorem MoveLocksFit.shrink {s : State} (f : MoveLocksFit s) {u : UnitId} {c : Channel} (h : Shrinks (s.chan u) c) :
    MoveLocksFit (s.setChan u c) := f.setChan ((f u).shrinks h)

theorem MoveLocksFit.each {α : Type} {g : α → State → State} (hg : ∀ a t, MoveLocksFit t → MoveLocksFit (g a t)) (xs : List α)
    {s : State} (f : MoveLocksFit s) : MoveLocksFit (forEach xs g s) := by
  induction xs generalizing s with
  | nil => exact f
  | cons a xs ih => exact ih (hg a s f)

theorem MoveLocksFit.effEach {α : Type} {g : α → State → Eff} (hg : ∀ a t, MoveLocksFit t → MoveLocksFit (g a t).1) (xs : List α)
    {s : State} (f : MoveLocksFit s) : MoveLocksFit (effEach xs g s).1 := by
  induction xs generalizing s with
  | nil => exact f
  | cons a xs ih => exact ih (hg a s f)

/-- What the ends of moves at a warm reset leave at channels and tables. -/
theorem resetEnds_blocks (u : UnitId) (ms : List Move) (s : State) :
    (effEach ms (resetEndsMove u) s).1.chan u = ms.foldl (fun c m => c.endMove m.mid) (s.chan u)
      ∧ (∀ v, v ≠ u → (effEach ms (resetEndsMove u) s).1.chan v = s.chan v)
      ∧ ∀ v, (effEach ms (resetEndsMove u) s).1.rlt v = s.rlt v := by
  induction ms generalizing s with
  | nil => exact ⟨rfl, fun _ _ => rfl, fun _ => rfl⟩
  | cons m ms ih =>
    obtain ⟨h1, h2, h3⟩ := ih (resetEndsMove u m s).1
    exact ⟨h1.trans (by rw [resetEndsMove, channelRelease, chan_setChan_same]; rfl),
      fun v hv => (h2 v hv).trans (chan_setChan_other _ _ _ _ hv), h3⟩

variable {s : State} (f : MoveLocksFit s)
include f

/-! ### Moves' ends -/

theorem channelRelease_fits (u : UnitId) (mid : Nat) : MoveLocksFit (channelRelease u mid s).1 := f.shrink (.endMove _ mid)

/-- A move that leaves its slot takes its lock with it. -/
theorem leaveSlot_fits (u : UnitId) (mid : Nat) : MoveLocksFit (leaveSlot u mid s).1 := by
  refine f.setBoth (((f u).shrinks (.endMove _ mid)).keepMoves (fun m => m.mid != mid) rfl rfl fun m _ hp k hk => ?_)
  rw [eq_of_beq (by simpa using hp : (m.mid == mid) = true)]
  exact endMove_free _ mid k hk

theorem abandonMove_fits (u : UnitId) (m : Move) (code : AbandonCode) : MoveLocksFit (abandonMove u m code s).1 :=
  leaveSlot_fits f u m.mid

theorem movesLost_fits (u : UnitId) : MoveLocksFit (movesLost u s).1 := by
  refine f.setBoth (((f u).shrinks (.endMoves _ _)).keepMoves (fun m => !m.unbatched) rfl rfl fun m hm hp k hk => ?_)
  exact endMoves_free _ _ m (List.mem_filter.mpr ⟨hm, by simpa using hp⟩) k hk

theorem rltReset_fits (u : UnitId) : MoveLocksFit (rltReset u s).1 := fun v => by
  unfold rltReset
  dsimp only
  obtain ⟨h1, h2, h3⟩ := resetEnds_blocks u ((s.rlt u).moves.filter Move.unbatched)
    (s.setRlt u { s.rlt u with moves := (s.rlt u).moves.filter fun m => !m.unbatched, requests := [] })
  rw [h3 v]
  by_cases e : v = u
  · subst e
    rw [h1, rlt_setRlt_same]
    refine ((f v).shrinks (.endMoves _ _)).keepMoves (fun m => !m.unbatched) rfl rfl fun m hm hp k hk => ?_
    exact endMoves_free _ _ m (List.mem_filter.mpr ⟨hm, by simpa using hp⟩) k hk
  · rw [h2 v e, rlt_setRlt_other _ _ _ _ e]
    exact f v

/-! ### Requests and slots (R102 to R105) -/

theorem postDataLost_fits (u : UnitId) (b code : Nat) (lane : Option LaneId) : MoveLocksFit (postDataLost u b code lane s) :=
  f.view (postDataLost_frame lockView_blocks ..)

theorem raiseAtTake_fits (u : UnitId) (q : MoveReq) : MoveLocksFit (raiseAtTake u q s) :=
  f.view (raiseAtTake_frame lockView_blocks ..)

theorem abandonRequest_fits (u : UnitId) (q : MoveReq) (code : AbandonCode) : MoveLocksFit (abandonRequest u q code s).1 :=
  f.view (abandonRequest_frame lockView_blocks ..)

/-- Requests, failing spares and table of a unit change, its moves do not. -/
theorem sameMoves_fits (u : UnitId) (r : Rlt) (hm : r.moves = (s.rlt u).moves) (hn : r.nextMid = (s.rlt u).nextMid) :
    MoveLocksFit (s.setRlt u r) := f.setRlt ((f u).sameMoves hm hn)

/-- A request takes a slot that is free, its block in no other one. -/
theorem startMove_fits (u : UnitId) (q : MoveReq) (room : (s.rlt u).moves.length < 4)
    (fresh : ∀ m ∈ (s.rlt u).moves, m.req.src ≠ q.src) : MoveLocksFit (startMove u q s).1 := by
  unfold startMove startOn
  dsimp only
  split
  · exact abandonRequest_fits f u q _
  · exact f.setRlt ((f u).addMove q _ room fresh)

/-- A change of the record of a move in its slot. -/
theorem putMove_fits (u : UnitId) {m n : Move} (hm : m ∈ (s.rlt u).moves) (id : n.mid = m.mid) (src : n.req.src = m.req.src)
    (st : n.state = .starting → m.state = .starting) : MoveLocksFit (s.setRlt u ((s.rlt u).putMove n)) :=
  f.setRlt ((f u).putMove hm id src st)

theorem joinWaiting_fits (u : UnitId) (q : MoveReq) : MoveLocksFit (joinWaiting u q s).1 := by
  unfold joinWaiting
  dsimp only
  (repeat' split) <;> first | exact f | exact postDataLost_fits f _ _ _ _ | exact sameMoves_fits f _ _ rfl rfl

theorem joinStarted_fits (u : UnitId) (q : MoveReq) {comp : Move} (hm : comp ∈ (s.rlt u).moves) :
    MoveLocksFit (joinStarted u q comp s).1 := by
  unfold joinStarted
  dsimp only
  (repeat' split) <;> first
    | exact f | exact postDataLost_fits f _ _ _ _ | exact putMove_fits f u hm rfl rfl id | exact sameMoves_fits f _ _ rfl rfl

theorem placeRequest_fits (u : UnitId) (q : MoveReq) (fresh : ∀ m ∈ (s.rlt u).moves, m.req.src ≠ q.src) :
    MoveLocksFit (placeRequest u q s).1 := by
  unfold placeRequest
  dsimp only
  split
  · exact f
  · split
    · next h => exact startMove_fits f u q h.1 fresh
    · (repeat' split) <;> first | exact f | exact sameMoves_fits f _ _ rfl rfl

omit f in
theorem fresh_of_find {b : Nat} {ms : List Move} (h : ms.find? (fun m => m.req.src == b) = none) :
    ∀ m ∈ ms, m.req.src ≠ b := fun m hm e => by
  simpa [e] using List.find?_eq_none.mp h m hm

theorem takeRequest_fits (u : UnitId) (q : MoveReq) : MoveLocksFit (takeRequest u q s).1 := by
  unfold takeRequest
  have f := raiseAtTake_fits f u q
  dsimp only
  split
  · exact abandonRequest_fits f u q _
  · split
    · exact f
    · split
      · exact f
      · split
        · exact joinWaiting_fits f u q
        · split
          · next h => exact joinStarted_fits f u q (List.mem_of_find?_eq_some h)
          · next h => exact placeRequest_fits f u q (fresh_of_find h)

theorem slotFreed_fits (u : UnitId) : MoveLocksFit (slotFreed u s).1 := by
  unfold slotFreed
  dsimp only
  split
  · exact f
  · next room =>
    split
    · next q h =>
      have fresh : ∀ m ∈ (s.rlt u).moves, m.req.src ≠ q.src := fun m hm e => by
        have := List.find?_some h
        simp only [Rlt.inSlot, Bool.not_eq_true', List.any_eq_false] at this
        exact this m hm (by simpa using e)
      have g := sameMoves_fits f u { s.rlt u with requests := (s.rlt u).requests.erase q } rfl rfl
      exact startMove_fits g u q (by rw [rlt_setRlt_same]; exact Nat.lt_of_not_le room) (by rw [rlt_setRlt_same]; exact fresh)
    · exact f

/-! ### The course of a move (R106 to R108, R118) -/

omit f in
theorem mem_of_move {r : Rlt} {mid : Nat} {m : Move} (h : r.move mid = some m) : m ∈ r.moves ∧ m.mid = mid :=
  ⟨List.mem_of_find?_eq_some h, by simpa using List.find?_some h⟩

/-- A STARTING move has no lock. -/
theorem starting_unlocked {u : UnitId} {m : Move} (hm : m ∈ (s.rlt u).moves) (st : m.state = .starting) :
    ∀ k ∈ (s.chan u).locks, k.mid ≠ m.mid := fun k hk e => by
  obtain ⟨n, hn, e1, -, e3⟩ := (f u).started k hk
  exact e3 (List.inj_on_of_nodup_map (f u).numbers hn hm (e1.trans e) ▸ st)

theorem startDropped_fits {u : UnitId} {m : Move} (hm : m ∈ (s.rlt u).moves) (st : m.state = .starting) :
    MoveLocksFit (startDropped u m s).1 := by
  have g : MoveLocksFit (s.setRlt u ((s.rlt u).dropMove m.mid)) :=
    f.setRlt ((f u).keepMoves (fun n => n.mid != m.mid) rfl rfl fun n hn hp k hk => by
      rw [eq_of_beq (by simpa using hp : (n.mid == m.mid) = true)]
      exact starting_unlocked f hm st k hk)
  have room : ((s.rlt u).dropMove m.mid).moves.length < 4 :=
    Nat.lt_of_lt_of_le (List.length_filter_lt_length_iff_exists.mpr ⟨m, hm, by simp⟩) (f u).slots
  have fresh : ∀ n ∈ ((s.rlt u).dropMove m.mid).moves, n.req.src ≠ m.req.src := fun n hn e => by
    obtain ⟨h1, h2⟩ := List.mem_filter.mp hn
    rw [List.inj_on_of_nodup_map (f u).blocks h1 hm e] at h2
    simp at h2
  unfold startDropped
  dsimp only
  split
  · exact g
  · next w ws _ =>
    have src : (directedAgain (s.setRlt u ((s.rlt u).dropMove m.mid)) m.req.src w ws).src = m.req.src := rfl
    generalize directedAgain _ m.req.src w ws = q at src ⊢
    dsimp only
    exact startMove_fits g u q (by rw [rlt_setRlt_same]; exact room) (by rw [rlt_setRlt_same, src]; exact fresh)

theorem retryOn_fits {u : UnitId} {m : Move} (hm : m ∈ (s.rlt u).moves) (spare : Option Nat) :
    MoveLocksFit (retryOn u m spare s).1 := by
  unfold retryOn
  dsimp only
  (repeat' split) <;> first | exact abandonMove_fits f u m _ | exact putMove_fits f u hm rfl rfl id

theorem moveReadEnds_fits (u : UnitId) (mid : Nat) (out : MoveOutcome) : MoveLocksFit (moveReadEnds u mid out s).1 := by
  unfold moveReadEnds
  split
  · exact f
  · next m h =>
    have hm := (mem_of_move h).1
    dsimp only
    split
    · exact f
    · split
      · have g := postDataLost_fits f u m.req.src 3 m.req.lane
        have e : (postDataLost u m.req.src 3 m.req.lane s).rlt u = s.rlt u := by
          obtain ⟨n, e⟩ := postDataLost_ntuOnly u m.req.src 3 m.req.lane s
          rw [e]; rfl
        exact putMove_fits g u (m := m) (by rw [e]; exact hm) rfl rfl (fun e => by cases e)
      · exact leaveSlot_fits f u mid
      · exact abandonMove_fits f u m _
      all_goals exact putMove_fits f u hm rfl rfl (fun e => by cases e)

theorem moveWriteEnds_fits (u : UnitId) (mid : Nat) (out : MoveOutcome) : MoveLocksFit (moveWriteEnds u mid out s).1 := by
  unfold moveWriteEnds
  split
  · exact f
  · next m h =>
    have hm := (mem_of_move h).1
    split
    · exact f
    · split
      · exact putMove_fits f u hm rfl rfl (fun e => by cases e)
      · have g := sameMoves_fits f u { s.rlt u with failing := (s.rlt u).failing ++ [m.spare] } rfl rfl
        dsimp only at g ⊢
        exact retryOn_fits g (u := u) (m := m) (by rw [rlt_setRlt_same]; exact hm) _
      all_goals exact abandonMove_fits f u m _

/-! ### The start of a move (R88) -/

omit f in
theorem Shrinks.departs {α : Type} (xs : List α) (c : Channel) (t : Tick) : Shrinks c (xs.foldl (fun d _ => d.depart t) c) := by
  induction xs generalizing c with
  | nil => exact .refl c
  | cons a xs ih => exact (Shrinks.depart c t).trans (ih _)

omit f in
theorem departs_locks {α : Type} (xs : List α) (c : Channel) (t : Tick) :
    (xs.foldl (fun d _ => d.depart t) c).locks = c.locks := by
  induction xs generalizing c with
  | nil => rfl
  | cons a xs ih => exact (ih _).trans rfl

omit f in
/-- A move whose start the channel takes gets the block's one lock, and no FOREGROUND entry naming the block stays (R88). -/
theorem LocksFit.lock {c d : Channel} {r : Rlt} (g : LocksFit c r) {k : Lock} (hl : d.locks = c.locks ++ [k])
    (he : ∀ e ∈ d.entries, e.isForeground = true → e ∈ c.entries ∧ e.foregroundOn k.block = false)
    (mine : ∃ m ∈ r.moves, m.mid = k.mid ∧ m.req.src = k.block ∧ m.state ≠ .starting)
    (free : ∀ l ∈ c.locks, l.block ≠ k.block) : LocksFit d r where
  slots := g.slots
  blocks := g.blocks
  numbers := g.numbers
  numbered := g.numbered
  started l hk := by
    rcases List.mem_append.mp (hl ▸ hk) with h | h
    · exact g.started l h
    · rw [List.mem_singleton.mp h]; exact mine
  once := by
    rw [hl, List.map_append, List.nodup_append]
    refine ⟨g.once, List.nodup_singleton _, fun a ha b hb => ?_⟩
    obtain ⟨l, h, rfl⟩ := List.mem_map.mp ha
    rw [List.mem_singleton.mp hb]
    exact free l h
  kept l hk e h := by
    cases hf : e.foregroundOn l.block
    · rfl
    · obtain ⟨h1, h2⟩ := he e h (QEntry.isForeground_of_foregroundOn hf)
      rcases List.mem_append.mp (hl ▸ hk) with h | h
      · rw [g.kept l h e h1] at hf; cases hf
      · rw [List.mem_singleton.mp h, h2] at hf; cases hf

omit f in
/-- What a channel's and a table's view decide. -/
theorem LocksFit.view {c d : Channel} {r q : Rlt} (g : LocksFit c r) (hm : q.moves = r.moves) (hn : q.nextMid = r.nextMid)
    (hl : d.locks.map Lock.key = c.locks.map Lock.key) (he : d.entries = c.entries) : LocksFit d q :=
  (g.shrinks ⟨hl ▸ .refl _, fun _ h _ => he ▸ h⟩).sameMoves hm hn

omit f in
/-- Locks stay, and of the FOREGROUND entries those performed or on other blocks. -/
theorem giveBack_spec (c : Channel) (b : Nat) (t : Tick) :
    (c.giveBack b t).locks = c.locks
      ∧ ∀ e ∈ (c.giveBack b t).entries, e.isForeground = true →
          e ∈ c.entries ∧ (c.performing = some e ∨ e.foregroundOn b = false) := by
  refine ⟨departs_locks _ _ _, fun e he hf => ?_⟩
  have h := (Shrinks.departs _ _ _).entries e he hf
  rw [mem_entries] at h ⊢
  rcases h with h | h | h
  · exact ⟨.inl h, .inl h⟩
  · obtain ⟨h1, h2⟩ := List.mem_filter.mp h
    exact ⟨.inr (.inl h1), .inr (by simpa using h2)⟩
  · obtain ⟨h1, h2⟩ := List.mem_filter.mp h
    exact ⟨.inr (.inr h1), .inr (by simpa using h2)⟩

omit f in
theorem settleMark_view (c : Channel) (m : Move) : (c.settleMark m).locks = c.locks ∧ (c.settleMark m).entries = c.entries
    ∧ (c.settleMark m).performing = c.performing := by
  unfold Channel.settleMark
  split <;> exact ⟨rfl, rfl, rfl⟩

/-- The taken move goes on, and its channel holds the lock of its block. -/
theorem takenMove_fits {u : UnitId} {m n : Move} {d : Channel} {t : State} (hm : m ∈ (s.rlt u).moves) (st : m.state = .starting)
    (id : n.mid = m.mid) (src : n.req.src = m.req.src) (ns : n.state ≠ .starting) (same : lockView t = lockView (s.setChan u d))
    {k : Lock} (key : k.key = (m.req.src, m.mid)) (hl : d.locks = (s.chan u).locks ++ [k])
    (he : ∀ e ∈ d.entries, e.isForeground = true → e ∈ (s.chan u).entries ∧ e.foregroundOn m.req.src = false) :
    MoveLocksFit (t.setRlt u ((t.rlt u).putMove n)) := fun v => by
  have e := congrFun same v
  simp only [lockView, Prod.mk.injEq, setChan_rlt] at e
  by_cases h : v = u
  · subst h
    simp only [chan_setChan_same] at e
    rw [rlt_setRlt_same, setRlt_chan]
    obtain ⟨eb, em⟩ := Prod.mk.inj key
    have g := (f v).putMove hm id src fun h => absurd h ns
    refine (g.lock (d := d) (k := k) hl (fun x hx hf => eb ▸ he x hx hf) ⟨n, ?_, id.trans em.symm, src.trans eb.symm, ns⟩ ?_).view
      (by simp only [Rlt.putMove, e.1]) e.2.1 e.2.2.1 e.2.2.2
    · exact List.mem_map.mpr ⟨m, hm, if_pos id.symm⟩
    · intro l hl h
      obtain ⟨o, ho, e1, e2, e3⟩ := (f v).started l hl
      obtain rfl := List.inj_on_of_nodup_map (f v).blocks ho hm (e2.trans (h.trans eb))
      exact e3 st
  · rw [rlt_setRlt_other _ _ _ _ h, setRlt_chan]
    rw [chan_setChan_other _ _ _ _ h] at e
    exact (f v).view e.1 e.2.1 e.2.2.1 e.2.2.2

/-- A STARTING move is taken by its channel: it gets the lock of its block and goes on (R88, R106). -/
theorem startTaken_fits {u : UnitId} {m : Move} (hm : m ∈ (s.rlt u).moves) (st : m.state = .starting)
    (free : (s.chan u).performing.any (fun e => e.foregroundOn m.req.src) = false) :
    MoveLocksFit (startAccepted u m (setLock u m s)).1 := by
  obtain ⟨l1, l2, l3⟩ := settleMark_view (s.chan u) m
  obtain ⟨g1, g2⟩ := giveBack_spec ((s.chan u).settleMark m) m.req.src s.tick
  have he : ∀ e ∈ (((s.chan u).settleMark m).giveBack m.req.src s.tick).entries, e.isForeground = true →
      e ∈ (s.chan u).entries ∧ e.foregroundOn m.req.src = false := fun e h hf => by
    obtain ⟨h1, h2⟩ := g2 e h hf
    refine ⟨l2 ▸ h1, h2.elim (fun h => ?_) id⟩
    rw [l3] at h
    rw [h] at free
    simpa using free
  obtain ⟨held, view⟩ : ∃ held, lockView (setLock u m s) = lockView (s.setChan u
      { ((s.chan u).settleMark m).giveBack m.req.src s.tick with
        locks := (((s.chan u).settleMark m).giveBack m.req.src s.tick).locks ++ [⟨m.req.src, m.mid, held⟩] }) := by
    unfold setLock
    exact ⟨_, forEach_frame _ (fun _ _ => holdStep_frame lockView_blocks ..) _ _⟩
  have taken : ∀ (t : State) (n : Move), lockView t = lockView (setLock u m s) → n.mid = m.mid → n.req.src = m.req.src →
      n.state ≠ .starting → MoveLocksFit (t.setRlt u ((t.rlt u).putMove n)) := fun t n e id src ns =>
    takenMove_fits f hm st id src ns (e.trans view) (k := ⟨_, _, held⟩) rfl (by rw [g1, l1]) he
  unfold startAccepted
  dsimp only
  generalize e : setLock u m s = t at taken
  (repeat' split) <;>
    exact taken _ _ (by first | rfl | exact postDataLost_frame lockView_blocks ..) rfl rfl (fun h => by cases h)

theorem moveStart_fits (u : UnitId) (mid : Nat) : MoveLocksFit (moveStart u mid s).1 := by
  unfold moveStart
  split
  · exact f
  · next m h =>
    have hm := (mem_of_move h).1
    dsimp only
    split
    · exact f
    · next st =>
      rw [not_not] at st
      split
      · exact abandonMove_fits f u m _
      · split
        · have g := f.shrink (.dropMark (s.chan u) m.req.src)
          exact startDropped_fits g (by rw [setChan_rlt]; exact hm) st
        · split
          · refine f.shrink ?_
            split
            · exact .dropMark _ _
            · exact .refl _
          · next free => exact startTaken_fits f hm st (by simpa using free)

/-! ### Arrivals, selection and ends at the channel (R77, R78, R80 to R86, R93, R96) -/

omit f in
/-- A channel that holds no lock more, and of FOREGROUND entries none more on a locked block. -/
theorem LocksFit.entering {c d : Channel} {r : Rlt} (g : LocksFit c r) (hl : d.locks.map Lock.key = c.locks.map Lock.key)
    (he : ∀ e ∈ d.entries, e.isForeground = true → e ∈ c.entries ∨ ∀ k ∈ c.locks, e.foregroundOn k.block = false) :
    LocksFit d r where
  slots := g.slots
  blocks := g.blocks
  numbers := g.numbers
  numbered := g.numbered
  started k hk := by
    have sh : Shrinks c { d with link := .idle, queue := [], waiting := [] } :=
      ⟨hl ▸ .refl _, fun e h => by simp [Channel.entries, Channel.performing] at h⟩
    exact (g.shrinks sh).started k hk
  once := by
    have e : ∀ l : List Lock, l.map Lock.block = (l.map Lock.key).map Prod.fst := fun l => by
      rw [List.map_map]; rfl
    rw [e, hl, ← e]
    exact g.once
  kept k hk e h := by
    obtain ⟨l, hl, eq⟩ := List.mem_map.mp (hl ▸ List.mem_map_of_mem (f := Lock.key) hk)
    rw [show k.block = l.block from (congrArg Prod.fst eq).symm]
    by_cases hf : e.isForeground = true
    · exact (he e h hf).elim (g.kept l hl e) fun h => h l hl
    · simp [QEntry.foregroundOn, hf]

omit f in
theorem QEntry.on_of_block {e : QEntry} {b : Nat} (h : e.block ≠ b) : e.foregroundOn b = false := by
  simp [QEntry.foregroundOn, h]

theorem foregroundArrives_fits (x : CtxId) (j : Nat) (cmd : StepCmd) : MoveLocksFit (foregroundArrives x j cmd s).1 := by
  unfold foregroundArrives
  dsimp only
  split
  · exact f
  · split
    · exact MoveLocksFit.view (f.shrink (.addHeld ..)) (holdStep_frame lockView_blocks ..)
    · next free =>
      have unlocked : ∀ k ∈ (s.chan (s.unitOf (stepLogical (s.ctx x) j cmd))).locks,
          (stepEntry s x j cmd).foregroundOn k.block = false := fun k hk => QEntry.on_of_block fun e => by
        have := List.find?_eq_none.mp (Option.not_isSome_iff_eq_none.mp free) k hk
        exact this (by simp [e])
      split
      all_goals
        refine f.setChan ((f _).entering rfl fun e he _ => ?_)
        rw [mem_entries] at he ⊢
        rcases he with h | h | h
        · exact .inl (.inl h)
      · rcases List.mem_append.mp h with h | h
        · exact .inl (.inr (.inl h))
        · rw [List.mem_singleton.mp h]; exact .inr unlocked
      · exact .inl (.inr (.inr h))
      · exact .inl (.inr (.inl h))
      · rcases List.mem_append.mp h with h | h
        · exact .inl (.inr (.inr h))
        · rw [List.mem_singleton.mp h]; exact .inr unlocked

theorem moveEntryArrives_fits (u : UnitId) (mid : Nat) (cmd : StepCmd) (b : Nat) :
    MoveLocksFit (moveEntryArrives u mid cmd b s).1 := by
  unfold moveEntryArrives
  dsimp only
  split
  · exact f
  · exact f.shrink (.enqueue _ _ rfl)

theorem commitEntryArrives_fits (u : UnitId) (cmd : StepCmd) (b : Nat) : MoveLocksFit (commitEntryArrives u cmd b s).1 := by
  unfold commitEntryArrives
  dsimp only
  split
  · exact f
  · exact f.shrink (.enqueue _ _ rfl)

omit f in
theorem mem_noteStart {c : Channel} {e x : QEntry} (h : x ∈ (noteStart c e).entries) : x ∈ c.entries := by
  unfold noteStart at h
  (repeat' split at h) <;> exact h

/-- The link performs an entry that is on no locked block. -/
theorem sendEntry_fits (u : UnitId) (e : QEntry) (target : Nat) (data : Bytes) (poisoned : Bool)
    (free : e.isForeground = true → ∀ k ∈ (s.chan u).locks, e.foregroundOn k.block = false) :
    MoveLocksFit (sendEntry u e target data poisoned s) := by
  refine MoveLocksFit.view (f.setChan ((f u).entering ?_ fun x hx hf => ?_)) (lockView_blocks.emit _ _)
  · rfl
  · rw [mem_entries] at hx ⊢
    rcases hx with h | h
    · simp only [Channel.performing, Option.some.injEq] at h
      subst h
      exact .inr (free hf)
    · exact .inl (.inr h)

theorem startEntry_fits (u : UnitId) (e : QEntry)
    (free : e.isForeground = true → ∀ k ∈ (s.chan u).locks, e.foregroundOn k.block = false) :
    MoveLocksFit (startEntry u e s).1 := by
  have note := f.shrink (.noteStart (s.chan u) e)
  have sent : ∀ target data poisoned,
      MoveLocksFit (sendEntry u e target data poisoned (s.setChan u (noteStart (s.chan u) e))) := fun _ _ _ =>
    sendEntry_fits note u e _ _ _ fun hf => by
      rw [chan_setChan_same]
      intro k hk
      obtain ⟨g, hg, eb, -⟩ := (Shrinks.noteStart (s.chan u) e).lock hk
      exact eb ▸ free hf g hg
  unfold startEntry
  dsimp only
  (repeat' split) <;> first | exact f | exact sent _ _ _ | exact f.shrink (.depart _ _)

theorem selectEntry_fits (u : UnitId) : MoveLocksFit (selectEntry u s).1 := by
  unfold selectEntry
  dsimp only
  split
  · exact f
  · split
    · exact f
    · next e he =>
      have mem : e ∈ (s.chan u).queue := by
        unfold Channel.choose at he
        (repeat' split at he) <;> first
          | (cases he; exact List.mem_of_find?_eq_some ‹_›)
          | exact List.mem_of_find?_eq_some he
      have g := f.shrink (u := u) (c := { s.chan u with queue := (s.chan u).queue.erase e })
        (.drop (.refl _) rfl (List.erase_subset) fun _ h => h)
      refine startEntry_fits g u e fun _ => ?_
      rw [chan_setChan_same]
      exact fun k hk => (f u).kept k hk e (mem_entries.mpr (.inr (.inl mem)))

theorem readEnds_fits (u : UnitId) (e : QEntry) (target : Nat) (cls : ReadClass) (weak : Bool) (data : Bytes) :
    MoveLocksFit (readEnds u e target cls weak data s).1 :=
  f.shrink ((Shrinks.noteReadEnd _ e cls weak data).trans (.endEntry _ e _))

theorem writeEnds_fits (u : UnitId) (e : QEntry) (target : Nat) (ok poisoned : Bool) :
    MoveLocksFit (writeEnds u e target ok poisoned s).1 :=
  f.shrink ((Shrinks.noteWriteEnd _ e ok).trans (.endEntry _ e _))

theorem unitLoss_fits (u : UnitId) (e : QEntry) (target : Nat) : MoveLocksFit (unitLoss u e target s).1 := by
  unfold unitLoss
  dsimp only
  refine MoveLocksFit.view (f.shrink ?_) (postEvent_frame lockView_blocks ..)
  exact ⟨List.nil_sublist _, fun e h => by simp [Channel.entries, Channel.performing] at h⟩

theorem chanReset_fits (u : UnitId) : MoveLocksFit (chanReset u s).1 :=
  f.shrink (.drop (.refl _) rfl (List.filter_subset_self _) fun _ h => by cases h)

/-! ### Patrol (R79, R124 to R129) -/

theorem settleFinding_fits (u : UnitId) (b : Nat) : MoveLocksFit (settleFinding u b s) := f.shrink (.dropMark _ b)

theorem offerBlock_fits (u : UnitId) : MoveLocksFit (offerBlock u s).1 := by
  unfold offerBlock
  dsimp only
  have taken := f.view (offerTaken_frame lockView_blocks u s)
  have next := f.view (advanceCursor_frame lockView_blocks u s)
  (repeat' split)
  · exact startEntry_fits taken u _ fun h => by cases h
  · exact next.view (setSub_frame lockView_blocks ..)
  · exact next
  · exact taken
  · exact f.view (modPatrolUnit_frame lockView_blocks ..)
  · exact f.view (modPatrolUnit_frame lockView_blocks ..)
  · exact f.view (stopUnit_frame lockView_blocks ..)

theorem becomeReady_fits (u : UnitId) : MoveLocksFit (becomeReady u s).1 := by
  have g := f.view (setSub_frame lockView_blocks u .ready s)
  unfold becomeReady
  dsimp only
  (repeat' split)
  · exact g
  · exact g.view (modPatrolUnit_frame lockView_blocks ..)
  · exact offerBlock_fits g u

theorem quietReport_fits (u : UnitId) : MoveLocksFit (quietReport u s).1 := by
  unfold quietReport
  (repeat' split) <;> first | exact f | exact becomeReady_fits f u

theorem freeSlotReport_fits (u : UnitId) : MoveLocksFit (freeSlotReport u s).1 := by
  unfold freeSlotReport
  split <;> first | exact f | exact becomeReady_fits f u

theorem findingAnswered_fits (u : UnitId) (b : Nat) (tag : FindingTag) (ans : FindingAnswer) :
    MoveLocksFit (findingAnswered u b tag ans s).1 := by
  have g := settleFinding_fits f u b
  unfold findingAnswered
  (repeat' split)
  · exact f.view ((blockDone_frame lockView_blocks ..).trans (modPatrolUnit_frame lockView_blocks ..))
  · exact g.view (blockDone_frame lockView_blocks ..)
  · exact g.view (blockDone_frame lockView_blocks ..)
  · exact g.view (setSub_frame lockView_blocks ..)
  · exact f

/-! ### Commits (R145 to R149) -/

theorem moveEnds_fits (u : UnitId) (mid spare : Nat) (fate : ChangeFate) : MoveLocksFit (moveEnds u mid spare fate s).1 := by
  unfold moveEnds
  split
  · exact f
  · exact leaveSlot_fits f u mid

theorem batchEnds_fits (fate : ChangeFate) (batch : List Change) : MoveLocksFit (batchEnds fate batch s).1 := by
  refine MoveLocksFit.effEach (fun chg t g => ?_) batch f
  unfold rltChangeEnds
  split
  · exact moveEnds_fits g _ _ _ _
  · exact sameMoves_fits g _ _ rfl rfl
  all_goals exact g

theorem degradeUnits_fits (gen : Nat) : MoveLocksFit (degradeUnits gen s) := by
  refine MoveLocksFit.each (fun u t g => ?_) _ f
  split
  · exact (g.shrink (c := { t.chan u with state := .degraded }) (.same rfl rfl rfl rfl)).view (postEvent_frame lockView_blocks ..)
  · exact g

theorem commitSucceeds_fits (fl : InFlight) : MoveLocksFit (commitSucceeds fl s).1 := by
  unfold commitSucceeds
  dsimp only
  refine batchEnds_fits (degradeUnits_fits ?_ _) _ _
  refine f.view ?_
  rw [spareLowEvents_frame lockView_blocks, relocatedEvents_frame lockView_blocks, regionEvents_frame lockView_blocks,
    clearMarks_frame lockView_blocks, lockView_blocks.durable, lockView_device.cme, mirrorEvents_frame lockView_blocks]

theorem commitFails_fits (fl : InFlight) (code : Nat) : MoveLocksFit (commitFails fl code s).1 := by
  unfold commitFails
  dsimp only
  refine batchEnds_fits (f.view ?_) _ _
  rw [postEvent_frame lockView_blocks, clearMarks_frame lockView_blocks, lockView_device.cme]

theorem engine_fits (c : Cme) : MoveLocksFit (s.setCme c) := f.view (lockView_device.cme s c)

theorem writingBegin_fits : MoveLocksFit (writingBegin s).1 := by
  unfold writingBegin
  dsimp only
  (repeat' split) <;> first | exact f | exact commitFails_fits f _ _

theorem attemptEnds_fits (fl : InFlight) : MoveLocksFit (attemptEnds fl s).1 := by
  unfold attemptEnds
  dsimp only
  (repeat' split) <;> first | exact commitSucceeds_fits f _ | exact commitFails_fits f _ _ | exact engine_fits f _

theorem copyEnds_fits (u : UnitId) (out : CopyOutcome) : MoveLocksFit (copyEnds u out s).1 := by
  unfold copyEnds
  dsimp only
  (repeat' split) <;> first | exact f | exact engine_fits f _ | exact attemptEnds_fits (engine_fits f _) _

theorem takeBatch_fits : MoveLocksFit (takeBatch s).1 := by
  unfold takeBatch
  dsimp only
  split
  · exact commitFails_fits (engine_fits f _) _ _
  · exact batchEnds_fits ((engine_fits f _).view (markClosing_frame lockView_blocks ..)) _ _

theorem closingCheck_fits : MoveLocksFit (closingCheck s).1 := by
  unfold closingCheck
  split <;> first | exact f | exact writingBegin_fits f

theorem changeArrives_fits (chg : Change) : MoveLocksFit (changeArrives chg s).1 := by
  unfold changeArrives
  dsimp only
  split <;> first | exact f | exact engine_fits f _ | exact takeBatch_fits (engine_fits f _)

theorem engineLeaves_fits : MoveLocksFit (engineLeaves s).1 := by
  unfold engineLeaves
  (repeat' split) <;> first | exact f | exact engine_fits f _ | exact takeBatch_fits f

/-! ### The probe (R192, R193) -/

theorem probePasses_fits (n : Nat) : MoveLocksFit (probePasses n s) := by
  unfold probePasses
  refine MoveLocksFit.view ?_ ((lockView_device.dev _ _).trans (loadsOver_event lockView_device _))
  refine MoveLocksFit.each (fun u t g => ?_) _ (f.view (lockView_device.width s n))
  exact g.shrink (.same rfl rfl rfl rfl)

theorem probeCheck_fits : MoveLocksFit (probeCheck s) := by
  unfold probeCheck freshStart
  (repeat' split)
  · exact probePasses_fits (f.view (lockView_device.load ..)) _
  · exact probePasses_fits (f.view (lockView_device.load ..)) _
  · exact f.view ((probeFails_event lockView_device _).trans (lockView_device.load ..))
  · exact f

/-! ### One internal effect and all of them -/

/-- Every internal effect keeps locks and moves fit (R88, R104). -/
theorem handle_fits (m : Msg) : MoveLocksFit (handle m s).1 := by
  cases m <;> simp only [handle, quietly]
  case foregroundArrives => exact foregroundArrives_fits f _ _ _
  case moveEntryArrives => exact moveEntryArrives_fits f _ _ _ _
  case commitEntryArrives => exact commitEntryArrives_fits f _ _ _
  case select => exact selectEntry_fits f _
  case quiet => exact quietReport_fits f _
  case takeDeferred => exact f
  case moveStart => exact moveStart_fits f _ _
  case reissue => exact f.view (reissueStep_frame lockView_blocks ..)
  case stepEnds => exact f.view (stepEnds_frame lockView_blocks ..)
  case moveBatched => exact f.view (moveBatched_frame lockView_blocks ..)
  case blockEnds => exact f.view (blockEnds_frame lockView_blocks ..)
  case changeEnds => exact f.view (changeEnds_frame lockView_blocks ..)
  case passEnded => exact f.view (passEnded_frame lockView_blocks ..)
  case moveRequest => exact takeRequest_fits f _ _
  case moveReadEnds => exact moveReadEnds_fits f _ _ _
  case moveWriteEnds => exact moveWriteEnds_fits f _ _ _
  case slotFreed => exact slotFreed_fits f _
  case movesLost => exact movesLost_fits f _
  case patrolReady => exact becomeReady_fits f _
  case patrolReadEnds => exact f.view (patrolReadEnds_frame lockView_blocks ..)
  case findingAnswered => exact findingAnswered_fits f _ _ _ _
  case findingEnded => exact f.view (findingEnded_frame lockView_blocks ..)
  case freeSlotReport => exact freeSlotReport_fits f _
  case patrolLost => exact f.view (patrolLost_frame lockView_blocks ..)
  case passPosted => exact f.view (passPosted_frame lockView_blocks ..)
  case passClosed => exact f.view (passClosed_frame lockView_blocks ..)
  case passRestart => exact f.view (startPass_frame lockView_blocks ..)
  case passCheck => rw [passCheck_fst]; exact f
  case change => exact changeArrives_fits f _
  case poisonClear => exact f.view (takePoisonClear_frame lockView_blocks lockView_device.cme ..)
  case closingCheck => exact closingCheck_fits f
  case copyEnds => exact copyEnds_fits f _ _
  case engineLeaves => exact engineLeaves_fits f
  case loadReadEnds => exact f.view (loadReadEnds_frame lockView_blocks lockView_device.cme ..)
  case probeCheck => exact probeCheck_fits f

omit f in
theorem drain_fits (n : Nat) (ms : List Msg) {s : State} (f : MoveLocksFit s) : MoveLocksFit (drain n ms s) := by
  induction n generalizing ms s with
  | zero => exact f
  | succ n ih =>
    cases ms with
    | nil => exact f
    | cons m rest => exact ih _ (handle_fits f m)

omit f in
/-- An event's own effect that keeps locks and moves fit keeps them so with all it sets off. -/
theorem workOff_fits {e : Eff} (f : MoveLocksFit e.1) : MoveLocksFit (workOff e) := drain_fits _ _ f

/-- The tests an event ends with keep locks and moves fit. -/
theorem finishEvent_fits : MoveLocksFit (finishEvent s) := by
  obtain ⟨t, e, h | h⟩ := finishEvent_settled (p := lockView) (s := s) lockView_device rfl
  · exact h ▸ f.view e
  · exact h ▸ (f.view e).view ((lockView_device.dev _ _).trans (lockView_blocks.ntu ..))

omit f in
theorem runEvent_fits {e : Eff} (f : MoveLocksFit e.1) : MoveLocksFit (runEvent e) := finishEvent_fits (workOff_fits f)

theorem resetBlocks_fits : MoveLocksFit (resetBlocks s).1 := by
  unfold resetBlocks andThen
  dsimp only
  rw [patrolReset_fst]
  refine MoveLocksFit.effEach (fun u t g => rltReset_fits g u) _ (MoveLocksFit.effEach (fun u t g => chanReset_fits g u) _ ?_)
  refine f.view (forEach_frame _ (fun l t => ?_) _ _)
  split
  · exact laneHaltedAbort_event lockView_device l t
  · exact laneAbort_event lockView_device l t

end Sys2Proof.Machine
end

