-- ==== Sys2Proof/Tests/Slice0.lean ====
section
/-! SUPPORT. Tests: an ill-formed command for each check of `wellFormed`, the commands that register writes make, one step
of each family on a small state, and for every statement with hypotheses a state and operands that meet them. -/

namespace Sys2Proof.Machine.Tests

set_option Elab.async false

/-! ### Ill-formed commands -/

theorem test_settings_read_of_wrong_length : (Instr.runTaken (.data [0]) 0).wellFormed = false := by decide
theorem test_signal_without_lane :
    (Instr.start 0).wellFormed = false ∧ (Instr.look 0).wellFormed = false ∧ (Instr.abort 0).wellFormed = false := by decide
theorem test_acknowledge_without_route : (Instr.acknowledge 0).wellFormed = false := by decide
theorem test_ignored_write_with_an_action :
    (Instr.ignoredWrite 8 4 1).wellFormed = false ∧ (Instr.ignoredWrite 20 4 0x101).wellFormed = false
      ∧ (Instr.ignoredWrite 24 4 2).wellFormed = false ∧ (Instr.ignoredWrite 12 4 0).wellFormed = false
      ∧ (Instr.ignoredWrite 64 2 0).wellFormed = false := by decide
theorem test_ignored_writes :
    (Instr.ignoredWrite 8 4 8).wellFormed = true ∧ (Instr.ignoredWrite 12 2 5).wellFormed = true
      ∧ (Instr.ignoredWrite 28 4 1).wellFormed = true ∧ (Instr.ignoredWrite 63 1 1).wellFormed = true := by decide
theorem test_segment_list_of_wrong_length :
    (Instr.listReadEnd 0 (.data (zeros 15)) 0).wellFormed = false
      ∧ (Instr.listReadEnd 0 (.data (zeros 1040)) 0).wellFormed = false := by decide +kernel
theorem test_host_read_of_wrong_length : (Instr.hostReadEnd 0 0 (.data [1]) 0).wellFormed = false := by decide +kernel
theorem test_host_read_of_no_block : (Instr.hostReadEnd 0 4096 .busError 0).wellFormed = false := by decide
theorem test_buffer_write_of_no_block : (Instr.bufferWriteEnd 0 4096 false 0).wellFormed = false := by decide
theorem test_config_read_of_wrong_length : (Instr.configReadEnd 0 (.data []) 0).wellFormed = false := by decide
theorem test_fetch_of_wrong_length : (Instr.fetchEnd 0 (.data (zeros 127)) 0).wellFormed = false := by decide +kernel
theorem test_read_answer_of_wrong_length : (Instr.readAnswer 0 1 (.clean [])).wellFormed = false := by decide
theorem test_corrected_out_of_range :
    (Instr.readAnswer 0 1 (.corrected 9 zeroBlock)).wellFormed = false
      ∧ (Instr.readAnswer 0 1 (.corrected 0 zeroBlock)).wellFormed = false
      ∧ (Instr.readAnswer 0 1 (.corrected 8 zeroBlock)).wellFormed = true := by decide +kernel
theorem test_one_control_bit_is_not_refused :
    (Instr.controlRefused 4).wellFormed = false ∧ (Instr.controlRefused 5).wellFormed = true := by decide

/-! ### Register writes as commands (section 10.1) -/

theorem test_control_writes :
    windowCommand 8 4 1 = some .run ∧ windowCommand 8 4 2 = some .stop ∧ windowCommand 8 4 0xFFFFFFF4 = some .reset
      ∧ windowCommand 8 4 3 = some (.controlRefused 3) ∧ windowCommand 8 4 0 = some (.ignoredWrite 8 4 0) := by decide
theorem test_lane_signal_writes :
    windowCommand 20 4 0x501 = some (.start 5) ∧ windowCommand 20 4 0x102 = some (.look 1)
      ∧ windowCommand 20 4 0xF03 = some (.abort 15) ∧ windowCommand 20 4 0xF00 = some (.ignoredWrite 20 4 0xF00)
      ∧ windowCommand 20 4 1 = some (.ignoredWrite 20 4 1) := by decide
theorem test_other_writes :
    windowCommand 12 4 0x1000 = some (.anchorLo 0x1000) ∧ windowCommand 16 4 7 = some (.anchorHi 7)
      ∧ windowCommand 24 4 3 = some (.acknowledge 3) ∧ windowCommand 24 1 3 = some (.ignoredWrite 24 1 3)
      ∧ windowCommand 60 4 3 = some (.ignoredWrite 60 4 3) ∧ windowCommand 64 4 3 = none := by decide

/-! ### Small states -/

/-- A device of two member units, STOPPED, no anchor set, nothing going on. -/
def stoppedState : State :=
  { State.reset with
    dev := ⟨.stopped, .none, false, false, false⟩
    width := 2
    chans := #v[
      { Channel.cold 1 with state := .online, member := true, identified := some true },
      { Channel.cold 1 with state := .online, member := true, identified := some true },
      { Channel.cold 1 with identified := some false },
      { Channel.cold 1 with identified := some false }]
    cme := { Cme.cold with state := .idle }
    out := [] }

/-- The same device with an anchor set. -/
def anchored : State := { stoppedState with anchor := 0x1000 }

/-- The same device RUNNING, at tick 5000. -/
def runningState : State := { anchored with dev := ⟨.running, .none, false, false, false⟩, tick := 5000 }

/-- The device in another state, with another fault code. -/
def inState (d : DevState) (f : FaultCode) (s : State) : State := { s with dev := ⟨d, f, false, false, false⟩ }

/-- The device HALTED on a failed result write. -/
def haltedState : State := inState .halted .resultError anchored

/-- A 128-byte record: seq 7, state, op, flags, region, offset, count, seg_count, 32 argument bytes, two segments. -/
def recordOf (st op flags region : Byte) (offset count segs : Nat) (args : Bytes) (seg : Bytes) : Bytes :=
  padTo 128 (leBytes 8 0 ++ leBytes 4 7 ++ [st, op, flags, region] ++ leBytes 4 offset ++ leBytes 2 count ++ leBytes 2 segs
    ++ padTo 32 args ++ seg)

/-- A segment. -/
def segmentBytes (a len : Nat) : Bytes := leBytes 8 a ++ leBytes 8 len

/-- Lane 0 with the record staged from address 0x8000, with the table right. -/
def stagedLane (r : Bytes) : Lane :=
  { Lane.cold with
    state := .staged
    cfg := ⟨0x8000, 7, .a, true, 0⟩
    expSeq := 8
    staged := some r
    window := [⟨7, 0x8000, .staged, false, false, false, false⟩]
    retireSeq := 6
    resume := 0x8000 }

/-- Region 3: logical blocks 100 to 163, owner lane 0. -/
def regionDef (st : RegionState) : RegionDef := ⟨100, 64, 1, st, 0, if st = .fixed then some 0 else none⟩

/-- The running device with region 3 defined and the record staged in lane 0. -/
def withRecord (st : RegionState) (r : Bytes) : State :=
  let s := runningState.setRegion 3 ⟨some (regionDef st), 0, none, false⟩
  s.setLane 0 (stagedLane r)

/-- The state after a command. -/
def after (c : Instr) (s : State) : State :=
  match exec c s with
  | .next t => t
  | .fault _ => s
  | .refused _ => s

/-- A timer that is stopped or not due, in a form that can be computed. -/
theorem notDue_of {now : Tick} {o : Option Tick} (h : o.all (fun t => !reached now t) = true) :
    ∀ t, o = some t → reached now t = false := by
  rintro t rfl
  simpa using h

/-! ### What a grant needs -/

theorem granted_of {s : State} {r : Bytes} {k : OpKind}
    (h : grantOf s = some (0, 0, r) ∧ recKind r = k ∧ (s.lane 0).stagedAddr = some 0x8000) : Grants s 0 0 r k 0x8000 :=
  ⟨h.1, h.2.1, h.2.2⟩

/-- The record is granted and passes its checks, in a form that can be computed. -/
def isAccepted (s : State) (r : Bytes) (k : OpKind) : Bool :=
  grantOf s == some (0, 0, r) && recKind r == k && (s.lane 0).stagedAddr == some 0x8000
    && firstFail (argumentChecks s k r) == none && !recSeglist r
    && firstFail (accessChecks s k r 0 (s.lane 0).cfg.tableRight) == none

theorem accepted_of {s : State} {r : Bytes} {k : OpKind} (h : isAccepted s r k = true) :
    Grants s 0 0 r k 0x8000 ∧ PassesChecks s 0 r k := by
  simp only [isAccepted, Bool.and_eq_true, beq_iff_eq, Bool.not_eq_true'] at h
  obtain ⟨⟨⟨⟨⟨h1, h2⟩, h3⟩, h4⟩, h5⟩, h6⟩ := h
  exact ⟨⟨h1, h2, h3⟩, ⟨h4, h5, h6⟩⟩

/-- Records on region 3. The windows begin and end at the region's ends (blocks 0 and 63). -/
def readRecord : Bytes := recordOf 1 0x01 0 3 0 1 1 [] (segmentBytes 0x20000 4096)
def writeRecord : Bytes := recordOf 1 0x02 0 3 63 1 2 [] (segmentBytes 0x20000 512 ++ segmentBytes 0x30000 3584)
def fillRecord : Bytes := recordOf 1 0x03 0 3 0 64 0 [1, 2, 3, 4, 5, 6, 7, 8] []
def blankRecord : Bytes := recordOf 1 0x03 0x10 3 0 1 0 [] []
def copyRecord : Bytes := recordOf 1 0x04 0 3 0 32 0 [3, 0, 0, 0, 32, 0, 0, 0] []
def verifyRecord : Bytes := recordOf 1 0x05 0x08 3 0 64 0 [] []
def digestRecord : Bytes := recordOf 1 0x06 0 3 5 2 0 [] []
def relocateRecord : Bytes := recordOf 1 0x07 0 3 1 1 0 [] []
def barrierRecord : Bytes := recordOf 1 0x08 0 0 0 0 0 [] []
def tableReadRecord : Bytes := recordOf 1 0x09 0 0 0 0 1 [0, 0] (segmentBytes 0x20000 1024)
def relocationReadRecord : Bytes := recordOf 1 0x09 0 0 0 0 1 [1, 1] (segmentBytes 0x20000 16384)
def startPassRecord : Bytes := recordOf 1 0x0A 0 0 0 0 0 [1] []
def stopPassRecord : Bytes := recordOf 1 0x0A 0 0 0 0 0 [2] []
def setRecord : Bytes := recordOf 1 0x0A 0 0 0 0 0 [3, 1, 7, 0, 0xD0, 7, 0, 0, 100, 0, 0, 0] []
def defineRecord : Bytes := recordOf 1 0x10 0 0 0 0 0 [31, 15, 1, 0, 0, 0, 0, 0, 100, 0, 0, 0] []
def deleteRecord : Bytes := recordOf 1 0x11 0 3 0 0 0 [] []
def guardRecord : Bytes := recordOf 1 0x12 0 3 0 0 0 [] []
def releaseRecord : Bytes := recordOf 1 0x13 0 3 0 0 0 [] []
def fixRecord : Bytes := recordOf 1 0x14 0 3 0 0 0 [] []
def lockdownRecord : Bytes := recordOf 1 0x15 0 0 0 0 0 [] []
def unknownRecord : Bytes := recordOf 1 0x7F 0 0 0 0 0 [] []
def listRecord : Bytes := recordOf 1 0x01 4 3 0 8 64 [] (leBytes 8 0x40000)

/-- The patrol unit with a pace set, IDLE. -/
def paced (s : State) : State := { s with patrol := { s.patrol with cfg := ⟨100, 2000, 4, false⟩ } }
/-- The patrol unit with a pass under way. -/
def inPass (s : State) : State := { paced s with patrol := { (paced s).patrol with running := true, passNumber := 1 } }

theorem test_data_records_are_accepted :
    ([(.read, readRecord), (.write, writeRecord), (.fill, fillRecord), (.fill, blankRecord), (.copy, copyRecord),
      (.verify, verifyRecord), (.digest, digestRecord), (.relocate, relocateRecord), (.barrier, barrierRecord),
      (.tableRead, tableReadRecord), (.tableRead, relocationReadRecord), (.stopPass, stopPassRecord), (.setPatrol, setRecord),
      (.lockdown, lockdownRecord)] : List (OpKind × Bytes)).all
      (fun p => isAccepted (withRecord .opened p.2) p.2 p.1) = true := by decide +kernel

theorem test_start_pass_is_accepted :
    isAccepted (paced (withRecord .opened startPassRecord)) startPassRecord .startPass = true := by decide +kernel

theorem test_stop_pass_of_a_running_pass_is_accepted :
    isAccepted (inPass (withRecord .opened stopPassRecord)) stopPassRecord .stopPass = true
      ∧ (inPass (withRecord .opened stopPassRecord)).patrol.running = true
      ∧ (withRecord .opened stopPassRecord).patrol.running = false := by decide +kernel

theorem test_set_without_ready_units :
    ¬ ((withRecord .opened setRecord).patrol.cfg.pace = 0 ∧ 0 < argPace setRecord
      ∧ (withRecord .opened setRecord).patrol.running = true) := by decide +kernel

/-- Region operations that change the region, and those that leave it as it is (R12). -/
theorem test_region_operations_are_accepted :
    ([(.opened, .regionDefine, defineRecord), (.opened, .regionDelete, deleteRecord), (.opened, .regionGuard, guardRecord),
      (.guarded, .regionRelease, releaseRecord), (.opened, .regionFix, fixRecord), (.guarded, .regionFix, fixRecord)]
        : List (RegionState × OpKind × Bytes)).all
      (fun p => isAccepted (withRecord p.1 p.2.2) p.2.2 p.2.1 && !opNoChange (withRecord p.1 p.2.2) p.2.1 p.2.2) = true
    ∧ ([(.guarded, .regionGuard, guardRecord), (.opened, .regionRelease, releaseRecord), (.fixed, .regionFix, fixRecord)]
        : List (RegionState × OpKind × Bytes)).all
      (fun p => isAccepted (withRecord p.1 p.2.2) p.2.2 p.2.1 && opNoChange (withRecord p.1 p.2.2) p.2.1 p.2.2) = true := by
  decide +kernel

/-- A BAD_OP record, and records refused at step 2 (BAD_ARG) and at a later step (NO_REGION, LOCKED_DOWN). -/
theorem test_refused_records :
    Grants (withRecord .opened unknownRecord) 0 0 unknownRecord .badOp 0x8000
    ∧ firstFail (argumentChecks (withRecord .opened unknownRecord) .badOp unknownRecord) = some .badOp
    ∧ (Grants (withRecord .opened (readRecord.set 14 0x10)) 0 0 (readRecord.set 14 0x10) .read 0x8000
      ∧ firstFail (argumentChecks (withRecord .opened (readRecord.set 14 0x10)) .read (readRecord.set 14 0x10)) = some .badArg)
    ∧ (Grants (withRecord .opened (readRecord.set 15 4)) 0 0 (readRecord.set 15 4) .read 0x8000
      ∧ firstFail (argumentChecks (withRecord .opened (readRecord.set 15 4)) .read (readRecord.set 15 4)) = none
      ∧ recSeglist (readRecord.set 15 4) = false
      ∧ firstFail (accessChecks (withRecord .opened (readRecord.set 15 4)) .read (readRecord.set 15 4) 0 true)
        = some .noRegion) :=
  ⟨granted_of (by decide +kernel), by decide +kernel, ⟨granted_of (by decide +kernel), by decide +kernel⟩,
    granted_of (by decide +kernel), by decide +kernel⟩

/-- A record with SEGLIST of 64 segments, and a row whose operation is not granted. -/
theorem test_segment_list_record :
    Grants (withRecord .opened listRecord) 0 0 listRecord .read 0x8000
    ∧ firstFail (argumentChecks (withRecord .opened listRecord) .read listRecord) = none ∧ recSeglist listRecord = true
    ∧ ∀ l x r, grantOf runningState = some (l, x, r) → recKind r ≠ .read :=
  ⟨granted_of (by decide +kernel), by decide +kernel, by decide +kernel, by
    intro l x r h
    have : grantOf runningState = none := by decide +kernel
    simp [this] at h⟩

theorem test_arbiter_grants_lane_0 :
    grantLane (withRecord .opened readRecord) = some 0
      ∧ (walkFrom (withRecord .opened readRecord).dar.pointer)[0]? = some 0
      ∧ freeCtx (withRecord .opened readRecord) = some 0
      ∧ eligible (withRecord .opened readRecord) 0 = true := by decide +kernel

/-- The check before lockdown passes, and with lockdown set the operation is LOCKED_DOWN. -/
theorem test_lockdown_refuses_region_operations :
    ([(.regionDefine, defineRecord), (.regionDelete, deleteRecord), (.regionGuard, guardRecord), (.regionRelease, releaseRecord),
      (.regionFix, fixRecord)] : List (OpKind × Bytes)).all
      (fun p =>
        firstFail (accessChecks (withRecord .opened p.2) p.1 p.2 0 true) == none
          && firstFail (accessChecks { withRecord .opened p.2 with lockdown := true } p.1 p.2 0 true) == some .lockedDown)
      = true := by decide +kernel

/-! ### Queue, resets, control and anchor -/

theorem test_front_command_and_empty_queue :
    ({ stoppedState with pending := [.run, .stop] } : State).pending = .run :: [.stop] ∧ stoppedState.pending = []
      ∧ ∀ source, Instr.run ≠ .coldReset source := by
  refine ⟨rfl, rfl, ?_⟩
  intro source h
  cases h

/-- A device whose reset input is held. -/
def heldInput : State := { State.reset with dev := { State.reset.dev with resetAsserted := true } }

theorem test_reset_input_both_levels :
    heldInput.dev.resetAsserted = true ∧ State.reset.dev.resetAsserted = false
      ∧ ((after .resetInputRelease heldInput).chan 3).link = .identify false 2 2000 := by decide +kernel

/-- The device in a warm reset. -/
def inReset : State := { runningState with dev := ⟨.stopping, .none, true, false, false⟩ }

theorem test_resets_ignored_and_taken :
    State.reset.dev.state = .probing
      ∧ (inState .halted .probeLayout stoppedState).dev.fault = .probeLayout
      ∧ inReset.dev.resetInProgress = true
      ∧ ([stoppedState, runningState, inState .stopping .none anchored, haltedState]).all
        (fun s => !s.dev.resetInProgress && s.dev.state != .probing
          && !(s.dev.state == .halted && s.dev.fault == .probeLayout)) = true
      ∧ (after .reset runningState).dev = ⟨.stopped, .none, false, false, false⟩
      ∧ (after .reset (withRecord .opened readRecord)).dev.resetInProgress = true
      ∧ (after .reset haltedState).dev.state = .stopped := by decide +kernel

/-- RUN pending in STOPPED. -/
def runPending : State := { anchored with dev := ⟨.stopped, .none, false, true, false⟩ }

theorem modesLegal_of {s : State}
    (h : ((!s.dev.runPending || s.dev.state == .stopped)
      && (!s.dev.resetInProgress || s.dev.state == .stopping || s.dev.state == .halted)
      && (s.dev.fault.isHaltCause == (s.dev.state == .halted))) = true) : ModesLegal s := by
  simp only [Bool.and_eq_true, Bool.or_eq_true, Bool.not_eq_true', beq_iff_eq] at h
  obtain ⟨⟨h1, h2⟩, h3⟩ := h
  refine ⟨fun g => ?_, fun g => ?_, ?_⟩
  · simpa [g] using h1
  · simpa [g] using h2
  · rw [h3]
    exact beq_iff_eq

/-- RUN and STOP in every device state: STOPPED with and without RUN pending and anchor, RUNNING, STOPPING, PROBING,
HALTED. -/
theorem test_run_and_stop_states :
    runPending.dev.runPending = true ∧ runPending.dev.state = .stopped ∧ stoppedState.anchor = 0
      ∧ stoppedState.dev.runPending = false ∧ anchored.anchor ≠ 0 ∧ anchored.dev.state = .stopped
      ∧ runningState.dev.state = .running ∧ (inState .stopping .none anchored).dev.state = .stopping
      ∧ State.reset.dev.state = .probing ∧ haltedState.dev.state = .halted
      ∧ (after .run anchored).dev.runPending = true ∧ (after .stop runningState).dev.state = .stopped := by decide +kernel

theorem test_modes_legal : ∀ s ∈ [runPending, anchored, runningState, inState .stopping .none anchored, State.reset,
    haltedState], ModesLegal s := by
  intro s hs
  simp only [List.mem_cons, List.not_mem_nil, or_false] at hs
  rcases hs with rfl | rfl | rfl | rfl | rfl | rfl <;> exact modesLegal_of (by decide)

/-- Anchor writes taken (with a low half other than 0, and with low half 0 under a held high half), clearing, refused. -/
theorem test_anchor_writes :
    anchorWritable stoppedState = true ∧ (0x1000 : Word32).extractLsb' 0 12 = 0
      ∧ stoppedState.anchorHigh ++ (0x1000 : Word32) ≠ 0#64
      ∧ anchorWritable { stoppedState with anchorHigh := 1 } = true ∧ (1 : Word32) ++ (0 : Word32) ≠ 0#64
      ∧ stoppedState.anchorHigh ++ (0 : Word32) = 0#64
      ∧ anchorWritable runningState = false ∧ (0x800 : Word32).extractLsb' 0 12 ≠ 0
      ∧ (after (.anchorLo 0x1000) stoppedState).ntu.writes.length = 15
      ∧ (after (.anchorLo 0) anchored).anchor = 0
      ∧ (after (.anchorHi 9) stoppedState).anchorHigh = 9 := by decide +kernel

theorem test_registers :
    State.reset.register 0 = 0xAC074001 ∧ runningState.register 4 = 0x20022 ∧ runningState.readWindow 0x0D 1 = [0x10]
      ∧ haltedState.register 4 = 0x20A24 := by decide +kernel

/-! ### Lanes -/

/-- A record of a lane window. -/
def winRec (cond : RecCond) : WinRec := ⟨7, 0x8000, cond, true, false, false, true⟩

/-- Lanes SEEKING with a target, PARKED unposted, PARKED at the end, and FAULTED with every record final. -/
def fourLanes : State :=
  { runningState with
    lanes := #v[
      { Lane.cold with state := .seeking, target := some 0x9000 },
      { Lane.cold with state := .parkedUnposted, target := some 0xA000, poll := some 6000 },
      { Lane.cold with state := .parkedEnd, window := [winRec (.running 1)], poll := some 5000 },
      { Lane.cold with state := .faulted, fault := .badLink, window := [winRec (.final .done)], refused := 65535 }] }

/-- The same lanes under a device where RUN is pending. -/
def fourLanesStopped : State := { fourLanes with dev := ⟨.stopped, .none, false, true, false⟩ }

theorem test_run_taken :
    fourLanesStopped.dev.runPending = true ∧ fourLanesStopped.dev.state = .stopped ∧ stoppedState.dev.runPending = false
      ∧ (fourLanes.lane 0).target = some 0x9000 ∧ (fourLanes.lane 0).reading = none
      ∧ (fourLanes.lane 1).target = some 0xA000 ∧ (fourLanes.lane 1).reading = none
      ∧ (fourLanes.lane 2).newest = some (winRec (.running 1)) ∧ (fourLanes.lane 3).state = .faulted
      ∧ (after (.runTaken .busError 0) fourLanesStopped).dev.state = .running
      ∧ ((after (.runTaken .busError 0) fourLanesStopped).lane 2).reading = some (.link 0x8000)
      ∧ settingsOf (padTo 64 ([10, 0, 0, 0, 0xFF, 0xFF, 0, 0, 5, 0, 200])) = ⟨10, ⟨4095, 1⟩, ⟨5, 64⟩, Vector.replicate 10 .none⟩
      := by decide +kernel

/-- START of an OFF lane, of a FAULTED lane with all final and with one still running, and of a SEEKING lane, the refused
count below and at its largest. -/
theorem test_start :
    startsTaken runningState = true ∧ startsTaken stoppedState = false ∧ startsTaken inReset = false
      ∧ (runningState.lane 1).state = .off
      ∧ (fourLanes.lane 3).state = .faulted ∧ (fourLanes.lane 3).allFinal = true
      ∧ (fourLanes.lane 0).state = .seeking ∧ (fourLanes.lane 2).allFinal = false
      ∧ ((after (.start 1) runningState).lane 0).reading = some .config
      ∧ ((after (.start 8) fourLanes).lane 3).window = []
      ∧ ((after (.start 1) fourLanes).lane 0).refused = 1
      ∧ ((after (.start 8) (fourLanes.setLane 3 { fourLanes.lane 3 with state := .draining })).lane 3).refused = 65535 := by
  decide +kernel

/-- START of a SEEKING lane, of the FAULTED one, its window's record a NOTIFY record, and of an OFF one: the configuration reads,
the retirement with the status entry of the lane still FAULTED (log entry 45), and the cause. -/
theorem test_start_retires :
    let s : State := (fourLanes.setLane 3 { fourLanes.lane 3 with cfg := { (fourLanes.lane 3).cfg with notify := .a } }).setLane 1 Lane.cold
    let t := after (.start 11) s
    (∀ l : LaneId, (l = 1 ∨ l = 3) ↔ (11 : BitVec 4).getLsbD l.val = true
        ∧ ((s.lane l).state = .off ∨ ((s.lane l).state = .faulted ∧ (s.lane l).allFinal = true)))
      ∧ t.out = [.hostRead 0x1080 64, .hostRead 0x1100 64] ∧ (t.lane 3).retireSeq = 7
      ∧ t.ntu.writes = [⟨.laneStatus 0, (t.lane 0).status.bytes⟩,
          ⟨.laneStatus 3, { (t.lane 3).status with state := .faulted, fault := .badLink }.bytes⟩, ⟨.message .a, []⟩]
      ∧ t.ntu.routeA.state = .signalled := by decide +kernel

theorem test_look :
    runningState.anchor ≠ 0 ∧ fourLanes.dev.state = .running ∧ stoppedState.anchor = 0 ∧ anchored.dev.state ≠ .running
      ∧ (0b0110 : BitVec 4).getLsbD 2 = true ∧ (0b0110 : BitVec 4).getLsbD 1 = true ∧ (fourLanes.lane 0).parked = false
      ∧ ((after (.look 6) fourLanes).lane 1).reading = some (.fetch 0xA000)
      ∧ (after (.look 7) fourLanes).out = [.hostRead 0xA000 128, .hostRead 0x8000 8] := by decide +kernel

theorem test_abort :
    haltedState.dev.state = .halted ∧ runningState.dev.resetInProgress = false
      ∧ ((withRecord .opened readRecord).lane 0).staged.isSome = true
      ∧ ((withRecord .opened readRecord).lane 0).stagedAddr.isSome = true
      ∧ ((after (.abort 1) (withRecord .opened readRecord)).lane 0).state = .off
      ∧ ((after (.abort 4) fourLanes).lane 2).state = .draining := by decide +kernel

/-- A lane with a read in flight. -/
def laneReading (st : LaneState) (r : LaneRead) : State :=
  runningState.setLane 0 { Lane.cold with state := st, reading := some r, target := some 0x9000 }

/-- RUN, STOP and RUN with both settings reads outstanding: the end of the withdrawn one is discarded, whether a RUN is pending or not,
and the end of the second takes the RUN (R196). -/
theorem test_withdrawn_run :
    let s := after .stop (after .run anchored)
    let t := after .run s
    let read : HostResult Bytes := .data (padTo 64 [7])
    t.lif = ⟨2, 0⟩ ∧ t.out = [.hostRead 0x1000 64, .hostRead 0x1000 64]
      ∧ after (.runTaken read 1) s = s ∧ after (.runTaken read 1) t = t
      ∧ (after (.runTaken read 2) t).dev.state = .running ∧ (after (.runTaken read 2) t).settings.spareLow = 7 := by
  decide +kernel

/-- A halt and a cold reset begin an epoch: a configuration read, a completion and an error of the one before are discarded in it
(R176, R198, R201). -/
theorem test_accesses_cut_off :
    let s := laneReading .seeking .config
    let t : State := { after (.resultError 0) s with dev := anchored.dev, lanes := s.lanes, ntu := { s.ntu with handed := 1 } }
    (after (.resultError 0) s).lif.epoch = 1 ∧ (after (.coldReset .busReset) s).lif.epoch = 1 ∧ (t.lane 0).reading = some .config
      ∧ after (.configReadEnd 0 .busError 0) t = t ∧ after (.deviceAreaWriteCompleted 0) t = t
      ∧ after (.deviceAreaError 0) t = t ∧ after (.resultError 0) t = t
      ∧ ((after (.configReadEnd 0 .busError 1) t).lane 0).state = .faulted := by decide +kernel

/-- A configuration entry: head, initial seq 5, weight, cap, route A, table right, poll. -/
def cfgBytes (head weight cap poll : Nat) : Bytes :=
  padTo 64 (leBytes 8 head ++ leBytes 4 5 ++ leBytes 1 weight ++ leBytes 1 cap ++ [1, 1] ++ leBytes 4 poll)

theorem test_config_read :
    ((laneReading .seeking .config).lane 0).reading = some .config
      ∧ recordAddrOk (cfgHead (cfgBytes 0x8040 1 1 0)) = false ∧ recordAddrOk (cfgHead (cfgBytes 0 1 1 0)) = false
      ∧ recordAddrOk (cfgHead (cfgBytes 0x8080 8 4 1000000)) = true ∧ cfgRangesOk (cfgBytes 0x8080 8 4 1000000) = true
      ∧ cfgRangesOk (cfgBytes 0x8080 9 4 0) = false ∧ cfgRangesOk (cfgBytes 0x8080 1 5 0) = false
      ∧ cfgRangesOk (cfgBytes 0x8080 1 1 9) = false ∧ cfgRangesOk (cfgBytes 0x8080 1 1 10) = true
      ∧ ((after (.configReadEnd 0 (.data (cfgBytes 0x8080 8 4 10)) 0) (laneReading .seeking .config)).lane 0).reading
        = some (.fetch 0x8080) := by decide +kernel

theorem test_fetch :
    ((laneReading .seeking (.fetch 0x9000)).lane 0).reading = some (.fetch 0x9000)
      ∧ recState readRecord = posted ∧ recSeq readRecord = 7 ∧ recState (readRecord.set 12 0) ≠ posted
      ∧ ((laneReading .seeking (.fetch 0x9000)).lane 0).expSeq ≠ 7
      ∧ ((after (.fetchEnd 0 (.data readRecord) 0) (laneReading .seeking (.fetch 0x9000))).lane 0).fault = .seqBreak
      ∧ ((after (.fetchEnd 0 (.data (readRecord.set 8 0)) 0) (laneReading .seeking (.fetch 0x9000))).lane 0).state = .staged
      ∧ ((after (.fetchEnd 0 (.data (readRecord.set 12 0)) 0) (laneReading .seeking (.fetch 0x9000))).lane 0).state
        = .parkedUnposted := by decide +kernel

theorem test_link_read :
    ((laneReading .seeking (.link 0x8000)).lane 0).state = .seeking
      ∧ (0x8080 : Addr).toNat % 128 = 0 ∧ (0x8001 : Addr).toNat % 128 ≠ 0
      ∧ ((after (.linkReadEnd 0 (.data 0x8080) 0) (laneReading .seeking (.link 0x8000))).lane 0).reading
        = some (.fetch 0x8080)
      ∧ ((after (.linkReadEnd 0 (.data 0) 0) (laneReading .seeking (.link 0x8000))).lane 0).state = .parkedEnd := by
  decide +kernel

theorem test_draining_reads :
    ((laneReading .draining .config).lane 0).state = .draining
      ∧ ((laneReading .draining (.fetch 0x9000)).lane 0).reading = some (.fetch 0x9000)
      ∧ ((laneReading .draining (.link 0x8000)).lane 0).reading = some (.link 0x8000)
      ∧ ((after (.fetchEnd 0 (.data readRecord) 0) (laneReading .draining (.fetch 0x9000))).lane 0).state = .off := by
  decide +kernel

/-- Poll timers: stopped, not yet due, due at this tick on a parked lane of a RUNNING and of a STOPPED device. -/
theorem test_poll_timers :
    (∀ t, (fourLanes.lane 0).poll = some t → reached fourLanes.tick t = false)
      ∧ (∀ t, (fourLanes.lane 1).poll = some t → reached fourLanes.tick t = false)
      ∧ (fourLanes.lane 2).poll = some 5000 ∧ reached fourLanes.tick 5000 = true
      ∧ (fourLanes.lane 2).newest.isSome = true ∧ fourLanesStopped.dev.state ≠ .running
      ∧ reached ({ fourLanes with tick := 6000 } : State).tick 6000 = true
      ∧ ((after (.pollExpiry 2) fourLanes).lane 2).reading = some (.link 0x8000)
      ∧ ((after (.pollExpiry 1) { fourLanes with tick := 6000 }).lane 1).reading = some (.fetch 0xA000) :=
  ⟨notDue_of (by decide), notDue_of (by decide), by decide +kernel⟩

/-! ### Grants, one step each -/

theorem test_read_is_issuing :
    ((after .read (withRecord .opened readRecord)).ctx 0).state = .issuing
      ∧ ((after .read (withRecord .opened readRecord)).region 3).users = 1
      ∧ (after .read (withRecord .opened readRecord)).out = grantOutputs 0x8000 := by decide +kernel

theorem test_write_is_issuing : ((after .write (withRecord .opened writeRecord)).ctx 0).srcBase = 163 := by decide +kernel
theorem test_fill_is_issuing : ((after .fill (withRecord .opened fillRecord)).ctx 0).state = .issuing := by decide +kernel
theorem test_copy_is_issuing : ((after .copy (withRecord .opened copyRecord)).ctx 0).dstBase = 132 := by decide +kernel
theorem test_verify_is_issuing : ((after .verify (withRecord .opened verifyRecord)).ctx 0).state = .issuing := by
  decide +kernel
theorem test_digest_is_issuing : ((after .digest (withRecord .opened digestRecord)).ctx 0).srcBase = 105 := by decide +kernel
theorem test_relocate_starts_a_move :
    ((after .relocate (withRecord .opened relocateRecord)).rlt 1).moves.map Move.spare = [0]
      ∧ ((after .relocate (withRecord .opened relocateRecord)).chan 1).locks.map Lock.block = [50] := by decide +kernel
theorem test_barrier_is_done : ((after .barrier (withRecord .opened barrierRecord)).ctx 0).final.map Prod.fst = some .done := by
  decide +kernel
theorem test_table_read_writes_its_first_block :
    ((after .tableRead (withRecord .opened tableReadRecord)).ctx 0).phase 0 = some .bufferWrite := by decide +kernel
theorem test_start_pass_offers_the_first_reads :
    (after .startPass (paced (withRecord .opened startPassRecord))).patrol.passNumber = 1
      ∧ ((after .startPass (paced (withRecord .opened startPassRecord))).patrolUnit 0).sub = .readOut := by decide +kernel
theorem test_stop_pass_ends_the_pass :
    (after .stopPass (inPass (withRecord .opened stopPassRecord))).patrol.running = false
      ∧ (after .stopPass (withRecord .opened stopPassRecord)).patrol.running = false := by decide +kernel
theorem test_set_waits_for_its_commit :
    ((after .setPatrol (withRecord .opened setRecord)).ctx 0).state = .commitWait
      ∧ (after .setPatrol (withRecord .opened setRecord)).patrol.cfg = ⟨2000, 100, 7, true⟩
      ∧ (after .setPatrol (withRecord .opened setRecord)).cme.state = .writing := by decide +kernel
theorem test_define_waits_for_its_commit :
    (after .regionDefine (withRecord .opened defineRecord)).cme.inFlight.map (fun f => f.image.tables.regions[31])
      = some (some ⟨0, 100, 15, .opened, 1, none⟩)
      ∧ ((after .regionDefine (withRecord .opened defineRecord)).region 31).live = none := by decide +kernel
theorem test_delete_is_pending :
    ((after .regionDelete (withRecord .opened deleteRecord)).region 3).pending = some .delete := by decide +kernel
theorem test_guard_is_pending_and_closing :
    ((after .regionGuard (withRecord .opened guardRecord)).region 3).closing = true := by decide +kernel
theorem test_release_is_pending :
    ((after .regionRelease (withRecord .guarded releaseRecord)).region 3).pending = some .release := by decide +kernel
theorem test_fix_is_pending : ((after .regionFix (withRecord .opened fixRecord)).region 3).pending = some .fix := by
  decide +kernel
theorem test_lockdown_sets_the_flag : (after .lockdown (withRecord .opened lockdownRecord)).lockdown = true := by
  decide +kernel
theorem test_unknown_operation_fails :
    ((after .badOp (withRecord .opened unknownRecord)).ctx 0).final.map (fun f => f.2.status) = some .badOp := by decide +kernel

/-! ### The contexts' own events -/

/-- The device after the grant of a record on the opened region 3. -/
def grantedState (k : OpKind) (r : Bytes) : State := after (grantCommand k) (withRecord .opened r)

/-- Context 0 with one field changed. -/
def withCtx (f : Context → Context) (s : State) : State := s.setCtx 0 (f (s.ctx 0))

/-- 64 segments of 512 bytes. -/
def listBytes : Bytes := (List.range 64).flatMap fun i => segmentBytes (0x100000 + 4096 * i) 512

theorem test_list_read :
    let s := grantedState .read listRecord
    (s.ctx 0).state = .loading ∧ (s.ctx 0).listReading = true ∧ (s.ctx 0).refusal = none ∧ (s.ctx 0).abortMark = false
      ∧ ((withCtx (fun c => { c with abortMark := true }) s).ctx 0).abortMark = true
      ∧ recKind (s.ctx 0).record = .read ∧ recRegion (s.ctx 0).record = 3 ∧ (stoppedState.ctx 0).state ≠ .loading
      ∧ segmentsOk .read listRecord (segmentsOf (recSegCount listRecord) (zeros 1024)) = false
      ∧ segmentsOk .read listRecord (segmentsOf (recSegCount listRecord) listBytes) = true
      ∧ firstFail (accessChecks s .read (s.ctx 0).record (s.ctx 0).lane (s.ctx 0).tableRight) = none
      ∧ ((after (.listReadEnd 0 (.data listBytes) 0) s).ctx 0).state = .issuing := by decide +kernel

theorem test_take_block :
    canTakeBlock runningState 0 = false
      ∧ ([(.read, readRecord), (.write, writeRecord), (.fill, fillRecord), (.fill, blankRecord), (.copy, copyRecord),
          (.verify, verifyRecord), (.digest, digestRecord)] : List (OpKind × Bytes)).all
        (fun p =>
          canTakeBlock (grantedState p.1 p.2) 0 && !nextUnitOffline (grantedState p.1 p.2) 0
            && recKind ((grantedState p.1 p.2).ctx 0).record == p.1
            && ((grantedState p.1 p.2).region 3).writable && !((grantedState p.1 p.2).ctx 0).stepRefused) = true
      ∧ ((after (.takeBlock 0) (grantedState .read readRecord)).chan 0).performing
        = some ⟨.foreground 0 0 0 3 true, .read, 50⟩ := by decide +kernel

/-- A WRITE whose block 0 is being read from the host. -/
def writing : State := withCtx (fun c => { c with cursor := 1, blocks := [⟨0, .hostRead⟩] }) (grantedState .write writeRecord)

/-- A READ whose block 0 is being written to its buffer. -/
def buffering : State :=
  withCtx (fun c => { c with cursor := 1, blocks := [⟨0, .bufferWrite⟩] }) (grantedState .read readRecord)

theorem test_host_read_end :
    (writing.ctx 0).phase 0 = some .hostRead ∧ (writing.ctx 0).abortMark = false
      ∧ (writing.ctx 0).hostFailedBelow 0 = false ∧ (stoppedState.ctx 0).phase 0 ≠ some .hostRead
      ∧ (writing.region (writeRegion (writing.ctx 0).record)).writable = true ∧ (writing.ctx 0).stepRefused = false
      ∧ ((writing.setRegion 3 { writing.region 3 with closing := true }).region
          (writeRegion (writing.ctx 0).record)).writable = false
      ∧ ((after (.hostReadEnd 0 0 .busError 0) writing).ctx 0).state = .finishing := by decide +kernel

theorem test_buffer_write_end :
    (buffering.ctx 0).phase 0 = some .bufferWrite ∧ recKind (buffering.ctx 0).record = .read
      ∧ (stoppedState.ctx 0).phase 0 ≠ some .bufferWrite
      ∧ ((after (.bufferWriteEnd 0 0 false 0) buffering).ctx 0).final.map (fun f => (f.1, f.2.blocksOk)) = some (.done, 1) := by
  decide +kernel

/-- A context that is FINISHING with a region raised. -/
def finishing : State := after (.bufferWriteEnd 0 0 false 0) buffering

theorem test_final_write :
    (finishing.ctx 0).state = .finishing ∧ (finishing.ctx 0).final.isSome = true ∧ finishing.dev.state ≠ .halted
      ∧ (finishing.ctx 0).raised = [3] ∧ (finishing.ctx 0).raised.Nodup
      ∧ (stoppedState.ctx 0).state ≠ .finishing ∧ haltedState.dev.state = .halted
      ∧ (after (.finalWrite 0) finishing).ctx 0 = Context.empty
      ∧ ((after (.finalWrite 0) finishing).region 3).users = 0
      ∧ (after (.finalWrite 0) finishing).out.getLast? = some (.hostWrite 0x800C [4]) := by decide +kernel

/-- A RUNNING device with one device-area write in flight. -/
def handedOne : State := { runningState with ntu := { runningState.ntu with handed := 1 } }

theorem test_write_errors :
    haltsTaken State.reset = false ∧ haltsTaken haltedState = false ∧ runningState.ntu.handed = 0
      ∧ [handedOne, inState .stopping .none handedOne, inState .stopped .none handedOne].all haltsTaken = true
      ∧ handedOne.dev.resetInProgress = false ∧ 0 < handedOne.ntu.handed
      ∧ (after (.resultError 0) runningState).dev.fault = .resultError
      ∧ (after (.deviceAreaError 0) handedOne).dev.fault = .deviceAreaError := by decide +kernel

/-! ### Channels -/

/-- The device with unit 0 OFFLINE. -/
def unitLost : State := runningState.setChan 0 { runningState.chan 0 with state := .offline }

theorem test_commit_and_move_entries : (unitLost.chan 0).state = .offline ∧ (runningState.chan 0).state ≠ .offline := by
  decide

theorem test_identify_answer :
    (State.reset.chan 0).link = .identify false 1 2000
      ∧ ((after (.identifyAnswer 0 1 (.identity 4096 66592)) State.reset).chan 0).performing
        = some ⟨.commit, .read, 66560⟩
      ∧ ((after (.identifyAnswer 0 1 (.identity 4096 66591)) State.reset).chan 0).identified = some false := by
  decide +kernel

/-- Channel 0 performing a step of context 0, first or second attempt 2, due at tick 5000. -/
def performingState (cmd : StepCmd) (second : Bool) : State :=
  let s := withCtx (fun c => { c with cursor := 1, blocks := [⟨0, .outstanding cmd⟩] }) (grantedState .verify verifyRecord)
  s.setChan 0 { s.chan 0 with link := .performing ⟨.foreground 0 0 0 3 true, cmd, 50⟩ 50 second 2 5000 [] false, sent := 2 }

theorem test_read_answer :
    ((performingState .read false).chan 0).link = .performing ⟨.foreground 0 0 0 3 true, .read, 50⟩ 50 false 2 5000 [] false
      ∧ (performingState .read false).patrol.cfg.weak = 4
      ∧ ((after (.readAnswer 0 2 (.corrected 5 [])) (performingState .read false)).ctx 0).weak = 1
      ∧ ((after (.readAnswer 0 2 (.corrected 4 [])) (performingState .read false)).ctx 0).weak = 0
      ∧ ((after (.readAnswer 0 2 .uncorrectable) (performingState .read false)).ctx 0).failure = some (0, .dataLost) := by
  decide +kernel

theorem test_write_answers :
    ((performingState .program false).chan 0).performing.map QEntry.cmd = some .program
      ∧ ((performingState .clear false).chan 0).performing.map QEntry.cmd = some .clear
      ∧ ((after (.programAnswer 0 2 .ok) (performingState .program false)).ctx 0).blocksOk = 1
      ∧ ((after (.clearAnswer 0 2 .programFail) (performingState .clear false)).ctx 0).phase 0 = some .awaitMove := by
  decide +kernel

theorem test_late_answers :
    (runningState.chan 0).link = .idle ∧ (3 : Nat) ≠ 2 ∧ StepCmd.program ≠ .read ∧ StepCmd.read ≠ .clear
      ∧ classify 4 (.corrected 0 []) = none ∧ classify 4 (.corrected 9 []) = none
      ∧ (classify 4 (.corrected 8 [])).isSome = true := by decide +kernel

/-- NO_RESPONSE due at this tick for both attempts of a step and of IDENTIFY. -/
theorem test_no_response :
    reached (performingState .read false).tick 5000 = true
      ∧ ((performingState .read true).chan 0).link = .performing ⟨.foreground 0 0 0 3 true, .read, 50⟩ 50 true 2 5000 [] false
      ∧ reached ({ State.reset with tick := 2000 } : State).tick 2000 = true
      ∧ (((State.reset.setChan 0 { State.reset.chan 0 with link := .identify true 2 2000 }).chan 0).link
        = .identify true 2 2000)
      ∧ ((after (.noResponse 0 2) (performingState .read false)).chan 0).sent = 3
      ∧ ((after (.noResponse 0 2) (performingState .read true)).chan 0).state = .offline := by decide +kernel

/-! ### Commits -/

/-- The commit engine in a state. -/
def engine (st : EngineState) : State := stoppedState.setCme { stoppedState.cme with state := st }

/-- A region change and a SET in flight, the last block of the one copy being programmed. -/
def inFlight (second : Bool) : InFlight :=
  let batch : List Change := [.region 3 0 0 .guard, .config 1]
  let im := formImage stoppedState 1 1 batch
  ⟨batch, im, second, [⟨0, .a, im.blocks - 1, true, .writing⟩], []⟩

def committing (second : Bool) : State :=
  let s := stoppedState.setRegion 3 ⟨some (regionDef .opened), 0, some .guard, true⟩
  s.setCme { s.cme with state := .writing, wseq := 1, inFlight := some (inFlight second) }

theorem test_changes :
    [EngineState.closing, .writing, .retrying].all (fun st => (engine st).cme.state == st) = true
      ∧ stoppedState.cme.state = .idle ∧ stoppedState.cme.accumulating = [] ∧ stoppedState.cme.exhausted = false
      ∧ removedAtTake stoppedState (.config 0) = false ∧ removedAtTake stoppedState (.region 3 0 0 .fix) = false
      ∧ (handle (.change (.config 0)) stoppedState).1.cme.wseq = 1 := by decide +kernel

theorem test_commit_ends :
    (committing false).cme.inFlight = some (inFlight false) ∧ (inFlight true).copies.length = 1
      ∧ (inFlight false).copies.all (fun k => k.state == .writing && k.next + 1 == (inFlight false).image.blocks) = true
      ∧ (inFlight true).second = true
      ∧ (.region 3 0 0 .guard) ∈ (inFlight false).batch ∧ (.config 1) ∈ (inFlight false).batch
      ∧ ((handle (.copyEnds 0 .ok) (committing false)).1.region 3).live = some (regionDef .guarded)
      ∧ ((handle (.copyEnds 0 .programFail) (committing true)).1.region 3).live = some (regionDef .opened) := by
  decide +kernel

/-! ### Patrol's timers -/

/-- Unit 0 of a STOPPED device in a sub-state, both timers due at tick 0. -/
def patrolling (sub : SubState) : State :=
  (inPass stoppedState).setPatrolUnit 0 { PatrolUnit.cold with sub := sub, paceTimer := some 0, settleTimer := some 0 }

theorem test_patrol_timers :
    (∀ t, ((inPass stoppedState).patrolUnit 0).paceTimer = some t → reached 0 t = false)
      ∧ (∀ t, ((inPass stoppedState).patrolUnit 0).settleTimer = some t → reached 0 t = false)
      ∧ ((patrolling .paceWait).patrolUnit 0).sub = .paceWait ∧ 0 < (patrolling .paceWait).patrol.cfg.pace
      ∧ ((patrolling .suspended).patrolUnit 0).settleTimer = some 0 ∧ (patrolling .suspended).dev.state ≠ .running
      ∧ ((patrolling .readOut).patrolUnit 0).sub ≠ .paceWait ∧ reached (patrolling .readOut).tick 0 = true
      ∧ ((after (.paceExpiry 0) (patrolling .paceWait)).patrolUnit 0).sub = .ready
      ∧ ((after (.settleExpiry 0) (patrolling .suspended)).patrolUnit 0).sub = .ready :=
  ⟨notDue_of (by decide), notDue_of (by decide), by decide +kernel⟩

theorem test_ready_unit :
    (inPass runningState).dev.state = .running ∧ (inPass runningState).patrol.running = true
      ∧ (inPass runningState).patrol.stopMark = false ∧ 0 < (inPass runningState).patrol.cfg.pace
      ∧ offerAnswer (inPass runningState) 0 ((inPass runningState).patrolUnit 0).cursor = .accepted := by decide +kernel

/-! ### Notification -/

/-- Route A under hold time and threshold, in a state with a count. -/
def routed (hold threshold : Nat) (r : Route) : State :=
  { runningState with
    settings := { runningState.settings with routeA := ⟨hold, threshold⟩ }
    ntu := { runningState.ntu with routeA := r } }

/-- The route rows at the values where they meet: hold time 0 and 1, threshold 1 and 2, count at and below the threshold. -/
theorem test_route_rows :
    ((routed 0 64 Route.cold).routeCfg .a).hold = 0 ∧ ((routed 1 1 Route.cold).routeCfg .a).threshold ≤ 1
      ∧ 1 < ((routed 1 2 Route.cold).routeCfg .a).threshold ∧ 0 < ((routed 1 2 Route.cold).routeCfg .a).hold
      ∧ ((routed 1 2 ⟨.holding, 1, false, some 5001⟩).routeCfg .a).threshold
        ≤ ((routed 1 2 ⟨.holding, 1, false, some 5001⟩).route .a).count + 1
      ∧ ((routed 1 3 ⟨.holding, 1, false, some 5001⟩).route .a).count + 1 < 3
      ∧ ((routed 1 3 ⟨.signalled, 64, true, none⟩).route .a).state = .signalled
      ∧ ((takeCause .a (routed 1 3 ⟨.signalled, 64, true, none⟩)).route .a).count = 64
      ∧ ((takeCause .a (routed 1 2 Route.cold)).route .a).timer = some 5001 := by decide +kernel

theorem test_sends :
    runningState.anchor ≠ 0 ∧ runningState.dev.state ≠ .halted ∧ runningState.messagesEnabled = true ∧ stoppedState.anchor = 0
      ∧ ((routed 1 3 ⟨.holding, 1, false, some 5000⟩).route .a).timer = some 5000
      ∧ reached (routed 1 3 ⟨.holding, 1, false, some 5000⟩).tick 5000 = true
      ∧ (∀ t, ((routed 1 3 ⟨.holding, 1, false, some 5001⟩).route .a).timer = some t → reached 5000 t = false)
      ∧ (runningState.route .a).state ≠ .holding
      ∧ (after (.holdExpiry .a) (routed 1 3 ⟨.holding, 1, false, some 5000⟩)).ntu.writes = [⟨.message .a, []⟩] :=
  ⟨by decide, by decide, by decide, by decide, by decide, by decide, notDue_of (by decide), by decide, by decide +kernel⟩

theorem test_acknowledge :
    haltedState.dev.state = .halted ∧ RouteId.a ∈ maskRoutes 1 ∧ RouteId.b ∉ maskRoutes 1
      ∧ ((after (.acknowledge 1) (routed 0 1 ⟨.signalled, 0, false, none⟩)).route .a).state = .idle
      ∧ ((after (.acknowledge 1) (routed 5 3 ⟨.signalled, 2, true, none⟩)).route .a) = ⟨.holding, 2, false, some 5005⟩
      ∧ ((after (.acknowledge 3) (routed 5 2 ⟨.signalled, 2, true, none⟩)).route .a) = ⟨.signalled, 0, false, none⟩
      ∧ (routed 5 2 ⟨.signalled, 2, true, none⟩).anchor ≠ 0 := by decide +kernel

theorem test_event_slots :
    EventKind.slot .spareLow = 9 ∧ (0 : Fin 10) ≠ EventKind.slot .spareLow
      ∧ ((postEvent .spareLow { code := some 1 } runningState).ntu.slots[9]).count = 1
      ∧ (postEvent .spareLow { code := some 1 } runningState).ntu.writes.length = 1 := by decide +kernel

/-- A RUNNING device with one request in the write list. -/
def writeWaiting (w : WriteReq) : State := { runningState with ntu := { runningState.ntu with writes := [w] } }

theorem test_device_area_writes :
    runningState.ntu.writes = [] ∧ handedOne.dev.resetInProgress = false
      ∧ [WriteTarget.identity, .laneStatus 3, .slot 9, .message .b].all
        (fun g => (writeWaiting ⟨g, zeros 64⟩).ntu.writes == [⟨g, zeros 64⟩]) = true
      ∧ (after .deviceAreaWrite (writeWaiting ⟨.slot 9, zeros 64⟩)).out
        = [.hostWrite 0x1844 (zeros 60), .hostWrite 0x1840 (zeros 4)]
      ∧ (after (.deviceAreaWriteCompleted 0) handedOne).ntu.handed = 0 := by decide +kernel

/-! ### Layouts and invariants -/

theorem test_image_entries :
    (regionDef .fixed).base < 4294967296 ∧ (regionDef .fixed).fixedGen.isSome = true ∧ (regionDef .opened).fixedGen = none
      ∧ regionOfBytes (regionBytes 3 (some (regionDef .fixed)) 0 0) = some (regionDef .fixed)
      ∧ (State.reset.rlt 0).table.entries.length ≤ 1024 := by decide +kernel

theorem test_invariants_hold_somewhere :
    AnchorAligned { anchored with pending := [.anchorHi 5] }
      ∧ (∃ t, step { anchored with pending := [.anchorHi 5] } = .next t)
      ∧ { anchored with pending := [.anchorHi 5], lockdown := true }.lockdown = true
      ∧ (∀ source, ({ anchored with pending := [.anchorHi 5] } : State).pending.head? ≠ some (.coldReset source)) :=
  ⟨by unfold AnchorAligned; decide, ⟨_, rfl⟩, rfl, fun source h => by cases h⟩

theorem test_counters_and_commits_in_order : CountersInRange stoppedState ∧ CommitOrdered stoppedState :=
  ⟨⟨by decide, ⟨by decide, by decide, by decide, by decide⟩, ⟨by decide, by decide, by decide, by decide⟩, by decide +kernel,
      by decide +kernel, by decide +kernel, by decide +kernel⟩,
    ⟨(fun f h => by cases h), (fun h => by cases h)⟩⟩

theorem test_cold_reset_begins_the_probe :
    (after (.coldReset .busReset) runningState).dev.state = .probing
      ∧ ((after (.coldReset .busReset) runningState).chan 2).link = .identify false 2 2000
      ∧ ((after (.coldReset .resetInput) runningState).chan 2).link = .idle := by decide +kernel

/-! ### Small states of channels, moves and batches -/

/-- A FOREGROUND entry of block 0 of a context, on unit block 50 of region 3. -/
def fgEntry (x : CtxId) (cmd : StepCmd) : QEntry := ⟨.foreground x 0 0 3 true, cmd, 50⟩

/-- A move request for unit block 50. -/
def reqOf (cause : Cause) (ws : List Waiter) : MoveReq := ⟨50, cause, some 0, some 3, none, ws, none, false, none⟩

/-- A patrol finding on unit block 50 of pass 1. -/
def findingOf (lost : Bool) : MoveReq :=
  ⟨50, if lost then .readLost else .patrolWeak, none, none, none, [], some ⟨1, lost⟩, false, none⟩

/-- The move 7 of a request, its spare 5. -/
def moveOf (st : MoveState) (q : MoveReq) : Move := ⟨7, q, st, 5, 1⟩

/-- The relocation table of unit 0 changed, on the running device with region 3 defined. -/
def rltState (f : Rlt → Rlt) : State :=
  let s := runningState.setRegion 3 ⟨some (regionDef .opened), 0, none, false⟩
  s.setRlt 0 (f (s.rlt 0))

/-- Channel 0 changed. -/
def withChan (f : Channel → Channel) (s : State) : State := s.setChan 0 (f (s.chan 0))

/-- Unit 0 with one move in a slot. -/
def movingState (m : Move) : State := rltState fun r => { r with moves := [m] }

/-- The relocation table with a live entry of block 50 on spare 0. -/
def redirected (poisoned : Bool) (r : Rlt) : Rlt := { r with table := ⟨[⟨50, 0, .readLost, poisoned, 1⟩], []⟩ }

/-- Channel 0 performing an entry. -/
def performs (e : QEntry) (c : Channel) : Channel := { c with link := .performing e 50 false 2 6000 [] false }

/-! ### Warm reset, registers, retirement, arbiter -/

/-- A RUNNING device with a pass that a context waits for, FOREGROUND entries queued and waiting, a started move and a
request. -/
def busyState : State :=
  let s := withChan (fun c => { c with queue := [fgEntry 1 .read], waiting := [fgEntry 2 .program], marks := [(9, .rewritten)] })
    (inPass (rltState fun r =>
      { r with moves := [moveOf .reading (reqOf .directed [⟨3, 0, true⟩])], requests := [reqOf .directed [⟨4, 0, true⟩]] }))
  { s with patrol := { s.patrol with stopMark := true, stopList := [5] } }

/-- RESET: with nothing left its work is over at the event, with a context at work it is not; a busy device drops its work. -/
theorem test_reset_work :
    ResetWorkOver (runningState.dev.state = .halted) (after .reset runningState)
      ∧ ¬ ResetWorkOver False (after .reset (withRecord .opened readRecord))
      ∧ ResetWorkOver (haltedState.dev.state = .halted) (after .reset haltedState)
      ∧ busyState.patrol.running = true ∧ busyState.dev.resetInProgress = false
      ∧ ((after .reset busyState).chan 0).waiting = [] ∧ (after .reset busyState).patrol.running = false
      ∧ (busyState.rlt 0).moves.all (fun m => m.state != .batched) = true :=
  ⟨⟨by decide +kernel, by decide +kernel, by decide +kernel, by decide +kernel, .inr (by decide +kernel)⟩,
    (fun h => absurd h.writes (by decide +kernel)),
    ⟨by decide +kernel, by decide +kernel, by decide +kernel, by decide +kernel, .inr (by decide +kernel)⟩,
    by decide +kernel⟩

/-- The narrow reads of the window at its ends. -/
theorem test_narrow_reads :
    runningState.width ≤ 7 ∧ runningState.readWindow 0x05 2 = [0x00, 0x02] ∧ runningState.readWindow 0x3E 2 = [0, 0]
      ∧ runningState.readWindow 0 4 = [0x01, 0x40, 0x07, 0xAC] := by decide +kernel

/-- Lane 0 SEEKING with its newest record's link being read, the record before it final with its link read. -/
def retiring (cond : RecCond) : State :=
  runningState.setLane 0 { Lane.cold with
    state := .seeking, cfg := ⟨0x8000, 6, .a, true, 0⟩, reading := some (.link 0x8000), retireSeq := 5
    window := [⟨6, 0x7F80, .final .done, true, true, false, true⟩, ⟨7, 0x8000, cond, true, false, false, false⟩] }

theorem test_retirement :
    ((retiring (.final .done)).lane 0).reading = some (.link 0x8000)
      ∧ ((retiring (.final .done)).lane 0).retirable.length = 1 ∧ (runningState.lane 0).retirable = []
      ∧ (winRec .staged).granted = true
      ∧ ((after (.linkReadEnd 0 (.data 0x8080) 0) (retiring (.final .done))).lane 0).window = []
      ∧ ((after (.linkReadEnd 0 (.data 0x8080) 0) (retiring (.final .done))).lane 0).retireSeq = 7
      ∧ ((after (.linkReadEnd 0 (.data 0x8001) 0) (retiring (.running 1))).lane 0).retireSeq = 6
      ∧ ((after (.linkReadEnd 0 (.data 0x8001) 0) (retiring (.running 1))).lane 0).fault = .badLink
      ∧ ((after (.linkReadEnd 0 (.data 0) 0) (retiring (.final .done))).lane 0).retireSeq = 5 := by decide +kernel

/-- A grant with an eligible lane and a FREE context; none without an eligible lane, and none without a FREE context. -/
theorem test_grants_made :
    eligible (withRecord .opened readRecord) 0 = true ∧ ((withRecord .opened readRecord).ctx 0).state = .free
      ∧ (∀ k : LaneId, 1 ≤ (withRecord .opened readRecord).dar.weight[k])
      ∧ (grantOf (withRecord .opened readRecord)).isSome = true
      ∧ (∀ l, eligible runningState l = false)
      ∧ (∀ x : CtxId, (({ withRecord .opened readRecord with
          ctxs := Vector.replicate 8 { Context.empty with state := .issuing } } : State).ctx x).state ≠ .free) := by
  decide +kernel

/-! ### Requests, spares and slots -/

/-- The tests of R102 in their order: unit OFFLINE, stale read target, poisoned entry, companion in the list and in a slot
(READ_LOST and others, in a batch and not), for each cause. -/
theorem test_requests_combine :
    (unitLost.chan 0).state = .offline ∧ (runningState.chan 0).state ≠ .offline
      ∧ ((rltState id).rlt 0).table.target 50 = 50 ∧ ((rltState (redirected false)).rlt 0).table.target 50 = 65536
      ∧ ((rltState (redirected true)).rlt 0).table.poisoned 50 = true
      ∧ ((rltState (redirected false)).rlt 0).table.poisoned 50 = false
      ∧ [Cause.readLost, .readWeak].all (fun k =>
          ((rltState fun r => { r with requests := [reqOf k []] }).rlt 0).requests.find? (fun c => c.src == 50)
              == some (reqOf k [])
            && (((movingState (moveOf .batched (reqOf k []))).rlt 0).requests.find? (fun c => c.src == 50)).isNone
            && ((movingState (moveOf .batched (reqOf k []))).rlt 0).moves.find? (fun m => m.req.src == 50)
              == some (moveOf .batched (reqOf k []))) = true
      ∧ (handle (.moveRequest 0 (reqOf .directed [⟨1, 0, true⟩])) (movingState (moveOf .batched (reqOf .readWeak [])))).2
        = [.moveBatched 1 0]
      ∧ (handle (.moveRequest 0 (findingOf true)) (movingState (moveOf .reading (reqOf .readWeak [])))).2
        = [.findingAnswered 0 50 ⟨1, true⟩ .absorbed] := by decide +kernel

/-- Four moves of other blocks, and a list of untied requests. -/
def fullSlots (n : Nat) : State :=
  rltState fun r => { r with
    moves := (List.range 4).map fun i => ⟨i, { reqOf .readWeak [] with src := i }, .reading, i, 1⟩
    requests := (List.range n).map fun i => { reqOf .readWeak [] with src := 100 + i } }

/-- Unit 0 with the given spares dead. -/
def deadSpares (dead : List Nat) : State := rltState fun r => { r with table := ⟨[], dead⟩ }

/-- Every spare dead. -/
def noSpares : State := deadSpares (List.range 1024)

theorem test_dead_spares_are_not_chosen (dead : List Nat) (h : ∀ k, k < 1024 → dead.contains k = true) :
    ((deadSpares dead).rlt 0).lowestChoosable = none := by
  have e : ((deadSpares dead).rlt 0).table.dead = dead := rfl
  unfold Rlt.lowestChoosable
  rw [List.find?_eq_none]
  intro k hk
  simp only [Rlt.choosable, e, h k (List.mem_range.mp hk), Bool.not_true, Bool.and_false, Bool.false_and,
    Bool.false_eq_true, not_false_eq_true]

theorem test_no_choosable_spare : (noSpares.rlt 0).lowestChoosable = none :=
  test_dead_spares_are_not_chosen _ fun _ h => List.contains_iff_mem.mpr (List.mem_range.mpr h)

/-- The end of R102's tests: no choosable spare; a free slot with and without one; full slots or a request ahead, the eighth
and the ninth untied request; a freed slot with a request that can take it, and without. -/
theorem test_requests_placed :
    (noSpares.rlt 0).requests = [] ∧ (noSpares.rlt 0).moves = []
      ∧ ((rltState id).rlt 0).lowestChoosable = some 0 ∧ ((rltState id).rlt 0).nextRequest = none
      ∧ 4 ≤ ((fullSlots 7).rlt 0).moves.length ∧ ((fullSlots 7).rlt 0).lowestChoosable = some 4
      ∧ ((fullSlots 7).rlt 0).requests.countP MoveReq.untied = 7 ∧ ((fullSlots 8).rlt 0).requests.countP MoveReq.untied = 8
      ∧ (reqOf .readWeak []).untied = true ∧ (reqOf .programFail []).untied = false ∧ (findingOf true).finding.isSome = true
      ∧ (handle (.moveRequest 0 (findingOf true)) (fullSlots 7)).2 = [.findingAnswered 0 50 ⟨1, true⟩ .full]
      ∧ ((handle (.moveRequest 0 (reqOf .readWeak [])) (fullSlots 8)).1.rlt 0).requests.length = 8
      ∧ ((rltState fun r => { r with requests := [reqOf .readWeak []] }).rlt 0).nextRequest = some (reqOf .readWeak [])
      ∧ ((rltState id).rlt 0).choosable 1023 = true
      ∧ (handle (.moveRequest 0 (reqOf .readLost [])) (rltState id)).2 = [.moveStart 0 0]
      ∧ ((handle (.slotFreed 0) (rltState fun r => { r with requests := [reqOf .readWeak []] })).1.rlt 0).requests = [] := by
  decide +kernel

/-! ### Passes and settings -/

/-- A pass of a device of two member units in the given sub-states. -/
def passState (stop auto : Bool) (a b : SubState) : State :=
  let s := (inPass stoppedState).setPatrolUnit 0 { PatrolUnit.cold with sub := a }
  let s := s.setPatrolUnit 1 { PatrolUnit.cold with sub := b }
  { s with patrol := { s.patrol with stopMark := stop, stopList := if stop then [2] else [], cfg := ⟨100, 2000, 4, auto⟩ } }

/-- The end conditions: STOPPED, COMPLETE with and without a next pass, both at once, and no end while a unit reads. -/
theorem test_pass_ends :
    (∀ u ∈ (passState true true .ready .moveWait).members, ((passState true true .ready .moveWait).patrolUnit u).sub ≠ .readOut)
      ∧ (∀ u ∈ (passState false true .finished .stoppedUnit).members,
          (((passState false true .finished .stoppedUnit).patrolUnit u).sub = .finished
            ∨ ((passState false true .finished .stoppedUnit).patrolUnit u).sub = .stoppedUnit)
          ∧ ((passState false true .finished .stoppedUnit).patrolUnit u).findings = [])
      ∧ (handle .passCheck (passState true true .finished .finished)).2.getLast? = some (.passClosed false)
      ∧ (handle .passCheck (passState false true .finished .stoppedUnit)).2.getLast? = some (.passClosed true)
      ∧ (handle .passCheck (passState false true .stoppedUnit .stoppedUnit)).2.getLast? = some (.passClosed false)
      ∧ (handle .passCheck (passState true true .readOut .finished)).2 = []
      ∧ (∃ u ∈ (passState true true .readOut .finished).members,
          ((passState true true .readOut .finished).patrolUnit u).sub = .readOut) := by decide +kernel

/-- The next pass: a member unit in service, one out of it, and no others. -/
theorem test_pass_restarts :
    let s := withChan (fun c => { c with state := .offline }) (passState false true .finished .finished)
    let e := handle .passRestart s
    e.2 = [.patrolReady 1, .passCheck] ∧ e.1.patrol.passNumber = 2
      ∧ four.map (fun u => (e.1.patrolUnit u).sub) = [.stoppedUnit, .ready, .ready, .ready] := by decide +kernel

/-- A SET that raises pace from 0 in a running pass with a unit in PACE_WAIT without a timer. -/
theorem test_set_readies_units :
    let s := withRecord .opened setRecord
    let t : State := { s with patrol := { s.patrol with
      running := true, units := s.patrol.units.set 1 { PatrolUnit.cold with sub := .paceWait } } }
    isAccepted t setRecord .setPatrol = true ∧ t.patrol.cfg.pace = 0 ∧ 0 < argPace setRecord ∧ t.patrol.running = true
      ∧ ((after .setPatrol t).patrolUnit 1).sub = .readOut ∧ ((after .setPatrol t).patrolUnit 0).sub = .ready := by
  decide +kernel

/-! ### The contexts' own events, wider -/

/-- A TABLE_READ of the region table with a list of two segments of 512 bytes, and a list read after which the region is
gone. -/
def tableListRecord : Bytes := recordOf 1 0x09 4 0 0 0 2 [0, 0] (leBytes 8 0x40000)
def tableList : Bytes := segmentBytes 0x100000 512 ++ segmentBytes 0x200000 512

theorem test_list_read_of_other_records :
    let s := grantedState .tableRead tableListRecord
    let g := (grantedState .read listRecord).setRegion 3 RegionEntry.undefined
    (s.ctx 0).state = .loading ∧ (s.ctx 0).listReading = true ∧ (s.ctx 0).refusal = none ∧ (s.ctx 0).abortMark = false
      ∧ (s.ctx 0).cursor = 0 ∧ recKind (s.ctx 0).record = .tableRead
      ∧ segmentsOk .tableRead tableListRecord (segmentsOf 2 tableList) = true
      ∧ ((after (.listReadEnd 0 (.data tableList) 0) s).ctx 0).phase 0 = some .bufferWrite
      ∧ firstFail (accessChecks g .read (g.ctx 0).record (g.ctx 0).lane (g.ctx 0).tableRight) = some .noRegion
      ∧ ((after (.listReadEnd 0 (.data listBytes) 0) g).ctx 0).final.map (fun f => f.2.status) = some .noRegion := by
  decide +kernel

/-- A WRITE block of an OFFLINE unit, and FILL blocks on a closing region and after a refused step. -/
theorem test_take_block_refused :
    let w := (grantedState .write writeRecord).setChan 1 { runningState.chan 1 with state := .offline }
    let f := (grantedState .fill fillRecord).setRegion 3 { (grantedState .fill fillRecord).region 3 with closing := true }
    let g := withCtx (fun c => { c with stepRefused := true }) (grantedState .fill fillRecord)
    canTakeBlock w 0 = true ∧ nextUnitOffline w 0 = true
      ∧ ((after (.takeBlock 0) w).ctx 0).final.map (fun f => f.2.status) = some .unitOffline
      ∧ canTakeBlock f 0 = true ∧ (f.region (recRegion (f.ctx 0).record)).writable = false
      ∧ ((after (.takeBlock 0) f).ctx 0).final.map (fun f => f.2.status) = some .isProtected
      ∧ canTakeBlock g 0 = true ∧ (g.ctx 0).stepRefused = true := by decide +kernel

/-- A host read of an aborted record, below which another failed, with its buffer bound, and after a refused step. -/
theorem test_host_read_end_other :
    let bound := withCtx (fun c => { c with bufs := c.bufs.set 2 ⟨some 0, none⟩ }) writing
    ((withCtx (fun c => { c with abortMark := true }) writing).ctx 0).phase 0 = some .hostRead
      ∧ ((withCtx (fun c => { c with blocks := [⟨1, .hostRead⟩], hostFailed := some 0 }) writing).ctx 0).hostFailedBelow 1 = true
      ∧ ((bound.ctx 0).bufs[(2 : Fin 4)]).bound = some 0 ∧ ((bound.ctx 0).bufs[(1 : Fin 4)]).bound ≠ some 0
      ∧ (hostReadEnds 0 0 (.data [1, 2]) bound).1.ctxs[0].bufferData 0 = [1, 2]
      ∧ ((withCtx (fun c => { c with stepRefused := true }) writing).ctx 0).stepRefused = true := by decide +kernel

/-- A TABLE_READ of four chunks, its first and its last being written. -/
def chunkState (j : Nat) : State :=
  withCtx (fun c => { c with cursor := j + 1, blocks := [⟨j, .bufferWrite⟩] })
    (grantedState .tableRead relocationReadRecord)

theorem test_chunk_ends :
    ((chunkState 0).ctx 0).phase 0 = some .bufferWrite ∧ recKind ((chunkState 0).ctx 0).record = .tableRead
      ∧ ((chunkState 0).ctx 0).abortMark = false ∧ ((chunkState 0).ctx 0).failure = none
      ∧ ((chunkState 0).ctx 0).otherFail = none ∧ ((chunkState 0).ctx 0).snapSize = 16384
      ∧ ((chunkState 0).ctx 0).cursor * 4096 < 16384 ∧ 16384 ≤ ((chunkState 3).ctx 0).cursor * 4096
      ∧ ((after (.bufferWriteEnd 0 0 false 0) (chunkState 0)).ctx 0).written = 4096
      ∧ ((after (.bufferWriteEnd 0 3 false 0) (chunkState 3)).ctx 0).state = .finishing := by decide +kernel

/-- FINAL_WRITE reports to the lane, which retires the record; how records are decided. -/
theorem test_final_write_retires :
    let s := finishing.setLane 0 { finishing.lane 0 with
      window := [⟨7, 0x8000, .running 0, true, true, false, true⟩], state := .parkedEnd, reading := none }
    (s.lane 0).state ≠ .draining ∧ (s.ctx 0).lane = 0
      ∧ ((after (.finalWrite 0) s).lane 0).window = [] ∧ ((after (.finalWrite 0) s).lane 0).retireSeq = 7
      ∧ ([(fun c => { c with refusal := some .badArg }), (fun c => { c with abortMark := true }),
          (fun c => { c with failure := some (3, .dataLost) }), (fun c => { c with otherFail := some .hostMemory }), id]
            : List (Context → Context)).map (fun f => (((withCtx f s).ctx 0).outcome))
        = [(.failed, .badArg), (.cancelled, .aborted), (.failed, .dataLost), (.failed, .hostMemory), (.done, .ok)] := by
  decide +kernel

/-- A halt during a warm reset, with its work over and with a context's step still in a channel. -/
theorem test_halt_in_reset :
    let s : State := { handedOne with dev := ⟨.stopping, .none, true, false, false⟩ }
    let t : State := { performingState .read false with dev := ⟨.stopping, .none, true, false, false⟩ }
    haltsTaken s = true ∧ s.dev.resetInProgress = true ∧ haltsTaken t = true ∧ t.dev.resetInProgress = true
      ∧ ResetWorkOver True (after (.deviceAreaError 0) s) ∧ ¬ ResetWorkOver True (after (.resultError 0) t)
      ∧ (after (.deviceAreaError 0) s).dev.state = .stopped ∧ (after (.resultError 0) t).dev.state = .halted :=
  ⟨by decide +kernel, by decide +kernel, by decide +kernel, by decide +kernel,
    ⟨by decide +kernel, by decide +kernel, by decide +kernel, by decide +kernel, .inl trivial⟩,
    (fun h => absurd (h.contexts 0) (by decide +kernel)), by decide +kernel, by decide +kernel⟩

/-! ### Channels, wider -/

/-- A context whose block 0 is an outstanding step on unit block 50, on a channel of the given form. -/
def stepState (cmd : StepCmd) (f : Channel → Channel) : State :=
  withChan f (withCtx (fun c => { c with cursor := 1, blocks := [⟨0, .outstanding cmd⟩] }) (grantedState .verify verifyRecord))

/-- A FOREGROUND arrival at a locked block, of an aborted record there, and with two and three entries before it. -/
theorem test_foreground_arrives :
    let s := stepState .read fun c => { c with locks := [⟨50, 7, []⟩] }
    let a := withCtx (fun c => { c with abortMark := true }) s
    let q (n : Nat) : State := stepState .read fun c => { c with queue := List.replicate n (fgEntry 1 .read) }
    s.unitOf ((s.ctx 0).srcBase + 0) = 0 ∧ s.blockOf ((s.ctx 0).srcBase + 0) = 50
      ∧ ((s.chan 0).lockOn 50).isSome = true ∧ (s.ctx 0).abortMark = false ∧ (s.ctx 0).phase 0 ≠ none
      ∧ ((handle (.foregroundArrives 0 0 .read) s).1.chan 0).locks = [⟨50, 7, [(0, 0)]⟩] ∧ (a.ctx 0).abortMark = true
      ∧ ((q 2).chan 0).lockOn 50 = none ∧ ((q 2).chan 0).foregroundCount = 2 ∧ ((q 3).chan 0).foregroundCount = 3
      ∧ ((q 2).chan 0).waiting = [] ∧ ((handle (.foregroundArrives 0 0 .read) (q 3)).1.chan 0).waiting.length = 1 := by
  decide +kernel

/-- What a channel chooses, and what it starts: an entry of each kind, a redirected and a poisoned block. -/
theorem test_channel_selects :
    let all : List QEntry := [fgEntry 1 .read, ⟨.move 7, .read, 50⟩, ⟨.move 7, .program, 65541⟩, ⟨.commit, .program, 66560⟩]
    let c : Channel := { Channel.cold 1 with state := .online, queue := all }
    let one (e : QEntry) (f : Rlt → Rlt) : State := withChan (fun c => { c with queue := [e] }) (rltState f)
    c.choose = some ⟨.commit, .program, 66560⟩ ∧ { c with queue := all.take 3 }.choose = some ⟨.move 7, .read, 50⟩
      ∧ { c with queue := all.take 2, moveBuf := some ⟨8, none⟩ }.choose = some (fgEntry 1 .read)
      ∧ c.moveReady ⟨.move 7, .read, 50⟩ = true
      ∧ (performs (fgEntry 1 .read) c).link ≠ .idle ∧ (runningState.chan 0).choose = none
      ∧ ((one (fgEntry 1 .read) (redirected false)).chan 0).choose = some (fgEntry 1 .read)
      ∧ ((handle (.select 0) (one (fgEntry 1 .read) (redirected false))).1.chan 0).link
        = .performing (fgEntry 1 .read) 65536 false 2 7000 [] false
      ∧ (handle (.select 0) (one (fgEntry 1 .read) (redirected true))).2
        = [.stepEnds 1 0 (.read .poisoned false false []) false, .select 0, .quiet 0]
      ∧ (handle (.select 0) (one ⟨.move 7, .read, 50⟩ (redirected true))).2
        = [.select 0, .quiet 0, .moveReadEnds 0 7 .poisoned false]
      ∧ ((handle (.select 0) (one ⟨.move 7, .read, 50⟩ id)).1.chan 0).moveBuf = some ⟨7, none⟩ := by decide +kernel

/-- A move's start: unit OFFLINE, dropped finding, behind a performed entry, and accepted for each cause; its end. -/
theorem test_move_starts :
    let s := movingState (moveOf .starting (reqOf .readWeak []))
    let f := movingState (moveOf .starting (findingOf false))
    (s.rlt 0).move 7 = some (moveOf .starting (reqOf .readWeak [])) ∧ (s.chan 0).state ≠ .offline
      ∧ ((withChan (fun c => { c with state := .offline }) s).chan 0).state = .offline
      ∧ ((withChan (fun c => { c with marks := [(50, .rewritten)] }) f).chan 0).markOn 50 = some .rewritten
      ∧ (findingOf false).finding ≠ none
      ∧ ((withChan (performs (fgEntry 1 .read)) s).chan 0).performing = some (fgEntry 1 .read)
      ∧ (handle (.moveStart 0 7) (withChan (performs (fgEntry 1 .read)) s)).2 = []
      ∧ (s.chan 0).performing = none ∧ (handle (.moveStart 0 7) s).2 = [.moveEntryArrives 0 7 .read 50]
      ∧ (handle (.moveStart 0 7) (movingState (moveOf .starting (reqOf .programFail [])))).2
        = [.moveEntryArrives 0 7 .program 65541]
      ∧ (handle (.moveStart 0 7) (movingState (moveOf .starting (reqOf .readLost [])))).2
        = [.moveEntryArrives 0 7 .clear 65541]
      ∧ (leaveSlot 0 7 (withChan (fun c => { c with locks := [⟨50, 7, [(1, 0), (2, 0)]⟩] }) s)).2
        = [.select 0, .reissue 1 0, .reissue 2 0] := by decide +kernel

/-- Held steps that are released: a read, a program on a writable region, and one after a refused step. -/
theorem test_held_steps :
    let h (cmd : StepCmd) : State := withCtx (fun c => { c with cursor := 1, blocks := [⟨0, .held cmd⟩] }) (grantedState .fill fillRecord)
    let r := withCtx (fun c => { c with stepRefused := true }) (h .program)
    ((h .read).ctx 0).phase 0 = some (.held .read) ∧ ((h .program).ctx 0).phase 0 = some (.held .program)
      ∧ ((h .program).region (writeRegion ((h .program).ctx 0).record)).writable = true
      ∧ (r.ctx 0).stepRefused = true ∧ ((h .program).ctx 0).stepRefused = false
      ∧ (handle (.reissue 0 0) (h .program)).2 = [.foregroundArrives 0 0 .program]
      ∧ ((handle (.reissue 0 0) r).1.ctx 0).final.map (fun f => f.2.status) = some .isProtected := by decide +kernel

/-! ### The end of the probe -/

/-- An image of a device of one unit. -/
def imageOf (g w : Nat) : Image := ⟨g, w, 1, PatrolCfg.fresh, 4, State.reset.durable⟩

/-- The probe with every slot judged: the valid units, the copies of unit 0, the state of unit 0. -/
def probed (valid : UnitId → Bool) (a b : Option Image) (st : UnitState) : State :=
  { State.reset with
    chans := Vector.ofFn fun u : Fin 4 => { Channel.cold 1 with identified := some (valid u), state := if u = 0 then st else .absent }
    cme := { Cme.cold with loads := #v[⟨none, [], a, b⟩, ⟨none, [], none, none⟩, ⟨none, [], none, none⟩, ⟨none, [], none, none⟩] } }

/-- The image choice and the layout check, the unit states at their ends. -/
theorem test_probe_ends :
    let s := probed (fun u => u < 2) (some (imageOf 3 9)) (some (imageOf 3 8)) .absent
    let f := probed (fun u => u < 2) none none .offline
    let h := probed (fun u => u = 1) none none .absent
    chooseImage (validCopies s) = some (imageOf 3 9)
      ∧ (∀ u, (s.chan u).identified = some false ∨ ((s.chan u).identified = some true ∧ (s.load u).slot = none))
      ∧ s.dev.state = .probing ∧ (State.reset.chan 0).identified = none
      ∧ (handle .probeCheck s).1.width = 1 ∧ (handle .probeCheck s).1.cme.gen = 3
      ∧ four.map (fun u => ((handle .probeCheck s).1.chan u).state) = [.online, .online, .absent, .absent]
      ∧ validCopies f = [] ∧ freshWidth f = some 2
      ∧ four.map (fun u => ((handle .probeCheck f).1.chan u).state) = [.offline, .online, .absent, .absent]
      ∧ validCopies h = [] ∧ freshWidth h = none ∧ (handle .probeCheck h).1.dev.fault = .probeLayout := by decide +kernel

/-! ### Outcomes at contexts and moves -/

/-- A context whose block 0 is an outstanding read of a record. -/
def readingState (k : OpKind) (r : Bytes) : State :=
  withCtx (fun c => { c with cursor := 1, blocks := [⟨0, .outstanding .read⟩], bufs := c.bufs.set 0 ⟨some 0, none⟩ })
    (grantedState k r)

/-- A DIGEST of which block 1 has been read before block 0. -/
def digestState : State :=
  withCtx (fun c => { c with
      cursor := 2, blocks := [⟨0, .outstanding .read⟩, ⟨1, .fold⟩], bufs := #v[⟨some 0, none⟩, ⟨some 1, some [2]⟩, .free, .free] })
    (grantedState .digest digestRecord)

theorem test_read_outcomes :
    let read (cls : ReadClass) (s : State) : State := (handle (.stepEnds 0 0 (.read cls true true [1]) true) s).1
    ((readingState .read readRecord).ctx 0).phase 0 ≠ none ∧ (stoppedState.ctx 0).phase 0 = none
      ∧ ((read .clean (readingState .read readRecord)).ctx 0).phase 0 = some .bufferWrite
      ∧ ((read .corrected (readingState .verify verifyRecord)).ctx 0).moveReqs = 1
      ∧ ((read .corrected (readingState .verify verifyRecord)).ctx 0).weak = 1
      ∧ ((read .poisoned (readingState .verify verifyRecord)).ctx 0).failure = some (0, .dataLost)
      ∧ (handle (.stepEnds 0 0 (.read .blank false false [1]) false) (readingState .copy copyRecord)).2
        = [.foregroundArrives 0 0 .program]
      ∧ ((readingState .copy copyRecord).region (argDstRegion copyRecord)).writable = true
      ∧ ((readingState .copy copyRecord).ctx 0).abortMark = false ∧ ((readingState .copy copyRecord).ctx 0).stepRefused = false
      ∧ ((read .clean (inState .halted .resultError (readingState .read readRecord))).ctx 0).phase 0 = none := by decide +kernel

/-- The digest takes block 0 and block 1 behind it, and keeps block 1 waiting alone. -/
theorem test_digest_folds :
    (digestState.ctx 0).foldNext = 0 ∧ (digestState.ctx 0).phase 1 = some .fold ∧ (digestState.ctx 0).phase 2 ≠ some .fold
      ∧ (digestState.ctx 0).abortMark = false ∧ (digestState.ctx 0).failure = none
      ∧ ((digestState.ctx 0).bufs[(0 : Fin 4)]).bound = some 0
      ∧ ((handle (.stepEnds 0 0 (.read .clean false false [1]) false) digestState).1.ctx 0).foldNext = 2
      ∧ ((withCtx (fun c => { c with foldNext := 1, blocks := [⟨0, .outstanding .read⟩] }) digestState).ctx 0).phase 1 ≠ some .fold
      := by decide +kernel

theorem test_move_reads :
    let s := movingState (moveOf .reading (reqOf .directed [⟨1, 0, true⟩]))
    (s.rlt 0).move 7 = some (moveOf .reading (reqOf .directed [⟨1, 0, true⟩])) ∧ (runningState.rlt 0).move 7 = none
      ∧ ((movingState (moveOf .writing (reqOf .directed []))).rlt 0).move 7 = some (moveOf .writing (reqOf .directed []))
      ∧ (handle (.moveReadEnds 0 7 .data false) s).2 = [.moveEntryArrives 0 7 .program 65541]
      ∧ (handle (.moveReadEnds 0 7 .uncorrectable false) s).2
        = [.blockEnds 1 0 (.failed .dataLost), .moveEntryArrives 0 7 .clear 65541]
      ∧ (handle (.moveReadEnds 0 7 .poisoned false) s).2
        = [.select 0, .blockEnds 1 0 (.failed .dataLost), .slotFreed 0] := by decide +kernel

theorem test_write_outcomes :
    let s := performingState .program false
    (s.ctx 0).phase 0 ≠ none
      ∧ ((handle (.stepEnds 0 0 .programPoisoned false) s).1.ctx 0).phase 0 = some .awaitCommit
      ∧ ((handle (.stepEnds 0 0 .programFail false) s).1.ctx 0).phase 0 = some .awaitMove
      ∧ ((handle (.moveBatched 0 0) s).1.ctx 0).phase 0 = some .awaitCommit
      ∧ ((handle (.blockEnds 0 0 (.failed .noSpare)) s).1.ctx 0).failure = some (0, .noSpare)
      ∧ ((handle (.blockEnds 0 0 (.live 9)) s).1.ctx 0).blocksOk = 1 := by decide +kernel

/-- A move's program: OK, failed with spares left (first and third spare) and without, OFFLINE; an abandoned finding; poison
clears with and without a clear of the block in the batch. -/
theorem test_move_writes :
    let s := movingState (moveOf .writing (reqOf .directed [⟨1, 0, true⟩]))
    let third := movingState { moveOf .writing (reqOf .directed [⟨1, 0, true⟩]) with tries := 3 }
    let last := noSpares.setRlt 0 { noSpares.rlt 0 with moves := [moveOf .writing (reqOf .directed [⟨1, 0, true⟩])] }
    let p := s.setCme { s.cme with accumulating := [.dead 0 1, .poisonClear 0 50 [(2, 0)]] }
    (s.rlt 0).move 7 = some (moveOf .writing (reqOf .directed [⟨1, 0, true⟩])) ∧ (last.rlt 0).table.dead.length = 1024
      ∧ (handle (.moveWriteEnds 0 7 .ok) s).2
        = [.moveBatched 1 0, .change (.entry 0 7 50 5 .directed false (some 0))]
      ∧ (handle (.moveWriteEnds 0 7 .programFail) s).2 = [.change (.dead 0 5), .moveEntryArrives 0 7 .program 65536]
      ∧ (handle (.moveWriteEnds 0 7 .programFail) third).2
        = [.change (.dead 0 5), .select 0, .blockEnds 1 0 (.failed .writeFailed), .slotFreed 0]
      ∧ (abandonMove 0 (moveOf .reading (findingOf true)) .noSpare s).2
        = [.select 0, .findingEnded 0 50 ⟨1, true⟩ .abandoned, .slotFreed 0]
      ∧ (handle (.poisonClear 0 50 1 0) p).1.cme.accumulating = [.dead 0 1, .poisonClear 0 50 [(2, 0), (1, 0)]]
      ∧ (handle (.poisonClear 0 51 1 0) p).2 = [.change (.poisonClear 0 51 [(1, 0)])] := by decide +kernel

/-- A unit lost with entries queued, a step held, a move and a request. -/
theorem test_unit_loss :
    let s := withChan
      (fun c => { c with
        link := .performing (fgEntry 0 .read) 65536 true 2 5000 [] false
        queue := [fgEntry 1 .read, ⟨.commit, .program, 66560⟩], locks := [⟨9, 7, [(2, 0)]⟩] })
      (rltState fun r =>
        { r with moves := [moveOf .reading (findingOf false)], requests := [reqOf .directed [⟨4, 0, true⟩]] })
    reached s.tick 5000 = true
      ∧ (unitLoss 0 (fgEntry 0 .read) 65536 s).2
        = [.patrolLost 0 false, .stepEnds 0 0 .offline true, .stepEnds 1 0 .offline false, .copyEnds 0 (.offline false),
            .stepEnds 2 0 .offline false, .movesLost 0 none]
      ∧ (handle (.movesLost 0 none) s).2
        = [.findingEnded 0 50 ⟨1, false⟩ .abandoned, .blockEnds 4 0 (.failed .unitOffline)] := by decide +kernel

/-! ### Commits, wider -/

/-- The STOPPED device with region 3 in a state and an accumulating batch. -/
def batchState (st : RegionState) (batch : List Change) : State :=
  let s := stoppedState.setRegion 3 ⟨some (regionDef st), 0, none, false⟩
  (s.setCme { s.cme with accumulating := batch }).setRlt 0
    { s.rlt 0 with moves := [moveOf .batched (reqOf .programFail [⟨1, 0, false⟩])], failing := [4] }

/-- A take that removes changes, one that closes a region, one with the generation exhausted. -/
theorem test_takes :
    let batch : List Change := [.poisonClear 0 51 [(2, 0)], .entry 0 7 50 5 .programFail false none, .dead 0 4]
    let s := batchState .guarded batch
    let x := s.setCme { s.cme with gen := 18446744073709551615 }
    s.cme.exhausted = false ∧ x.cme.exhausted = true ∧ batch.map (removedAtTake s) = [true, true, false]
      ∧ s.regionOfBlock 0 50 = some 3 ∧ (s.region 3).inState .guarded = true ∧ (s.rlt 0).move 7 ≠ none
      ∧ (takeBatch s).2 = [.blockEnds 2 0 (.failed .isProtected), .select 0, .blockEnds 1 0 (.failed .isProtected),
          .slotFreed 0, .closingCheck]
      ∧ (takeBatch x).1.cme.inFlight = none
      ∧ ((takeBatch (batchState .opened [.region 3 0 0 .fix])).1.region 3).closing = true
      ∧ Change.isLog (.log ⟨1, .stopped, 0, 0, 0, 0, Tallies.zero⟩) = true := by decide +kernel

/-- CLOSING with a program step of region 3 in a channel and without; writing on two mirrors and on none. -/
theorem test_closing :
    let s := (takeBatch (batchState .opened [.region 3 0 0 .fix])).1
    let busy := withChan (fun c => { c with waiting := [fgEntry 1 .program] }) s
    let lost := { s with chans := mapVec (fun c => { c with state := .offline }) s.chans }
    s.cme.state = .closing ∧ s.cme.inFlight.isSome = true ∧ stepsInChannels busy 3 = 1 ∧ (busy.region 3).closing = true
      ∧ (handle .closingCheck busy).2 = [] ∧ (∀ i, i < 32 → (s.region i).closing = true → stepsInChannels s i = 0)
      ∧ s.mirrorsInService = [0, 1]
      ∧ (handle .closingCheck s).2 = [.commitEntryArrives 0 .program 66560, .commitEntryArrives 1 .program 66560]
      ∧ lost.mirrorsInService = [] ∧ (handle .closingCheck lost).1.cme.inFlight = none
      ∧ ({ Cme.cold with gen := 1, curWseq := 1, slots := #v[some (1, 1), none, none, some (1, 1)] } : Cme).targetSlot 0 = .b
      ∧ ({ Cme.cold with gen := 1, curWseq := 1, slots := #v[some (1, 1), none, none, some (1, 1)] } : Cme).targetSlot 1 = .a
      ∧ (handle .engineLeaves s).1.cme.state = .idle ∧ (batchState .opened [.config 1]).cme.accumulating ≠ []
      ∧ s.cme.state ≠ .loading := by decide +kernel

/-- A commit of two copies, their states given. -/
def twoCopies (a b : Copy) (batch : List Change) (second : Bool) : State :=
  let s := batchState .opened []
  let im := formImage s 1 1 batch
  s.setCme { s.cme with state := .writing, wseq := 1, inFlight := some ⟨batch, im, second, [a, b], []⟩ }

/-- An image of more than one block. -/
def longImage : Image :=
  let im := formImage stoppedState 1 1 []
  { im with tables := { im.tables with
    units := im.tables.units.set 0 ⟨(List.range 300).map fun i => ⟨i, i, .directed, false, 1⟩, []⟩ } }

/-- The copies of a commit: a next program, a wait for the other copy, a thin success, a second attempt, a failure. -/
theorem test_copies :
    let w (u : UnitId) (n : Nat) : Copy := ⟨u, .a, n, false, .writing⟩
    let bad : Copy := ⟨1, .a, 0, true, .failed false (some 66560)⟩
    let n := (formImage (batchState .opened []) 1 1 []).blocks
    let batch : List Change := [.entry 0 7 50 5 .programFail false none, .dead 0 4, .poisonClear 0 51 [(2, 0)], .config 3]
    let long : State := (twoCopies (w 0 0) (w 1 0) [] false).setCme { (twoCopies (w 0 0) (w 1 0) [] false).cme with
      inFlight := some ⟨[], longImage, false, [w 0 0, w 1 0], []⟩ }
    0 + 1 < longImage.blocks ∧ (handle (.copyEnds 0 .ok) long).2 = [.commitEntryArrives 0 .program 66561]
      ∧ (handle (.copyEnds 0 .programFail) (twoCopies (w 0 0) (w 1 0) [] false)).2 = []
      ∧ (handle (.copyEnds 0 .ok) (twoCopies (w 0 (n - 1)) bad [] false)).1.cme.gen = 1
      ∧ ((handle (.copyEnds 0 .ok) (twoCopies (w 0 (n - 1)) bad [] false)).1.ntu.slots[EventKind.mirrorCopyFailed.slot]).count = 1
      ∧ (handle (.copyEnds 0 .programFail) (twoCopies (w 0 0) bad [] false)).1.cme.state = .retrying
      ∧ (handle (.copyEnds 0 .programFail) (twoCopies (w 0 0) bad [] false)).2
        = [.commitEntryArrives 0 .program 66560, .commitEntryArrives 1 .program 66560]
      ∧ (handle (.copyEnds 0 (.offline false)) (twoCopies (w 0 0) bad batch true)).2
        = [.changeEnds 3 false, .select 0, .blockEnds 1 0 (.failed .commitFailed), .blockEnds 2 0 (.failed .commitFailed),
            .slotFreed 0, .engineLeaves]
      ∧ (commitSucceeds ⟨batch, formImage (batchState .opened []) 1 1 batch, false, [], []⟩ (batchState .opened [])).2
        = [.changeEnds 3 true, .select 0, .blockEnds 1 0 (.live 5), .blockEnds 2 0 (.live 0), .slotFreed 0, .engineLeaves]
      ∧ ((batchState .opened []).rlt 0).failing = [4] := by decide +kernel

/-! ### Patrol, wider -/

/-- Unit 0 of a RUNNING device in a sub-state of pass 1, at a cursor, with its channel changed. -/
def unitState (sub : SubState) (cursor : Nat) (timer : Option Tick) (f : Channel → Channel) : State :=
  (withChan f (inPass runningState)).setPatrolUnit 0
    { PatrolUnit.cold with sub := sub, cursor := cursor, paceTimer := timer, settleTimer := timer, findings := [9] }

/-- Pace and settle timers of a RUNNING device. -/
theorem test_patrol_timers_running :
    ((unitState .paceWait 3 (some 5000) id).patrolUnit 0).paceTimer = some 5000 ∧ reached 5000 (5000 : Tick) = true
      ∧ ((after (.paceExpiry 0) (unitState .paceWait 3 (some 5000) id)).patrolUnit 0).sub = .readOut
      ∧ ((after (.settleExpiry 0) (unitState .suspended 3 (some 5000) id)).patrolUnit 0).sub = .readOut := by decide +kernel

/-- Every answer to an offer, and what the unit makes of it, at the first and at the last block. -/
theorem test_offers :
    let lock (c : Channel) : Channel := { c with locks := [⟨50, 7, []⟩] }
    let offer (s : State) : SubState × Nat := (((handle (.patrolReady 0) s).1.patrolUnit 0).sub, ((handle (.patrolReady 0) s).1.patrolUnit 0).cursor)
    let poisoned := (unitState .ready 50 none id).setRlt 0 (redirected true Rlt.cold)
    offerAnswer (unitState .ready 50 none lock) 0 50 = .moving ∧ offer (unitState .ready 50 none lock) = (.ready, 51)
      ∧ offer (unitState .ready 65535 none fun c => { c with locks := [⟨65535, 7, []⟩] }) = (.finished, 65536)
      ∧ offerAnswer poisoned 0 50 = .poisoned ∧ offer poisoned = (.readOut, 50)
      ∧ offer (unitState .ready 50 none fun c => { c with waiting := [fgEntry 1 .read] }) = (.suspended, 50)
      ∧ offerAnswer (unitState .ready 50 none fun c => { c with lastDeparture := some 3001 }) 0 50 = .settling 3001
      ∧ offerAnswer (unitState .ready 50 none fun c => { c with lastDeparture := some 3000 }) 0 50 = .accepted
      ∧ offer (unitState .ready 50 none fun c => { c with state := .offline }) = (.stoppedUnit, 50)
      ∧ ((unitState .ready 50 none id).chan 0).state.inService = true
      ∧ offer { unitState .ready 50 none id with dev := ⟨.stopped, .none, false, false, false⟩ } = (.ready, 50)
      ∧ (inPass runningState).patrol.stopMark = false ∧ runningState.patrol.cfg.pace = 0 := by decide +kernel

/-- Read ends and findings of the open pass and of another. -/
theorem test_patrol_reads :
    let s := unitState .readOut 50 (some 6000) id
    let last := unitState .readOut 65535 none id
    s.patrol.running = true ∧ (s.patrolUnit 0).sub = .readOut ∧ s.patrol.passNumber = 1
      ∧ ((handle (.patrolReadEnds 0 .clean false false) s).1.patrolUnit 0).sub = .paceWait
      ∧ ((handle (.patrolReadEnds 0 .blank false false) last).1.patrolUnit 0).sub = .finished
      ∧ (handle (.patrolReadEnds 0 .uncorrectable false true) s).2 = [.moveRequest 0 (findingOf true)]
      ∧ ((handle (.findingAnswered 0 50 ⟨1, false⟩ .taken) s).1.patrolUnit 0).findings = [9, 50]
      ∧ ((handle (.findingAnswered 0 50 ⟨1, false⟩ .full) s).1.patrolUnit 0).sub = .moveWait
      ∧ (handle (.findingAnswered 0 50 ⟨2, false⟩ .full) s).2 = []
      ∧ ((handle (.findingEnded 0 9 ⟨1, false⟩ .moved) s).1.patrol.tallies).weakMoved = 1
      ∧ ((handle (.freeSlotReport 0) (unitState .moveWait 50 none id)).1.patrolUnit 0).sub = .readOut
      ∧ ((handle (.quiet 0) (unitState .suspended 50 none fun c => { c with lastDeparture := some 4000 })).1.patrolUnit 0).settleTimer
        = some 6000
      ∧ ((handle (.patrolLost 0 false) (unitState .finished 65536 none id)).1.patrolUnit 0).sub = .stoppedUnit := by decide +kernel

/-- A move read that ends as the last entry of its channel: the quiet report readies the SUSPENDED unit, whose read is performed
before the move's program, which waits in the queue (R79; log entry 21). -/
theorem test_quiet_before_the_outcome :
    let s := (unitState .suspended 60 none (performs ⟨.move 7, .read, 50⟩)).setRlt 0
      { Rlt.cold with moves := [moveOf .reading (reqOf .readWeak [])] }
    let t := after (.readAnswer 0 2 (.clean [1])) s
    (t.chan 0).performing = some ⟨.patrol, .read, 60⟩ ∧ (t.chan 0).queue = [⟨.move 7, .program, 65541⟩]
      ∧ (t.patrolUnit 0).sub = .readOut := by decide +kernel

/-- The identity entry goes out with the zeros behind it; the last write's completion ends a warm reset, or leaves it open. -/
theorem test_writes_end_a_reset :
    let s : State := { handedOne with dev := ⟨.stopping, .none, true, false, false⟩ }
    let t : State := { s with ntu := { s.ntu with handed := 2 } }
    (after .deviceAreaWrite (writeWaiting ⟨.identity, zeros 64⟩)).ntu.handed = 3
      ∧ (after .deviceAreaWrite (writeWaiting ⟨.identity, zeros 64⟩)).out.length = 3
      ∧ 0 < t.ntu.handed ∧ t.dev.resetInProgress = true
      ∧ ResetWorkOver (s.dev.state = .halted) (after (.deviceAreaWriteCompleted 0) s)
      ∧ ¬ ResetWorkOver (t.dev.state = .halted) (after (.deviceAreaWriteCompleted 0) t)
      ∧ (after (.deviceAreaWriteCompleted 0) s).dev.state = .stopped :=
  ⟨by decide +kernel, by decide +kernel, by decide +kernel, by decide +kernel,
    ⟨by decide +kernel, by decide +kernel, by decide +kernel, by decide +kernel, .inr (by decide +kernel)⟩,
    (fun h => absurd h.writes (by decide +kernel)), by decide +kernel⟩

/-! ### The check order -/

/-- The first step of the check order a record of lane 0 fails. -/
def firstRefusal (s : State) (k : OpKind) (r : Bytes) (right : Bool) : Option Status :=
  match firstFail (argumentChecks s k r) with
  | some st => some st
  | none => firstFail (accessChecks s k r 0 right)

/-- One record for each condition of step 2, beyond its bound. -/
theorem test_argument_faults :
    let s := withRecord .opened readRecord
    ([(.read, readRecord.set 14 0x20), (.copy, copyRecord.set 14 4), (.read, readRecord.set 14 8), (.read, readRecord.set 14 0x10),
      (.read, readRecord.set 15 32), (.read, readRecord.set 20 0), (.relocate, relocateRecord.set 20 2),
      (.barrier, barrierRecord.set 20 1), (.copy, copyRecord.set 24 32), (.copy, copyRecord.set 28 31),
      (.startPass, startPassRecord), (.setPatrol, setRecord.set 26 0), (.setPatrol, setRecord.set 26 8),
      (.tableRead, tableReadRecord.set 24 4), (.tableRead, relocationReadRecord.set 25 2), (.regionDefine, defineRecord.set 24 32),
      (.regionDefine, defineRecord.set 32 0), (.regionDefine, defineRecord.set 25 16), (.verify, verifyRecord.set 22 1),
      (.read, readRecord.set 22 0), (.read, readRecord.set 22 3), (.read, recordOf 1 0x01 0 3 0 1 1 [] (segmentBytes 0 4096)),
      (.read, listRecord.set 22 65), (.read, listRecord.set 56 8)]
        : List (OpKind × Bytes)).map (fun p => firstRefusal s p.1 p.2 true) = List.replicate 24 (some .badArg) := by decide +kernel

/-- Arguments that step 2 accepts, and some that it does not. -/
theorem test_arguments_ok :
    ArgumentsOk (withRecord .opened copyRecord) .copy copyRecord
      ∧ ArgumentsOk (withRecord .opened tableReadRecord) .tableRead tableReadRecord
      ∧ ¬ ArgumentsOk (withRecord .opened readRecord) .read (readRecord.set 15 32) :=
  ⟨⟨by decide +kernel, fun h => absurd h (by decide +kernel), by decide, by decide, by decide +kernel, by decide +kernel,
      by decide, by decide, by decide +kernel, by decide, by decide, by decide, by decide, fun _ => by decide +kernel,
      fun h => by simp [TakesSegments] at h, fun h => by simp [TakesSegments] at h⟩,
    ⟨by decide +kernel, fun _ => .inr (.inr rfl), by decide, by decide, by decide, by decide, by decide, by decide +kernel,
      by decide, by decide, by decide, by decide +kernel, by decide, fun h => absurd (.inr (.inr rfl)) h,
      fun _ _ => ⟨by decide +kernel, by decide +kernel, ⟨by decide +kernel, by decide +kernel⟩⟩,
      fun _ h => absurd h (by decide +kernel)⟩,
    fun h => absurd (h.region (.inl rfl)) (by decide +kernel)⟩

/-- One state for each condition of steps 3 to 8, the last one that passes. -/
theorem test_access_faults :
    let at3 (e : RegionEntry) (r : Bytes) : State := (withRecord .opened r).setRegion 3 e
    let d := regionDef .opened
    let other : RegionDef := { d with owners := 2 }
    let live (x : RegionDef) (p : Option RegionOp) : RegionEntry := ⟨some x, 0, p, false⟩
    let none3 : RegionEntry := ⟨none, 0, none, false⟩
    let busy := live d (some .delete)
    ([(none3, .read, readRecord, true), (live d none, .read, readRecord.set 16 64, true), (busy, .read, readRecord, true),
        (none3, .write, writeRecord, true), (live other none, .write, writeRecord, true), (busy, .write, writeRecord, true),
        (live { d with state := .guarded } none, .fill, fillRecord, true), (⟨some d, 0, none, true⟩, .fill, fillRecord, true),
        (live other none, .relocate, relocateRecord, false), (live other none, .relocate, relocateRecord, true),
        (none3, .copy, copyRecord, true), (live other none, .copy, copyRecord, true), (busy, .copy, copyRecord, true),
        (live { d with state := .fixed } none, .copy, copyRecord, true)]
          : List (RegionEntry × OpKind × Bytes × Bool)).map
        (fun p => firstRefusal (at3 p.1 p.2.2.1) p.2.1 p.2.2.1 p.2.2.2)
      = [some .noRegion, some .outOfRange, some .regionBusy, some .noRegion, some .notOwner, some .regionBusy,
        some .isProtected, some .isProtected, some .noRight, none, some .noRegion, some .notOwner, some .regionBusy,
        some .isProtected]
    ∧ ([(busy, .regionDelete, deleteRecord, false), (none3, .regionDelete, deleteRecord, true), (busy, .regionDelete, deleteRecord, true),
        (live { d with state := .guarded } none, .regionDelete, deleteRecord, true),
        (⟨some d, 1, none, false⟩, .regionDelete, deleteRecord, true), (live other none, .regionGuard, guardRecord, false),
        (live { d with state := .fixed } none, .regionGuard, guardRecord, true),
        (live { d with state := .fixed } none, .regionFix, fixRecord, true), (live d (some .guard), .regionFix, fixRecord, true)]
          : List (RegionEntry × OpKind × Bytes × Bool)).map
        (fun p => firstRefusal (at3 p.1 p.2.2.1) p.2.1 p.2.2.1 p.2.2.2)
      = [some .noRight, some .noRegion, some .regionBusy, some .isProtected, some .regionBusy, some .noRight,
        some .isProtected, none, some .regionBusy]
    ∧ ([(defineRecord, true), (defineRecord.set 24 3, true), (defineRecord, false), (defineRecord.set 32 101, true),
        (defineRecord.set 30 2, true)] : List (Bytes × Bool)).map
        (fun p => firstRefusal (at3 (live d none) p.1) .regionDefine p.1 p.2)
      = [none, some .indexInUse, some .noRight, some .overlap, some .outOfRange]
    ∧ firstRefusal ((withRecord .opened defineRecord).setRegion 31 ⟨none, 0, some (.define 0 9 1 0), false⟩) .regionDefine
        defineRecord true = some .regionBusy
    ∧ ([(.startPass, startPassRecord), (.stopPass, stopPassRecord), (.lockdown, lockdownRecord), (.barrier, barrierRecord)]
          : List (OpKind × Bytes)).map (fun p => [false, true].map (firstRefusal (inPass (withRecord .opened p.2)) p.1 p.2))
      = [[some .noRight, some .patrolBusy], [some .noRight, none], [some .noRight, none], [none, none]] := by decide +kernel

/-! ### Contexts that settle, commits and passes that end at a context -/

/-- Context 0 of a WRITE with its block in a phase, in a state. -/
def settling (st : CtxState) (blocks : List BlockEntry) (cursor : Nat) (f : Context → Context) : State :=
  withCtx (fun c => f { c with state := st, blocks := blocks, cursor := cursor }) (grantedState .write writeRecord)

/-- ISSUING goes on with a block left to take, and ends in COMMIT_WAIT, DRAINING_STEPS or FINISHING; an aborted record does not
wait for a commit's block; in HALTED a warm reset frees the context once nothing is left. -/
theorem test_contexts_settle :
    let st (s : State) : CtxState := ((ctxSettle 0 s).ctx 0).state
    let halted (reset : Bool) (s : State) : State := { s with dev := ⟨.halted, .resultError, reset, false, false⟩ }
    st (settling .issuing [] 0 id) = .issuing
      ∧ st (settling .issuing [⟨0, .awaitCommit⟩] 1 id) = .commitWait
      ∧ st (settling .issuing [⟨0, .outstanding .program⟩] 1 id) = .drainingSteps
      ∧ st (settling .issuing [⟨0, .awaitMove⟩] 1 id) = .drainingSteps
      ∧ st (settling .issuing [] 1 id) = .finishing
      ∧ st (settling .issuing [⟨0, .awaitCommit⟩] 1 fun c => { c with abortMark := true }) = .drainingSteps
      ∧ st (settling .issuing [⟨0, .hostRead⟩] 1 fun c => { c with failure := some (0, .writeFailed) }) = .drainingSteps
      ∧ st (settling .drainingSteps [⟨0, .awaitCommit⟩, ⟨1, .fold⟩] 1 id) = .commitWait
      ∧ st (settling .commitWait [⟨0, .outstanding .program⟩] 1 id) = .commitWait
      ∧ st (settling .commitWait [⟨1, .fold⟩] 1 id) = .finishing
      ∧ st (settling .drainingSteps [] 1 fun c => { c with waitPass := true }) = .drainingSteps
      ∧ st (settling .loading [] 1 id) = .loading
      ∧ st (halted false (settling .drainingSteps [] 1 id)) = .drainingSteps
      ∧ (ctxSettle 0 (halted true (settling .drainingSteps [] 1 id))).ctx 0 = Context.empty
      ∧ ((ctxSettle 0 (halted true (settling .drainingSteps [] 1 id))).region 3).users = 0
      ∧ st (halted true (settling .drainingSteps [⟨0, .hostRead⟩] 1 id)) = .drainingSteps
      ∧ st (halted true (settling .loading [] 0 fun c => { c with listReading := true })) = .loading := by decide +kernel

/-- What a settling context tests, at the values where the tests meet. -/
theorem test_what_is_left :
    NothingLeft ((settling .issuing [⟨1, .fold⟩] 1 id).ctx 0) ∧ ¬ NothingLeft ((settling .issuing [⟨0, .hostRead⟩] 1 id).ctx 0)
      ∧ IssueOver ((settling .issuing [] 1 id).ctx 0) ∧ ¬ IssueOver ((settling .issuing [] 0 id).ctx 0)
      ∧ IssueOver ((chunkState 3).ctx 0) ∧ ¬ IssueOver ((chunkState 0).ctx 0) :=
  ⟨⟨by decide +kernel, by decide +kernel, by decide +kernel⟩,
    fun h => absurd (h.blocks ⟨0, .hostRead⟩ (by decide +kernel)) (by decide), by unfold IssueOver; decide +kernel, by unfold IssueOver; decide +kernel,
    by unfold IssueOver; decide +kernel, by unfold IssueOver; decide +kernel⟩

/-- The result words of decided records. -/
theorem test_result_words :
    let word (k : OpKind) (r : Bytes) (f : Context → Context) : Option (BitVec 64) :=
      ((enterFinishing 0 (withCtx f { grantedState k r with cme := { Cme.cold with gen := 9 } })).ctx 0).final.map fun p => p.2.result
    word .digest digestRecord (fun c => { c with crc := 0xF }) = some 0xFFFFFFF0
      ∧ word .digest digestRecord (fun c => { c with crc := 0xF, abortMark := true }) = some 0
      ∧ word .verify verifyRecord (fun c => { c with moveReqs := 5 }) = some 5
      ∧ word .relocate relocateRecord (fun c => { c with result := 7 }) = some 7
      ∧ word .relocate relocateRecord (fun c => { c with failure := some (0, .noSpare) }) = some (BitVec.allOnes 64)
      ∧ word .tableRead tableReadRecord (fun c => { c with snapGen := some 2, written := 1024 }) = some 0x200000400
      ∧ word .stopPass stopPassRecord (fun c => { c with result := 3 }) = some 3
      ∧ word .setPatrol setRecord (fun c => { c with refusal := some .noRight }) = some 0
      ∧ word .setPatrol setRecord (fun c => { c with otherFail := some .commitFailed }) = some 9
      ∧ word .regionFix fixRecord (fun c => { c with refusal := some .noRight }) = some 9
      ∧ word .write writeRecord id = some 0 := by decide +kernel

/-- The end of the commit a SET and a region operation wait for, and of the pass a STOP_PASS waits for, aborted and not. -/
theorem test_waits_end :
    let set := grantedState .setPatrol setRecord
    let fix := grantedState .regionFix fixRecord
    let stop : State := withCtx (fun c => { c with state := .drainingSteps, waitPass := true, final := none })
      (grantedState .stopPass stopPassRecord)
    let outcome (m : Msg) (s : State) : Option (FinalState × Status × BitVec 64) :=
      ((handle m s).1.ctx 0).final.map fun p => (p.1, p.2.status, p.2.result)
    (set.ctx 0).waitCommit = true ∧ (set.ctx 0).state = .commitWait ∧ (set.ctx 0).blocks = [] ∧ (set.ctx 0).waitPass = false
      ∧ (set.ctx 0).refusal = none ∧ (set.ctx 0).abortMark = false ∧ (set.ctx 0).failure = none ∧ (set.ctx 0).otherFail = none
      ∧ recKind (set.ctx 0).record = .setPatrol ∧ (fix.ctx 0).waitCommit = true ∧ recKind (fix.ctx 0).record = .regionFix
      ∧ (stop.ctx 0).waitPass = true ∧ recKind (stop.ctx 0).record = .stopPass ∧ (stop.ctx 0).waitCommit = false
      ∧ outcome (.changeEnds 0 true) set = some (.done, .ok, 0) ∧ outcome (.changeEnds 0 false) set = some (.failed, .commitFailed, 0)
      ∧ outcome (.changeEnds 0 true) (fix.setCme { fix.cme with gen := 6 }) = some (.done, .ok, 6)
      ∧ outcome (.changeEnds 0 false) (fix.setCme { fix.cme with gen := 5 }) = some (.failed, .commitFailed, 5)
      ∧ outcome (.passEnded 0 4) stop = some (.done, .ok, 4)
      ∧ outcome (.passEnded 0 4) (withCtx (fun c => { c with abortMark := true }) stop) = some (.cancelled, .aborted, 0)
      ∧ (handle (.changeEnds 1 true) set).2 = [] ∧ (set.ctx 1).waitCommit = false ∧ (set.ctx 1).waitPass = false := by
  decide +kernel

/-- A COPY block whose destination is not writable, that follows a refused step, and of an aborted record. -/
theorem test_copy_blocks_end :
    let s := readingState .copy copyRecord
    let read (s : State) : Eff := handle (.stepEnds 0 0 (.read .clean false false [1]) false) s
    let closed := s.setRegion 3 { s.region 3 with closing := true }
    let refused := withCtx (fun c => { c with stepRefused := true }) s
    let aborted := withCtx (fun c => { c with abortMark := true }) s
    (closed.region (argDstRegion copyRecord)).writable = false ∧ (refused.ctx 0).stepRefused = true ∧ (aborted.ctx 0).abortMark = true
      ∧ ((read closed).1.ctx 0).failure = some (0, .isProtected) ∧ ((read closed).1.ctx 0).stepRefused = true
      ∧ ((read refused).1.ctx 0).failure = some (0, .isProtected) ∧ (read refused).2 = []
      ∧ ((read aborted).1.ctx 0).failure = none ∧ ((read aborted).1.ctx 0).phase 0 = none ∧ (read aborted).2 = [] := by
  decide +kernel

/-- A redirected move read, a redirected patrol read and a redirected FOREGROUND step, lost with their unit. -/
theorem test_marks_of_lost_reads :
    let s := movingState (moveOf .reading (reqOf .directed [⟨3, 0, true⟩]))
    let loss (e : QEntry) (target : Nat) : List Msg := (unitLoss 0 e target s).2
    loss ⟨.move 7, .read, 50⟩ 65536 = [.patrolLost 0 false, .movesLost 0 (some 7)]
      ∧ loss ⟨.move 7, .read, 50⟩ 50 = [.patrolLost 0 false, .movesLost 0 none]
      ∧ loss ⟨.move 7, .program, 65541⟩ 65541 = [.patrolLost 0 false, .movesLost 0 none]
      ∧ loss ⟨.patrol, .read, 50⟩ 66559 = [.patrolLost 0 true, .movesLost 0 none]
      ∧ loss ⟨.patrol, .read, 50⟩ 50 = [.patrolLost 0 false, .movesLost 0 none]
      ∧ loss ⟨.commit, .program, 66560⟩ 66560 = [.patrolLost 0 false, .copyEnds 0 (.offline true), .movesLost 0 none] := by
  decide +kernel

/-! ### Lanes, device and routes, wider -/

/-- An ABORT of a lane with a staged record and a running one: the staged record's CANCELLED write, the lane DRAINING, a held
step withdrawn and its record decided, a COMMIT_WAIT context as it was; the same with a step still out. -/
theorem test_abort_of_records :
    let lane : Lane := { stagedLane readRecord with
      window := [⟨6, 0x7F80, .running 1, true, true, false, false⟩, ⟨7, 0x8000, .staged, false, false, false, false⟩] }
    let ctx (st : CtxState) (blocks : List BlockEntry) : Context :=
      { Context.empty with state := st, record := writeRecord, blocks := blocks, cursor := 1 }
    let s (c : Context) : State :=
      withChan (fun k => { k with locks := [⟨9, 7, [(1, 0), (2, 0)]⟩] })
        (((withRecord .opened readRecord).setLane 0 lane).setCtx 1 c)
    let t (c : Context) : State := after (.abort 1) (s c)
    let held := ctx .issuing [⟨0, .held .program⟩]
    ((t held).lane 0).state = .draining
      ∧ ((t held).lane 0).window.map WinRec.cond = [.running 1, .final .cancelled]
      ∧ (t held).out = resultWrites 0x8000 ⟨.aborted, 0, BitVec.allOnes 32, 0, 0, 0, 5000, 5000⟩ .cancelled
      ∧ ((t held).ctx 1).final.map (fun f => (f.1, f.2.status)) = some (.cancelled, .aborted)
      ∧ ((t held).chan 0).locks.map Lock.held = [[(2, 0)]]
      ∧ ((t (ctx .issuing [⟨0, .outstanding .program⟩])).ctx 1).state = .drainingSteps
      ∧ ((t (ctx .issuing [⟨0, .outstanding .program⟩])).ctx 1).abortMark = true
      ∧ ((t (ctx .loading [])).ctx 1) = { ctx .loading [] with abortMark := true }
      ∧ ((t (ctx .commitWait [⟨0, .awaitCommit⟩])).ctx 1) = ctx .commitWait [⟨0, .awaitCommit⟩]
      ∧ (runningState.lane 3).state = .off ∧ (t held).lane 3 = runningState.lane 3 := by decide +kernel

/-- A DRAINING lane turns OFF with every record final, outside HALTED, in HALTED only in a warm reset and without contexts. -/
theorem test_lanes_turn_off :
    let lane (cond : RecCond) (read : Option LaneRead) : Lane := { Lane.cold with
      state := .draining, cfg := ⟨0x8000, 7, .a, true, 0⟩, reading := read, drainNext := some 0x9000, window := [winRec cond], retireSeq := 6 }
    let s (cond : RecCond) (read : Option LaneRead) : State := runningState.setLane 0 (lane cond read)
    let off := laneOff 0 (s (.final .done) none)
    let halted (reset : Bool) : State := { s (.running 1) none with dev := ⟨.halted, .resultError, reset, false, false⟩ }
    ((off.lane 0).state, (off.lane 0).retireSeq, (off.lane 0).resume, (off.lane 0).window) = (LaneState.off, 7, 0x9000, [])
      ∧ off.ntu.routeA.state = .signalled ∧ off.ntu.writes.map WriteReq.target = [.laneStatus 0, .message .a]
      ∧ laneOff 0 (s (.running 1) none) = s (.running 1) none
      ∧ laneOff 0 (s (.final .done) (some .config)) = s (.final .done) (some .config)
      ∧ ((finishEvent (s (.final .done) none)).lane 0).state = .off
      ∧ ((finishEvent (halted false)).lane 0).state = .draining
      ∧ ((laneHaltedOff 0 (halted true)).lane 0).state = .off ∧ ((laneHaltedOff 0 (halted true)).lane 0).resume = 0x8000
      ∧ ((laneHaltedOff 0 (halted true)).lane 0).retireSeq = 6
      ∧ laneHaltedOff 0 ((halted true).setCtx 1 { Context.empty with state := .issuing })
        = (halted true).setCtx 1 { Context.empty with state := .issuing }
      ∧ (∀ x, ((halted true).ctx x).state ≠ .free → ((halted true).ctx x).lane ≠ 0) := by decide +kernel

/-- STOPPING stays with a lane's read in flight and ends with the read; it ends at the event after which nothing is left. -/
theorem test_stopping_ends :
    let s := (inState .stopping .none anchored).setLane 0 { Lane.cold with state := .seeking, reading := some (.fetch 0x9000) }
    (s.dev.state = .stopping ∧ s.dev.resetInProgress = false) ∧ ¬ NothingToDrain s ∧ NothingToDrain (inState .stopping .none anchored)
      ∧ ModesLegal s
      ∧ (after (.anchorHi 0) s).dev.state = .stopping
      ∧ (after (.fetchEnd 0 .busError 0) s).dev.state = .stopped
      ∧ (finishEvent (inState .stopping .none anchored)).dev.state = .stopped
      ∧ (finishEvent { s with dev := ⟨.stopping, .none, true, false, false⟩ }).dev.state = .stopping :=
  ⟨by decide +kernel, fun h => absurd (h.lanes 0) (by decide +kernel), ⟨by decide +kernel, by decide +kernel, by decide +kernel⟩,
    modesLegal_of (by decide +kernel), by decide +kernel, by decide +kernel, by decide +kernel, by decide +kernel⟩

/-- RUN with both routes HOLDING: at the new threshold, both send, A first; below it neither does. A READY unit of an open pass
offers. -/
theorem test_run_sends_and_offers :
    let s (count : Nat) : State := { inPass runPending with
      messagesEnabled := true
      ntu := { runPending.ntu with routeA := ⟨.holding, count, false, some 90⟩, routeB := ⟨.holding, count, true, some 91⟩ } }
    let read : HostResult Bytes := .data (padTo 64 [10, 0, 0, 0, 10, 0, 2, 0, 10, 0, 2])
    let t (count : Nat) : State := after (.runTaken read 0) (s count)
    (s 2).dev.runPending = true ∧ (s 2).dev.state = .stopped ∧ ((s 2).route .a).state = .holding ∧ (s 2).patrol.running = true
      ∧ (settingsAfter (s 2).settings read).routeA.threshold = 2
      ∧ (t 2).ntu.writes = [⟨.message .a, []⟩, ⟨.message .b, []⟩] ∧ (t 2).route .b = ⟨.signalled, 0, true, none⟩
      ∧ (t 1).ntu.writes = [] ∧ (t 1).route .a = ⟨.holding, 1, false, some 90⟩
      ∧ (((s 2).patrolUnit 0).sub == .ready) = true ∧ ((t 2).patrolUnit 0).sub = .readOut := by decide +kernel

/-- Lane faults: the fault record, the status write and the LANE_FAULT slot after a fetch of another sequence number. -/
theorem test_lane_faults :
    let s := laneReading .seeking (.fetch 0x9000)
    let t := after (.fetchEnd 0 (.data readRecord) 0) s
    (t.lane 0).faultAddr = 0x9000 ∧ (t.lane 0).resume = 0x9000 ∧ s.anchor ≠ 0 ∧ s.dev.state ≠ .halted
      ∧ (s.lane 0).lastStatus ≠ some (t.lane 0).status
      ∧ t.ntu.writes.map WriteReq.target = [.laneStatus 0, .slot 7]
      ∧ (t.ntu.slots[EventKind.laneFault.slot]).count = 1
      ∧ (t.ntu.slots[EventKind.laneFault.slot]).detail.code = 1 ∧ (t.ntu.slots[EventKind.laneFault.slot]).detail.lane = 0 := by
  decide +kernel

/-- A cause after a slot write: taken, and dropped for route none, anchor 0 and HALTED. -/
theorem test_causes_taken_and_dropped :
    let post (route : RouteSel) (s : State) : State :=
      postEvent .spareLow {} { s with settings := { s.settings with eventRoutes := Vector.replicate 10 route } }
    (post .a runningState).ntu.routeA.state = .signalled ∧ (post .b runningState).ntu.routeB.state = .signalled
      ∧ (post .none runningState).ntu.routeA.state = .idle ∧ (post .a stoppedState).ntu.routeA.state = .idle
      ∧ stoppedState.anchor = 0 ∧ (post .a haltedState).ntu.routeA.state = .idle ∧ (post .a stoppedState).ntu.writes = []
      ∧ (postEvent .spareLow {} (post .none runningState)).ntu.writes.length = 1 := by decide +kernel

/-! ### Late answers, commits and images, wider -/

/-- Answers at an idle link, while IDENTIFY is out, and at a performing link; expiries of another attempt and too early. -/
theorem test_discarded_answers :
    (State.reset.chan 0).link = .identify false 1 2000
      ∧ ([.identifyAnswer 0 2 (.identity 4096 66592), .identifyAnswer 0 1 .other, .readAnswer 0 1 .blank, .programAnswer 0 1 .ok,
          .clearAnswer 0 1 .ok, .noResponse 0 1, .noResponse 0 2] : List Instr).all
        (fun c => (after c State.reset).chans == State.reset.chans) = true
      ∧ reached State.reset.tick 2000 = false ∧ (runningState.chan 0).link = .idle
      ∧ ([.identifyAnswer 0 0 (.identity 4096 66592), .readAnswer 0 0 .blank, .noResponse 0 0] : List Instr).all
        (fun c => (after c runningState).chans == runningState.chans) = true
      ∧ ([.identifyAnswer 0 2 (.identity 4096 66592), .readAnswer 0 1 .blank, .programAnswer 0 2 .ok, .noResponse 0 1,
          .readAnswer 0 2 (.corrected 9 [])] : List Instr).all
        (fun c => (after c (performingState .read false)).chans == (performingState .read false).chans) = true
      ∧ reached ({ performingState .read false with tick := 4999 } : State).tick 5000 = false := by decide +kernel

/-- Target slots: the current one's other, the lower record, an invalid one, A when both are equal; the seventeenth log entry. -/
theorem test_target_slots :
    let c (a b : SlotRecord) : Cme := { Cme.cold with gen := 5, curWseq := 9, slots := #v[a, b, a, b] }
    let log (n : Nat) : Change := .log ⟨BitVec.ofNat 32 n, .stopped, 0, 0, 0, 0, Tallies.zero⟩
    (c (some (5, 9)) (some (4, 8))).targetSlot 0 = .b ∧ (c (some (4, 8)) (some (5, 9))).targetSlot 1 = .a
      ∧ (c (some (4, 8)) (some (3, 9))).targetSlot 0 = .b ∧ (c (some (4, 7)) (some (4, 8))).targetSlot 0 = .a
      ∧ (c (some (4, 8)) (some (4, 8))).targetSlot 0 = .a ∧ (c (some (4, 8)) none).targetSlot 0 = .b
      ∧ (c none (some (4, 8))).targetSlot 0 = .a ∧ (c none none).targetSlot 1 = .a
      ∧ joinBatch (log 17) (.config 1 :: (List.range 16).map log)
        = .config 1 :: ((List.range 15).map fun n => log (n + 1)) ++ [log 17]
      ∧ joinBatch (log 16) ((List.range 15).map log) = (List.range 15).map log ++ [log 16] := by decide +kernel

/-- Slot records and events of a completion with a written and a failed copy. -/
theorem test_completions_recorded :
    let written : Copy := ⟨0, .a, 1, true, .written⟩
    let bad : Copy := ⟨1, .b, 0, true, .failed true (some 66576)⟩
    let s0 := { batchState .opened [] with anchor := 0x1000 }
    let s := { s0 with settings := { s0.settings with spareLow := 1024 } }.setCme
      { s0.cme with slots := Vector.replicate 4 (some (1, 1)) }
    let batch : List Change := [.region 3 0 0 .guard, .entry 0 7 50 5 .programFail false none, .dead 0 4]
    let f : InFlight := ⟨batch, formImage s 2 8 batch, false, [written, bad], []⟩
    let t := (commitSucceeds f s).1
    let e := (commitFails { f with copies := [bad], earlier := [{ written with state := .failed false none, performed := false }] } 1 s).1
    t.cme.slots = #v[some (2, 8), some (1, 1), some (1, 1), none]
      ∧ e.cme.slots = #v[some (1, 1), some (1, 1), some (1, 1), none]
      ∧ t.ntu.writes.map WriteReq.target = [.slot 6, .slot 8, .slot 0, .slot 9]
      ∧ (t.ntu.slots[(0 : Fin 10)]).detail.code = 4 ∧ (t.ntu.slots[(8 : Fin 10)]).detail.code = 0x12
      ∧ (t.ntu.slots[(9 : Fin 10)]).detail.code = 1022 ∧ (t.ntu.slots[(9 : Fin 10)]).detail.media = 0
      ∧ e.ntu.writes.map WriteReq.target = [.slot 5] := by decide +kernel

/-- Block 0 of the copy of an empty image of one unit for unit 0, slot A, zeros behind its header left out: n and B as given. -/
def copyHeader (n blocks : Nat) (gen : Nat) : Bytes :=
  let body := leBytes 8 gen ++ leBytes 1 n ++ leBytes 1 blocks ++ [0, 1, 0, 0, 4, 0] ++ leBytes 4 0 ++ leBytes 4 2000
    ++ leBytes 4 7 ++ leBytes 8 0 ++ leBytes 8 9
  leBytes 4 1 ++ leBytes 4 (crc32c (leBytes 4 1 ++ zeros 4 ++ body)).toNat ++ body

/-- A header is valid for its own unit and slot alone; the check word, the generation and a region outside the space. -/
theorem test_copies_judged :
    let b := copyHeader 1 1 3
    headerOk 0 .a b = true ∧ headerOk 0 .b b = false ∧ headerOk 1 .a b = false ∧ headerOk 0 .a (copyHeader 3 1 3) = false
      ∧ headerOk 0 .a (copyHeader 1 2 3) = false ∧ headerOk 0 .a (copyHeader 1 0 3) = false
      ∧ copyOk b = true ∧ copyOk (copyHeader 1 1 0) = false ∧ copyOk (b.set 24 5) = false := by decide +kernel

/-- Start-up reads: a blank block 0 makes slot A invalid and slot B is read; a valid block 0 of one block is a copy; an invalid one
is none; block 1 of a copy of two follows; after slot B the probe is tested; at a lost unit no more is read. -/
theorem test_start_up_reads :
    let b := copyHeader 1 1 3
    let two := (b.set 17 2).set 36 100
    let s (sl : Option Slot) (blocks : List Bytes) : State :=
      (withChan (fun c => { c with state := .online }) State.reset).setLoad 0 ⟨sl, blocks, none, none⟩
    (s (some .a) []).load 0 = ⟨some .a, [], none, none⟩
      ∧ (handle (.loadReadEnds 0 none) (s (some .a) [])).2 = [.commitEntryArrives 0 .read 66576]
      ∧ ((handle (.loadReadEnds 0 (some b)) (s (some .a) [])).1.load 0).copyA.map Image.gen = some 3
      ∧ ((handle (.loadReadEnds 0 (some (b.set 17 2))) (s (some .a) [])).1.load 0).copyA = none
      ∧ headerOk 0 .a two = true
      ∧ (handle (.loadReadEnds 0 (some two)) (s (some .a) [])).2 = [.commitEntryArrives 0 .read 66561]
      ∧ (handle (.loadReadEnds 0 none) (s (some .b) [])).2 = [.probeCheck]
      ∧ (handle (.loadReadEnds 0 none) (s none [])).2 = []
      ∧ (handle (.loadReadEnds 0 (some b)) (withChan (fun c => { c with state := .offline }) (s (some .a) []))).2 = [.probeCheck] := by
  decide +kernel

/-- A pending GUARD accepted before LOCKDOWN becomes live with its commit; with the flag set a further one is refused. -/
theorem test_lockdown_keeps_pending_changes :
    let s := { committing false with lockdown := true }
    let r : State := { withRecord .opened fixRecord with lockdown := true }
    s.lockdown = true ∧ ((commitSucceeds (inFlight false) s).1.region 3).live = some (regionDef .guarded)
      ∧ ((commitSucceeds (inFlight false) s).1.region 3).pending = none ∧ (commitSucceeds (inFlight false) s).1.lockdown = true
      ∧ ((commitFails (inFlight false) 1 s).1.region 3).live = some (regionDef .opened)
      ∧ firstFail (argumentChecks r .regionFix fixRecord) = none ∧ recSeglist fixRecord = false
      ∧ firstFail (accessChecks { r with lockdown := false } .regionFix fixRecord 0 true) = none
      ∧ ((after .regionFix r).ctx 0).final.map (fun f => f.2.status) = some .lockedDown := by decide +kernel

/-- Choices of the model: a held program reissued after a failed host read of its record (log entry 48), and a pace timer that
expires at pace 0 in a STOPPED device (log entry 51). -/
theorem test_marked_choices :
    let h := withCtx (fun c => { c with cursor := 2, blocks := [⟨0, .held .program⟩], hostFailed := some 1, failure := some (1, .hostMemory) })
      (grantedState .write writeRecord)
    let p := patrolling .paceWait
    let zero : State := { p with patrol := { p.patrol with cfg := ⟨0, 2000, 4, false⟩ } }
    (h.ctx 0).phase 0 = some (.held .program) ∧ (handle (.reissue 0 0) h).2 = [.foregroundArrives 0 0 .program]
      ∧ ((after (.paceExpiry 0) zero).patrolUnit 0).sub = .paceWait := by decide +kernel

/-- A slot freed while no spare is choosable: the waiting request is abandoned and the slot is free again. -/
theorem test_freed_slot_without_spare (dead : List Nat) (h : ∀ k, k < 1024 → dead.contains k = true) :
    (((deadSpares dead).setRlt 0 { (deadSpares dead).rlt 0 with requests := [reqOf .directed [⟨1, 0, true⟩]] }).rlt 0).nextRequest
        = some (reqOf .directed [⟨1, 0, true⟩])
      ∧ (((deadSpares dead).setRlt 0 { (deadSpares dead).rlt 0 with requests := [reqOf .directed [⟨1, 0, true⟩]] }).rlt 0).lowestChoosable
        = none :=
  ⟨rfl, test_dead_spares_are_not_chosen dead h⟩

/-! ### Third review -/

/-- A refused START with the count at its greatest changes nothing; one below asks for the status entry; both resets' sendings. -/
theorem test_full_count_and_sendings :
    let full := fourLanes.setLane 0 { fourLanes.lane 0 with refused := 65535 }
    let one := fourLanes.setLane 0 { fourLanes.lane 0 with refused := 65534 }
    startsTaken full = true ∧ (full.lane 0).state ≠ .off ∧ after (.start 1) full = full
      ∧ ((after (.start 1) one).lane 0).refused = 65535
      ∧ (⟨.laneStatus 0, ((after (.start 1) one).lane 0).status.bytes⟩ : WriteReq) ∈ (after (.start 1) one).ntu.writes
      ∧ (after (.coldReset .busReset) stoppedState).out = four.map (fun u => .media u ((stoppedState.chan u).sent + 1) .identify)
      ∧ (after (.coldReset .resetInput) stoppedState).out = []
      ∧ ((after (.coldReset .resetInput) stoppedState).chan 0).sent = 1
      ∧ ((after .resetInputRelease (after (.coldReset .resetInput) stoppedState)).chan 3).sent = 2 := by decide +kernel

/-- The engine after a failed layout check, the slot records of a choice and of a fresh start. -/
theorem test_slot_records :
    let s := probed (fun u => u < 2) (some (imageOf 3 9)) (some (imageOf 3 8)) .absent
    let o := probed (fun u => u < 2) (some (imageOf 3 9)) (some (imageOf 2 10)) .absent
    let f := probed (fun u => u < 2) none none .absent
    let h := probed (fun u => u = 1) none none .absent
    (handle .probeCheck s).1.cme.slots = #v[some (3, 9), none, none, none]
      ∧ (handle .probeCheck o).1.cme.slots = #v[some (3, 9), some (2, 10), none, none] ∧ (handle .probeCheck o).1.cme.wseq = 10
      ∧ (handle .probeCheck f).1.cme.slots = Vector.replicate 4 none
      ∧ (handle .probeCheck h).1.cme.state = .idle ∧ (handle .probeCheck h).1.cme.gen = 0
      ∧ (handle .probeCheck h).1.dev.state = .halted := by decide +kernel

/-- The marks: set by a patrol read, made REWRITTEN by a foreground program and by another move's lock, taken by a finding's own
start, and left by a foreground read; nothing to choose. -/
theorem test_marks :
    let marked (c : Channel) : Channel := { c with marks := [(50, .cleanSinceRead), (7, .cleanSinceRead)] }
    let step (e : QEntry) : State := withChan (fun c => { marked c with queue := [e] }) (rltState id)
    let start (q : MoveReq) : State := (handle (.moveStart 0 7) (withChan marked (movingState (moveOf .starting q)))).1
    ((handle (.patrolReady 0) (unitState .ready 50 none marked)).1.chan 0).marks = [(7, .cleanSinceRead), (50, .cleanSinceRead)]
      ∧ ((handle (.select 0) (step (fgEntry 1 .program))).1.chan 0).marks = [(50, .rewritten), (7, .cleanSinceRead)]
      ∧ ((handle (.select 0) (step (fgEntry 1 .read))).1.chan 0).marks = [(50, .cleanSinceRead), (7, .cleanSinceRead)]
      ∧ ((start (reqOf .readWeak [])).chan 0).marks = [(50, .rewritten), (7, .cleanSinceRead)]
      ∧ ((start (findingOf true)).chan 0).marks = [(7, .cleanSinceRead)]
      ∧ ((start (findingOf true)).ntu.slots[(1 : Fin 10)]).detail.code = 2
      ∧ ((start (findingOf false)).ntu.slots[(1 : Fin 10)]).count = 0
      ∧ { (runningState.chan 0) with queue := [⟨.move 7, .read, 50⟩], moveBuf := some ⟨8, none⟩ }.choose = none := by
  decide +kernel

/-- A DROPPED start without waiters, and with DIRECTED ones, which get the slot; no request that could take a slot. -/
theorem test_dropped_starts :
    let m (ws : List Waiter) : Move := moveOf .starting { findingOf false with waiters := ws }
    let d := startDropped 0 (m [⟨1, 0, true⟩, ⟨2, 0, true⟩]) (movingState (m [⟨1, 0, true⟩, ⟨2, 0, true⟩]))
    (startDropped 0 (m []) (movingState (m []))).2 = [.findingEnded 0 50 ⟨1, false⟩ .dropped, .slotFreed 0]
      ∧ ((startDropped 0 (m []) (movingState (m []))).1.rlt 0).moves = []
      ∧ d.2 = [.findingEnded 0 50 ⟨1, false⟩ .dropped, .moveStart 0 0]
      ∧ (d.1.rlt 0).moves.map (fun k => (k.spare, k.req.cause, k.req.waiters.length)) = [(0, .directed, 2)]
      ∧ ((rltState fun r => { r with
          moves := [moveOf .reading (reqOf .readWeak [])], requests := [reqOf .programFail []] }).rlt 0).nextRequest = none := by
  decide +kernel

/-- Changes applied: each region operation, a new entry and a re-point, a dead mark, a poison clear, a SET. -/
theorem test_changes_applied :
    let d : Durable := { (rltState id).durable with
      units := #v[⟨[⟨40, 1, .readWeak, false, 1⟩, ⟨60, 2, .readLost, true, 1⟩], [3]⟩, ⟨[], []⟩, ⟨[], []⟩, ⟨[], []⟩] }
    let region (op : RegionOp) : Option RegionDef := ((d.apply 9 (.region 3 0 0 op)).regions[3]?).join
    let entries (c : Change) : List (Nat × Nat × Bool × Nat) :=
      ((d.apply 9 c).units[(0 : Fin 4)]).entries.map fun e => (e.src, e.spare, e.poisoned, e.gen)
    region (.define 5 6 1 2) = some ⟨5, 6, 1, .opened, 2, none⟩ ∧ region .delete = none
      ∧ region .guard = some (regionDef .guarded) ∧ region .release = some (regionDef .opened)
      ∧ region .fix = some { regionDef .opened with state := .fixed, fixedGen := some 9 }
      ∧ entries (.entry 0 7 50 5 .directed false none) = [(40, 1, false, 1), (50, 5, false, 9), (60, 2, true, 1)]
      ∧ entries (.entry 0 7 40 5 .directed false none) = [(40, 5, false, 9), (60, 2, true, 1)]
      ∧ ((d.apply 9 (.entry 0 7 40 5 .directed false none)).units[(0 : Fin 4)]).dead = [3, 1]
      ∧ ((d.apply 9 (.dead 0 8)).units[(0 : Fin 4)]).dead = [3, 8]
      ∧ entries (.poisonClear 0 60 []) = [(40, 1, false, 1), (60, 2, false, 9)] ∧ d.apply 9 (.config 0) = d := by
  decide +kernel

/-- The staging buffers of a FILL, with and without BLANK, and of a READ after a block is taken. -/
theorem test_taken_blocks :
    let took (k : OpKind) (r : Bytes) : Context := (takeBlock 0 (grantedState k r)).1.ctx 0
    ((took .fill fillRecord).bufs[(0 : Fin 4)]).bound = some 0
      ∧ ((took .fill fillRecord).bufs[(0 : Fin 4)]).data.map (fun d => (d.take 9, d.drop 4090))
        = some ([1, 2, 3, 4, 5, 6, 7, 8, 1], [3, 4, 5, 6, 7, 8])
      ∧ ((took .fill blankRecord).bufs[(0 : Fin 4)]).data.map (fun d => (d.drop 4094, d.all (· == 0))) = some ([0, 0], true)
      ∧ (took .fill blankRecord).phase 0 = some (.outstanding .clear)
      ∧ ((took .read readRecord).bufs[(0 : Fin 4)]) = ⟨some 0, none⟩ ∧ (took .read readRecord).phase 0 = some (.outstanding .read)
      ∧ (took .write writeRecord).phase 0 = some .hostRead := by decide +kernel

/-- The first bytes of the four snapshots, a defined region, an unused position and the unit records' codes among them. -/
theorem test_snapshot_bytes :
    let s := rltState (redirected true)
    ((snapshot s 0 0).drop 96).take 24
        = [3, 1, 0, 1, 0, 0, 0, 0, 100, 0, 0, 0, 64, 0, 0, 0] ++ zeros 8
      ∧ (snapshot s 0 0).take 3 = [0, 0, 0] ∧ ((snapshot s 0 0).drop 32).take 2 = [1, 0]
      ∧ (snapshot s 1 0).take 18 = [50, 0, 0, 0, 0, 0, 3, 1, 1, 0, 0, 0, 0, 0, 0, 0, 0xFF, 0xFF]
      ∧ (snapshot s 2 0).take 16 = [0, 0, 0, 4, 0, 0, 0, 0, 0xD0, 7, 0, 0, 0, 0, 0, 0]
      ∧ (snapshot s 3 0).take 16 = [1, 1, 1, 0, 0xFF, 3, 0, 0, 1, 0, 0, 0, 1, 0, 1, 0]
      ∧ ((snapshot s 3 0).drop 512).take 4 = [0, 0, 0, 0] := by decide +kernel

/-- Both routes acknowledged with a reason to send: A's message before B's, a waiting one of A gone from its place. -/
theorem test_acknowledgements_send :
    let r : Route := ⟨.signalled, 3, true, none⟩
    let s0 := routed 5 2 r
    let s : State := { s0 with
      settings := { s0.settings with routeB := ⟨0, 64⟩ }
      ntu := { s0.ntu with routeB := r, writes := [⟨.message .a, []⟩, ⟨.slot 9, zeros 64⟩] } }
    let off : State := { s with messagesEnabled := false }
    (after (.acknowledge 3) s).ntu.writes = [⟨.slot 9, zeros 64⟩, ⟨.message .a, []⟩, ⟨.message .b, []⟩]
      ∧ (after (.acknowledge 2) s).ntu.writes = [⟨.message .a, []⟩, ⟨.slot 9, zeros 64⟩, ⟨.message .b, []⟩]
      ∧ (after (.acknowledge 3) off).ntu.writes = off.ntu.writes
      ∧ ((after (.acknowledge 3) off).route .b).state = .signalled := by decide +kernel

/-- Where a context settles after a read step and where it does not: the last block of an aborted READ still waits for its
buffer write, and of a VERIFY it ends the record. -/
theorem test_settling_reads :
    let read (s : State) : Context := (handle (.stepEnds 0 0 (.read .clean false false [1]) false) s).1.ctx 0
    let last (k : OpKind) (r : Bytes) : State := withCtx (fun c => { c with abortMark := true }) (readingState k r)
    (read (last .read readRecord)).state = .issuing ∧ (read (last .read readRecord)).phase 0 = some .bufferWrite
      ∧ (read (last .verify verifyRecord)).state = .finishing ∧ (read (last .copy copyRecord)).state = .finishing
      ∧ (read (readingState .copy copyRecord)).phase 0 = some (.outstanding .program)
      ∧ (read (last .digest digestRecord)).state = .finishing := by decide +kernel

/-- Choices of the model: RUNNING goes out before the link read (log entry 55), a departure before a warm reset counts (log entry
56), and a write of eight bytes is taken as one of four (log entry 62). -/
theorem test_marked_choices_of_order :
    (after .read (withRecord .opened readRecord)).out = [.hostWrite 0x800C [2], .hostRead 0x8000 8]
      ∧ ((chanReset 0 (withChan (fun c => { c with lastDeparture := some 4000 }) runningState)).1.chan 0).lastDeparture = some 4000
      ∧ windowCommand 8 8 1 = some .run
      ∧ bufferPieces [⟨0xFFFFFFFFFFFFFE00, 1024⟩] 512 512 = [(0, 512)] := by decide +kernel

/-! ### Fourth review -/

/-- ABORT during a warm reset: with a step still out the reset goes on, and with a staged record alone left it ends. -/
theorem test_abort_in_reset :
    let reset (s : State) : State := { s with dev := ⟨.stopping, .none, true, false, false⟩ }
    let busy (blocks : List BlockEntry) : State := reset ((withRecord .opened readRecord).setCtx 1
      { Context.empty with state := .issuing, record := writeRecord, blocks := blocks, cursor := 1
                           bufs := Context.empty.bufs.set 0 ⟨some 0, some [1]⟩ })
    let t := after (.abort 1) (busy [⟨0, .held .program⟩, ⟨1, .outstanding .program⟩])
    let e := after (.abort 1) ((reset runningState).setLane 0 { Lane.cold with state := .parkedEnd, lastStatus := none })
    (busy []).dev.state ≠ .halted ∧ (busy []).dev.resetInProgress = true
      ∧ t.dev = (busy []).dev ∧ (t.lane 0).state = .off ∧ (t.ctx 1).state = .drainingSteps
      ∧ (t.ctx 1).blocks = [⟨1, .outstanding .program⟩] ∧ (t.ctx 1).bufs[(0 : Fin 4)] = ⟨none, none⟩
      ∧ e.dev.resetInProgress = true ∧ (e.lane 0).state = .off ∧ e.ntu.writes ≠ []
      ∧ (after (.abort 2) (reset runningState)).dev.state = .stopped ∧ (after (.abort 2) (reset runningState)).anchor = 0 := by
  decide +kernel

/-- The entry to HALTED: held steps withdrawn and off the lock's list, accesses in flight no longer waited for, their buffers free,
a step still out kept, a FREE context's place kept. -/
theorem test_halt_withdraws_held_steps :
    let c : Context := { Context.empty with
      state := .issuing, record := writeRecord, cursor := 3
      blocks := [⟨0, .held .program⟩, ⟨1, .hostRead⟩, ⟨2, .outstanding .program⟩]
      bufs := #v[⟨some 0, some [1]⟩, ⟨some 1, none⟩, ⟨some 2, some [3]⟩, .free] }
    let s := withChan (fun k => { k with locks := [⟨9, 7, [(1, 0), (2, 0)]⟩] }) (runningState.setCtx 1 c)
    let t := after (.resultError 0) s
    haltsTaken s = true ∧ s.dev.resetInProgress = false ∧ (s.ctx 1).state ≠ .free ∧ (s.ctx 2).state = .free
      ∧ (t.ctx 1).blocks = [⟨2, .outstanding .program⟩] ∧ (t.ctx 1).abortMark = true ∧ (t.ctx 1).state = .issuing
      ∧ (t.ctx 1).bufs = #v[.free, .free, ⟨some 2, some [3]⟩, .free]
      ∧ (t.chan 0).locks.map Lock.held = [[(2, 0)]] ∧ t.ctx 2 = s.ctx 2 := by decide +kernel

/-- Buffers are free again when their blocks end: a refused FILL step, a host read, a buffer write, a read without data, a fold. -/
theorem test_buffers_are_freed :
    let buf (s : State) : StagingBuf := (s.ctx 0).bufs[(0 : Fin 4)]
    let full (s : State) : State := withCtx (fun c => { c with bufs := c.bufs.set 0 ⟨some 0, some [1]⟩ }) s
    let refused := withCtx (fun c => { c with stepRefused := true }) (grantedState .fill fillRecord)
    ((takeBlock 0 refused).1.ctx 0).phase 0 = none ∧ ((takeBlock 0 refused).1.ctx 0).freeBuffer = some 0
      ∧ buf (after (.hostReadEnd 0 0 .busError 0) (full writing)) = ⟨none, none⟩
      ∧ buf (after (.bufferWriteEnd 0 0 false 0) (full buffering)) = ⟨none, none⟩
      ∧ buf (handle (.stepEnds 0 0 (.read .uncorrectable false false []) false) (readingState .verify verifyRecord)).1 = ⟨none, none⟩
      ∧ ((handle (.stepEnds 0 0 (.read .clean false false [9]) false) digestState).1.ctx 0).bufs = Vector.replicate 4 ⟨none, none⟩
      ∧ buf (handle (.stepEnds 0 0 .programFail false) (full (stepState .program id))).1 = ⟨some 0, some [1]⟩ := by decide +kernel

/-- An aborted TABLE_READ: the write out counts when it ends and no further one goes out. -/
theorem test_aborted_table_read :
    let s := withCtx (fun c => { c with abortMark := true }) (chunkState 0)
    let t := after (.bufferWriteEnd 0 0 false 0) s
    (s.ctx 0).phase 0 = some .bufferWrite ∧ recKind (s.ctx 0).record = .tableRead ∧ (s.ctx 0).abortMark = true
      ∧ (t.ctx 0).written = 4096 ∧ t.out.length = s.out.length
      ∧ (t.ctx 0).final.map (fun f => (f.1, f.2.status, f.2.result)) = some (.cancelled, .aborted, 4096) := by decide +kernel

/-- The reads of the lanes at RUN, a SEEKING lane with a read in flight left as it is; DEFINE's index and change. -/
theorem test_reads_at_run_and_define :
    let s : State := fourLanesStopped.setLane 0 { fourLanesStopped.lane 0 with reading := some .config }
    (after (.runTaken .busError 0) fourLanesStopped).out = [.hostRead 0x9000 128, .hostRead 0xA000 128, .hostRead 0x8000 8]
      ∧ (after (.runTaken .busError 0) s).lane 0 = s.lane 0
      ∧ opIndex .regionDefine defineRecord = 31 ∧ opIndex .regionGuard guardRecord = 3
      ∧ opChange .regionDefine defineRecord = .define 0 100 15 1 := by decide +kernel

/-- Choices of the model: a chunk over two segments counts nothing on an error (log entry 64), the device part in two writes (log
entry 65), unit states after a failed layout check (log entry 66), a DIRECTED request beside a poison move in a slot and a listed
PROGRAM_FAIL (log entry 67), a defined byte of 2 (log entry 68), reads past a register's end (log entry 70). -/
theorem test_further_marked_choices :
    let l := after (.listReadEnd 0 (.data tableList) 0) (grantedState .tableRead tableListRecord)
    let h := (handle .probeCheck (probed (fun u => u = 1) none none .offline)).1
    let both := rltState fun r => { r with
      moves := [moveOf .writing (reqOf .readLost [])], requests := [reqOf .programFail [⟨2, 0, false⟩]] }
    let d := handle (.moveRequest 0 (reqOf .directed [⟨1, 0, true⟩])) both
    l.out.drop 3 = [.hostWrite 0x100000 ((regionSnapshot l).take 512), .hostWrite 0x200000 ((regionSnapshot l).drop 512)]
      ∧ ((after (.bufferWriteEnd 0 0 true 0) l).ctx 0).written = 0
      ∧ (resultWrites 0x8000 ⟨.ok, 1, 0, 0, 0, 0, 0, 0⟩ .done).map (fun o => match o with | .hostWrite a b => (a, b.length) | _ => (0, 0))
        = [(0x8058, 12), (0x8068, 24), (0x800C, 1)]
      ∧ four.map (fun u => (h.chan u).state) = [.offline, .absent, .absent, .absent]
      ∧ d.2 = [.blockEnds 1 0 (.failed .dataLost)] ∧ (d.1.rlt 0).requests.map (fun q => q.waiters.length) = [1]
      ∧ regionOfBytes ((regionBytes 3 (some (regionDef .opened)) 0 0).set 1 2) = none
      ∧ runningState.readWindow 4 8 = [0x22, 0, 2, 0] ∧ runningState.readWindow 6 4 = [2, 0] := by decide +kernel

/-- Two BATCHED moves of unit 0 on blocks 50 and 51, each with its lock, a step held on the second, and a listed PROGRAM_FAIL of the
second's block. -/
def twoMoves : State :=
  let on (b : Nat) : MoveReq := { reqOf .directed [] with src := b }
  withChan (fun c => { c with locks := [⟨50, 7, []⟩, ⟨51, 8, [(1, 0)]⟩] })
    (rltState fun r => { r with
      moves := [moveOf .batched (on 50), ⟨8, on 51, .batched, 6, 1⟩]
      requests := [{ reqOf .programFail [⟨2, 0, false⟩] with src := 51 }]
      nextMid := 9 })

/-- A commit that ends both: every lock goes with its move, the held step is handed out again, the slots are told free at last, and
the listed request's move has the one lock of its block (R88, R89). -/
theorem test_one_lock_per_block :
    let batch := (twoMoves.rlt 0).moves.map fun m => m.change 0
    let e := batchEnds .discarded batch twoMoves
    (e.1.rlt 0).moves = [] ∧ (e.1.chan 0).locks = []
      ∧ e.2 = [.select 0, .select 0, .reissue 1 0, .slotFreed 0, .slotFreed 0]
      ∧ ((workOff e).chan 0).locks.map (fun k => (k.block, k.mid)) = [(51, 9)]
      ∧ ((workOff e).rlt 0).moves.map Move.mid = [9] := by decide +kernel

/-- Channel 0 with two locks, an entry of a locked block's move performed and a FOREGROUND entry of a third block queued. -/
def lockedState : State :=
  withChan (fun c => performs ⟨.move 7, .program, 65541⟩ { c with queue := [{ fgEntry 1 .read with block := 52 }] }) twoMoves

theorem test_locks_and_moves_fit :
    MoveLocksFit lockedState ∧ (lockedState.chan 0).locks.length = 2 ∧ (∃ t, step lockedState = .next t) :=
  ⟨fun u => ⟨by revert u; decide +kernel, by revert u; decide +kernel, by revert u; decide +kernel, by revert u; decide +kernel,
      by revert u; decide +kernel, by revert u; decide +kernel, by revert u; decide +kernel⟩, by decide +kernel, _, rfl⟩

end Sys2Proof.Machine.Tests
end

section
/-! The region operations and LOCKDOWN (R10 to R20): the operations that share the LOCKED_DOWN step, what their grant leaves, and
what a commit does to the marks of its regions. -/

namespace Sys2Proof.Machine

/-! ### The five region operations -/

/-- The five operations that change a region, and that the lockdown flag refuses (R11). -/
def IsRegionOp (k : OpKind) : Prop :=
  k = .regionDefine ∨ k = .regionDelete ∨ k = .regionGuard ∨ k = .regionRelease ∨ k = .regionFix

variable {k : OpKind} {s t : State} {l : LaneId} {x : CtxId} {r : Bytes} {a : Addr} {right : Bool}

theorem exec_grantCommand_regionOp (h : IsRegionOp k) (s : State) :
    exec (grantCommand k) s = .next (grantRow k (acceptRegionOp k) s) := by
  rcases h with rfl | rfl | rfl | rfl | rfl <;> rfl

theorem resultWord_regionOp {c : Context} (h : IsRegionOp (recKind c.record)) (gen : Nat) (fs : FinalState) :
    c.resultWord gen fs = BitVec.ofNat 64 gen := by
  unfold Context.resultWord
  rcases h with h | h | h | h | h <;> simp only [h]

/-- Whether an operation leaves its region as it is depends on the region table alone. -/
theorem opNoChange_same (hr : t.regions = s.regions) (k : OpKind) (r : Bytes) : opNoChange t k r = opNoChange s k r := by
  unfold opNoChange
  simp only [State.region, hr]

theorem inState_iff (e : RegionEntry) (st : RegionState) : e.inState st = true ↔ ∃ d, e.live = some d ∧ d.state = st := by
  unfold RegionEntry.inState
  cases e.live <;> simp

/-- The operations that can leave their region as it is, by the state of the region (R12). -/
theorem opNoChange_iff (s : State) (k : OpKind) (r : Bytes) :
    opNoChange s k r = true ↔ ∃ d, (s.region (recRegion r)).live = some d
      ∧ ((k = .regionGuard ∧ d.state = .guarded) ∨ (k = .regionRelease ∧ d.state = .opened)
        ∨ (k = .regionFix ∧ d.state = .fixed)) := by
  cases k <;> simp [opNoChange, inState_iff]

/-- A record that passes step 2 names one of the 32 regions (R28, R13). -/
theorem opIndex_lt (h : IsRegionOp k) (hs : step2Ok s k r = true) : opIndex k r < 32 := by
  simp only [step2Ok, Bool.and_eq_true] at hs
  obtain ⟨⟨⟨⟨-, hregion⟩, -⟩, hargs⟩, -⟩ := hs
  rcases h with rfl | rfl | rfl | rfl | rfl
  case inl =>
    simp only [argsOk, Bool.and_eq_true, decide_eq_true_eq] at hargs
    simp only [opIndex, if_true]
    omega
  all_goals
    simp only [OpKind.namesRegion, Bool.not_true, Bool.false_or, decide_eq_true_eq] at hregion
    simp only [opIndex, reduceCtorEq, if_false]
    omega

/-! ### The first step of the check order that fails -/

theorem firstFail_append (xs ys : List (Bool × Status)) : firstFail (xs ++ ys) = (firstFail xs).or (firstFail ys) := by
  simp only [firstFail, List.find?_append, Option.map_or]

/-- A record that no argument test refuses passes step 2. -/
theorem step2Ok_of_arguments (h : firstFail (argumentChecks s k r) = none) : step2Ok s k r = true := by
  simp only [firstFail, argumentChecks, Option.map_eq_none_iff, List.find?_eq_none] at h
  simpa using h (step2Ok s k r, .badArg) (by simp)

/-- The last step of a region operation's check order reads the lockdown flag, and no step before it does (R13). -/
theorem accessChecks_regionOp (h : IsRegionOp k) (s : State) (r : Bytes) (l : LaneId) (right flag : Bool) :
    accessChecks { s with lockdown := flag } k r l right
      = (accessChecks s k r l right).dropLast ++ [(!flag, .lockedDown)] := by
  rcases h with rfl | rfl | rfl | rfl | rfl <;> rfl

/-- Under lockdown a region operation fails where it fails without, and LOCKED_DOWN where it would pass (R11, R13). -/
theorem firstFail_lockdown (h : IsRegionOp k) (hl : s.lockdown = true) :
    firstFail (accessChecks s k r l right)
      = (firstFail (accessChecks { s with lockdown := false } k r l right)).or (some .lockedDown) := by
  have locked := congrArg firstFail (accessChecks_regionOp h s r l right s.lockdown)
  have free := congrArg firstFail (accessChecks_regionOp h s r l right false)
  rw [firstFail_append] at locked free
  rw [free, show firstFail (accessChecks s k r l right) = _ from locked, hl]
  cases firstFail (accessChecks s k r l right).dropLast <;> rfl

/-! ### Deciding a record -/

/-- A context that enters FINISHING decides its record by its own marks (R35, R66). -/
theorem enterFinishing_decided (x : CtxId) (s : State) :
    Decided (enterFinishing x s) x (s.ctx x).outcome.1 (s.ctx x).outcome.2
      ((s.ctx x).resultWord s.cme.gen (s.ctx x).outcome.1) := by
  constructor <;> simp [enterFinishing, Context.devicePart]

theorem enterFinishing_ctx_other {y : CtxId} (h : y ≠ x) (s : State) : (enterFinishing x s).ctx y = s.ctx y :=
  ctx_setCtx_other s x y _ h

/-- A context in COMMIT_WAIT with nothing left to wait for enters FINISHING (R54). -/
theorem ctxSettle_commitWait (hs : (s.ctx x).state = .commitWait) (hb : (s.ctx x).blocks = [])
    (hc : (s.ctx x).waitCommit = false) (hp : (s.ctx x).waitPass = false) (hh : s.dev.state ≠ .halted) :
    ctxSettle x s = enterFinishing x s := by
  have hrest : (s.ctx x).restState = .finishing := by simp [Context.restState, Context.work, hb, hc, hp]
  simp [ctxSettle, hs, hrest, State.halted, hh]

/-! ### The state in which a record is accepted -/

/-- `u` is `s` after the grant of lane `l`'s record `r`, of operation `k` and at address `a`, to context `x`, the check order
passed (R33): the record is in its context, and no other block but the arbiter, the lane and the links has changed. -/
structure AcceptedIn (s u : State) (l : LaneId) (x : CtxId) (r : Bytes) (k : OpKind) (a : Addr) : Prop where
  ctx : u.ctx x = { Context.granted r a l (s.lane l).cfg.tableRight s.tick with
    segs := if k.needsSegments then inlineSegments r else [] }
  regions : u.regions = s.regions
  ntu : u.ntu = s.ntu
  media : SameMedia s u

theorem grantRow_accepts (g : Grants s l x r k a) (h : PassesChecks s l r k) (accept : CtxId → State → Eff) :
    ∃ u, AcceptedIn s u l x r k a ∧ grantRow k accept s = workOff (accept x u) := by
  have e := takeGrant_eq l x r a s g.addr
  refine ⟨_, ⟨ctx_setCtx_same _ _ _, ?_, ?_, ?_⟩, grantRow_passes g h accept⟩ <;> rw [e]
  · rfl
  · rfl
  · exact ⟨rfl, rfl, rfl, rfl, rfl⟩

variable {u : State}

theorem AcceptedIn.record (h : AcceptedIn s u l x r k a) : (u.ctx x).record = r := by rw [h.ctx]; rfl

theorem AcceptedIn.lane (h : AcceptedIn s u l x r k a) : (u.ctx x).lane = l := by rw [h.ctx]; rfl

/-- A record that is decided as soon as it is accepted has succeeded (R35). -/
theorem AcceptedIn.outcome (h : AcceptedIn s u l x r k a) : (u.ctx x).outcome = (.done, .ok) := by rw [h.ctx]; rfl

theorem region_same (h : t.regions = s.regions) (i : Nat) : t.region i = s.region i := by
  simp only [State.region, h]

/-! ### The two ways an accepted region operation goes on -/

theorem acceptRegionOp_unchanged (h : opNoChange s k (s.ctx x).record = true) :
    acceptRegionOp k x s = (enterFinishing x s, []) := by
  simp only [acceptRegionOp, h, if_true]

theorem acceptRegionOp_pending (h : opNoChange s k (s.ctx x).record = false) :
    acceptRegionOp k x s
      = ((s.setRegion (opIndex k (s.ctx x).record)
            { s.region (opIndex k (s.ctx x).record) with pending := some (opChange k (s.ctx x).record) }).setCtx x
          { s.ctx x with state := .commitWait, waitCommit := true },
        [.change (.region (opIndex k (s.ctx x).record) (s.ctx x).lane x (opChange k (s.ctx x).record))]) := by
  simp only [acceptRegionOp, h, Bool.false_eq_true, if_false]

/-- GUARD of a GUARDED, RELEASE of an OPEN and FIX of a FIXED region are done at their grant (R12). -/
theorem regionOp_unchanged_done (h : IsRegionOp k) (g : Grants s l x r k a) (hc : PassesChecks s l r k)
    (hn : opNoChange s k r = true) :
    ∃ t, exec (grantCommand k) s = .next t
      ∧ Decided t x .done .ok (BitVec.ofNat 64 s.cme.gen) ∧ t.regions = s.regions ∧ SameMedia s t := by
  obtain ⟨u, hu, accepted⟩ := grantRow_accepts g hc (acceptRegionOp k)
  have unchanged : opNoChange u k (u.ctx x).record = true := by rw [hu.record, opNoChange_same hu.regions, hn]
  have decided := enterFinishing_decided x u
  rw [hu.outcome, resultWord_regionOp (by rw [hu.record, g.kind]; exact h), hu.media.cme] at decided
  refine ⟨enterFinishing x u, ?_, decided, hu.regions, hu.media.chans, hu.media.rlts, hu.media.patrol, hu.media.log,
    hu.media.cme⟩
  rw [exec_grantCommand_regionOp h, accepted, acceptRegionOp_unchanged unchanged, workOff_none]

/-- Any other accepted region operation waits in COMMIT_WAIT with its change pending (R10, R14 to R18). -/
theorem regionOp_pending (h : IsRegionOp k) (g : Grants s l x r k a) (hc : PassesChecks s l r k)
    (hn : opNoChange s k r = false) :
    ∃ t, exec (grantCommand k) s = .next (workOff (t, [.change (.region (opIndex k r) l x (opChange k r))]))
      ∧ t.region (opIndex k r) = { s.region (opIndex k r) with pending := some (opChange k r) }
      ∧ (∀ i, i ≠ opIndex k r → t.region i = s.region i)
      ∧ (t.ctx x).state = .commitWait ∧ (t.ctx x).waitCommit = true ∧ SameMedia s t := by
  obtain ⟨u, hu, accepted⟩ := grantRow_accepts g hc (acceptRegionOp k)
  have changes : opNoChange u k (u.ctx x).record = false := by rw [hu.record, opNoChange_same hu.regions, hn]
  have hi : opIndex k r < 32 := opIndex_lt h (step2Ok_of_arguments hc.arguments)
  rw [acceptRegionOp_pending changes, hu.record, hu.lane, region_same hu.regions] at accepted
  have executed := (exec_grantCommand_regionOp h s).trans (congrArg _ accepted)
  refine ⟨_, executed, ?_, fun i hne => ?_, ?_, ?_, hu.media.chans, hu.media.rlts,
    hu.media.patrol, hu.media.log, hu.media.cme⟩
  · rw [setCtx_region, region_setRegion_same _ _ _ hi]
  · rw [setCtx_region, region_setRegion_other _ _ _ _ hne, region_same hu.regions]
  · rw [ctx_setCtx_same]
  · rw [ctx_setCtx_same]

/-! ### The end of a region operation's commit (R20, R65) -/

theorem changeEnds_not_waiting (h : (s.ctx x).waitCommit = false) (ok : Bool) : changeEnds x ok s = s := by
  simp [changeEnds, h]

/-- The context of a change after its commit's end, before it settles (R20, R65). -/
def Context.changeEnded (c : Context) (ok : Bool) : Context :=
  { c with waitCommit := false, otherFail := if ok then c.otherFail else some .commitFailed }

theorem changeEnds_waiting (h : (s.ctx x).waitCommit = true) (ok : Bool) :
    changeEnds x ok s = ctxSettle x (s.setCtx x ((s.ctx x).changeEnded ok)) := by
  simp only [changeEnds, h, if_true]
  rfl

/-- A change's commit decides a record that nothing else has refused, aborted or failed (R35). -/
theorem changeEnded_outcome {c : Context} (hr : c.refusal = none) (ha : c.abortMark = false) (hf : c.failure = none)
    (ho : c.otherFail = none) (ok : Bool) :
    (c.changeEnded ok).outcome = (if ok then .done else .failed, if ok then .ok else .commitFailed) := by
  cases ok <;> simp [Context.outcome, Context.changeEnded, hr, ha, hf, ho]

/-- The end of its commit decides a waiting region operation (R20). -/
theorem regionOp_decided_at_commit (hk : IsRegionOp (recKind (s.ctx x).record)) (hw : (s.ctx x).waitCommit = true)
    (hs : (s.ctx x).state = .commitWait) (hb : (s.ctx x).blocks = []) (hp : (s.ctx x).waitPass = false)
    (hr : (s.ctx x).refusal = none) (ha : (s.ctx x).abortMark = false) (hf : (s.ctx x).failure = none)
    (ho : (s.ctx x).otherFail = none) (hh : s.dev.state ≠ .halted) (ok : Bool) :
    ∃ t, handle (.changeEnds x ok) s = (t, [])
      ∧ Decided t x (if ok then .done else .failed) (if ok then .ok else .commitFailed) (BitVec.ofNat 64 s.cme.gen)
      ∧ (∀ y, y ≠ x → t.ctx y = s.ctx y) ∧ t.regions = s.regions ∧ SameMedia s t ∧ SameDevice s t := by
  let ended := s.setCtx x ((s.ctx x).changeEnded ok)
  have hctx : ended.ctx x = (s.ctx x).changeEnded ok := ctx_setCtx_same _ _ _
  have settled : ctxSettle x ended = enterFinishing x ended :=
    ctxSettle_commitWait (by rw [hctx]; exact hs) (by rw [hctx]; exact hb) (by rw [hctx]; rfl) (by rw [hctx]; exact hp) hh
  have decided := enterFinishing_decided x ended
  rw [hctx, resultWord_regionOp (c := (s.ctx x).changeEnded ok) hk, changeEnded_outcome hr ha hf ho] at decided
  refine ⟨enterFinishing x ended, ?_, decided, fun y hy => ?_, rfl, ⟨rfl, rfl, rfl, rfl, rfl⟩,
    ⟨rfl, rfl, rfl, rfl, rfl, rfl, rfl, rfl, rfl, rfl, rfl⟩⟩
  · rw [← settled, ← changeEnds_waiting hw]
    rfl
  · rw [enterFinishing_ctx_other hy, ctx_setCtx_other _ _ _ _ hy]

/-- Settles O32: the grant by `regionOp_unchanged_done` and `regionOp_pending`, the commit's end by
`regionOp_decided_at_commit`. -/
theorem regionOperationIsAccepted : Obligations.RegionOperationIsAccepted := by
  refine ⟨fun x ok s => ⟨fun hw => ?_, fun hw => ⟨?_, ?_⟩⟩, fun s k r => ⟨opNoChange_iff s k r, rfl, rfl, rfl, rfl, rfl, rfl⟩,
    fun k s l x r a h g hc => ⟨regionOp_unchanged_done h g hc, regionOp_pending h g hc⟩⟩
  · exact congrArg (·, []) (changeEnds_not_waiting hw ok)
  · exact congrArg (·, []) (changeEnds_waiting hw ok)
  · rintro ⟨k, hk, rfl⟩ hs hb hp hr ha hf ho hh
    exact regionOp_decided_at_commit hk hw hs hb hp hr ha hf ho hh ok

end Sys2Proof.Machine
end

section
/-! The lockdown flag (R11): what sets and clears it, what it refuses, and that a commit goes on as without it. -/

namespace Sys2Proof.Machine

variable {k : OpKind} {s t : State} {l : LaneId} {x : CtxId} {r : Bytes} {a : Addr}

/-! ### Who writes the flag -/

theorem resetEnd_lockdown (s : State) : (resetEnd s).lockdown = s.lockdown := rfl

theorem enterRunning_lockdown (read : HostResult Bytes) (s : State) : (enterRunning read s).lockdown = s.lockdown := by
  have hp := eventFrame_lockdown.toDeviceFrame
  unfold enterRunning
  dsimp only
  rw [applyThreshold_event hp, applyThreshold_event hp, forEach_frame _ (laneRun_event hp)]
  exact takeAction_event hp s

theorem execRunTaken_lockdown {read : HostResult Bytes} {number : Nat} (h : execRunTaken read s number = .next t) :
    t.lockdown = s.lockdown := by
  cases h
  split
  · rw [workOff_event eventFrame_lockdown, enterRunning_lockdown]
  · rfl

theorem execAnchorHi_lockdown {value : Word32} (h : execAnchorHi value s = .next t) : t.lockdown = s.lockdown := by
  have hp := eventFrame_lockdown.toDeviceFrame
  cases h
  split
  · exact takeAction_event hp s
  · exact refuseAction_event hp _ s

theorem setAnchor_lockdown (a : Addr) (s : State) : (setAnchor a s).lockdown = s.lockdown := by
  unfold setAnchor
  split <;> rfl

theorem execAnchorLo_lockdown {value : Word32} (h : execAnchorLo value s = .next t) : t.lockdown = s.lockdown := by
  have hp := eventFrame_lockdown.toDeviceFrame
  cases h
  split
  · rw [setAnchor_lockdown, takeAction_event hp]
  · exact refuseAction_event hp _ s

/-- Every command has a next state. -/
theorem exec_next (c : Instr) (s : State) : ∃ t, exec c s = .next t := by
  cases c <;> exact ⟨_, rfl⟩

/-- Every command but COLD_RESET and LOCKDOWN leaves the flag as it is. -/
theorem exec_lockdown {c : Instr} (hc : ∀ source, c ≠ .coldReset source) (hl : c ≠ .lockdown) (h : exec c s = .next t) :
    t.lockdown = s.lockdown := by
  by_cases hw : writesDevice c = false
  · exact (exec_event eventFrame_lockdown c s t hw h).eq resetEnd_lockdown
  · cases c
    case coldReset source => exact absurd rfl (hc source)
    case lockdown => exact absurd rfl hl
    case runTaken => exact execRunTaken_lockdown h
    case anchorHi => exact execAnchorHi_lockdown h
    case anchorLo => exact execAnchorLo_lockdown h
    all_goals exact absurd rfl hw

/-- The check order of a LOCKDOWN keeps the flag set: a refusal leaves it and the acceptance sets it. -/
theorem checkRecord_lockdown_set (x : CtxId) (h : s.lockdown = true) :
    (checkRecord .lockdown acceptLockdown x s).1.lockdown = true := by
  have hp := eventFrame_lockdown.toDeviceFrame
  have refused : ∀ (st : Status) (t : State), t.lockdown = true → (refuseRecord x st t).lockdown = true :=
    fun st t ht => (refuseRecord_event hp x st t).trans ht
  unfold checkRecord checkAccess
  dsimp only
  split
  · exact refused _ s h
  · split
    · exact (loadList_event hp x s).trans h
    · split
      · exact refused _ _ h
      · rfl

theorem execLockdown_keeps_set (hs : s.lockdown = true) (h : execLockdown s = .next t) : t.lockdown = true := by
  cases h
  unfold grantRow
  split
  · split
    · rw [workOff_event eventFrame_lockdown]
      exact checkRecord_lockdown_set _ ((takeGrant_event eventFrame_lockdown.toDeviceFrame _ _ _ s).trans hs)
    · exact hs
  · exact hs

/-- A set flag stays set over every step but a cold reset (R11). -/
theorem step_keeps_lockdown (hs : s.lockdown = true) (h : step s = .next t)
    (hc : ∀ source, s.pending.head? ≠ some (.coldReset source)) : t.lockdown = true := by
  unfold step at h
  split at h
  · cases h
    exact hs
  · next c rest e =>
    have cold : ∀ source, c ≠ .coldReset source := fun source he => hc source (by rw [e, he]; rfl)
    by_cases hl : c = .lockdown
    · subst hl
      exact execLockdown_keeps_set (s := { s with pending := rest }) hs h
    · exact (exec_lockdown cold hl h).trans hs

/-- An accepted LOCKDOWN sets the flag and touches no region, no commit and no notification (R19). -/
theorem lockdown_accepted (g : Grants s l x r .lockdown a) (hc : PassesChecks s l r .lockdown) :
    ∃ t, exec .lockdown s = .next t ∧ t.lockdown = true ∧ t.regions = s.regions ∧ t.cme = s.cme ∧ t.ntu = s.ntu := by
  obtain ⟨u, hu, accepted⟩ := grantRow_accepts g hc acceptLockdown
  have executed : exec .lockdown s = .next (workOff (acceptLockdown x u)) := congrArg _ accepted
  refine ⟨_, executed, ?_⟩
  rw [acceptLockdown, workOff_none]
  exact ⟨rfl, hu.regions, hu.media.cme, hu.ntu⟩

theorem coldReset_lockdown (source : ResetSource) (s : State) : (coldReset source s).lockdown = false := by
  unfold coldReset
  dsimp only
  split
  · rfl
  · exact beginProbe_event eventFrame_lockdown _

/-! ### What the flag refuses -/

theorem outcome_refused {c : Context} {st : Status} (h : c.refusal = some st) : c.outcome = (.failed, st) := by
  simp only [Context.outcome, h]

/-- A record refused at steps 3 to 8 is decided in the state of its grant (R33). -/
theorem grantRow_refused_access (g : Grants s l x r k a) (st : Status) (hargs : firstFail (argumentChecks s k r) = none)
    (hlist : recSeglist r = false) (h : firstFail (accessChecks s k r l (s.lane l).cfg.tableRight) = some st)
    (accept : CtxId → State → Eff) :
    ∃ u, grantRow k accept s = enterFinishing x u ∧ (u.ctx x).record = r ∧ (u.ctx x).refusal = some st
      ∧ u.regions = s.regions ∧ u.cme = s.cme := by
  obtain ⟨gs, refused⟩ := grantRow_refused g st (.inr ⟨hargs, hlist, h⟩) accept
  refine ⟨_, refused, ?_, ?_, ?_, ?_⟩
  · rw [ctx_setCtx_same]
    rfl
  · rw [ctx_setCtx_same]
  · rw [takeGrant_eq l x r a s g.addr]
    rfl
  · rw [takeGrant_eq l x r a s g.addr]
    rfl

/-- A region operation that passes every step but the last ends FAILED, LOCKED_DOWN under lockdown (R11, R13). -/
theorem regionOp_locked_down (h : IsRegionOp k) (g : Grants s l x r k a) (hl : s.lockdown = true)
    (hargs : firstFail (argumentChecks s k r) = none) (hlist : recSeglist r = false)
    (hfree : firstFail (accessChecks { s with lockdown := false } k r l (s.lane l).cfg.tableRight) = none) :
    ∃ t, exec (grantCommand k) s = .next t ∧ Decided t x .failed .lockedDown (BitVec.ofNat 64 s.cme.gen)
      ∧ t.regions = s.regions ∧ t.cme = s.cme := by
  have locked : firstFail (accessChecks s k r l (s.lane l).cfg.tableRight) = some .lockedDown := by
    rw [firstFail_lockdown h hl, hfree]
    rfl
  obtain ⟨u, refused, hrecord, hrefusal, hregions, hcme⟩ :=
    grantRow_refused_access g .lockedDown hargs hlist locked (acceptRegionOp k)
  have decided := enterFinishing_decided x u
  rw [outcome_refused hrefusal, resultWord_regionOp (by rw [hrecord, g.kind]; exact h), hcme] at decided
  exact ⟨_, (exec_grantCommand_regionOp h s).trans (congrArg _ refused), decided, hregions, hcme⟩

/-! ### The marks of a commit's regions -/

theorem NtuOnly.regions {s t : State} (h : NtuOnly s t) : t.regions = s.regions := by
  obtain ⟨n, rfl⟩ := h
  rfl

theorem degradeUnits_regions (g : Nat) (s : State) : (degradeUnits g s).regions = s.regions := by
  refine forEach_frame (p := State.regions) _ (fun u t => ?_) _ _
  split
  · exact (postEvent_ntuOnly _ _ _).regions
  · rfl

theorem rltChangeEnds_regions (f : ChangeFate) (chg : Change) (s : State) :
    (rltChangeEnds f chg s).1.regions = s.regions := by
  cases chg
  case entry u mid src spare cause poisoned lane =>
    simp only [rltChangeEnds, moveEnds]
    split <;> rfl
  all_goals rfl

theorem batchEnds_regions (f : ChangeFate) (batch : List Change) (s : State) :
    (batchEnds f batch s).1.regions = s.regions :=
  effEach_frame (p := State.regions) _ (fun chg t => rltChangeEnds_regions f chg t) _ _

/-- A cleared region is not pending, and no other region becomes so; an index beyond 31 names no region. -/
theorem clearMark_pending (s : State) (i j : Nat) (h : j = i ∨ (s.region j).pending = none) :
    ((s.setRegion i { s.region i with pending := none, closing := false }).region j).pending = none := by
  by_cases e : j = i
  · subst e
    by_cases hj : j < 32
    · rw [region_setRegion_same _ _ _ hj]
    · simp [State.region, RegionEntry.undefined, hj]
  · rw [region_setRegion_other _ _ _ _ e]
    exact h.resolve_left e

theorem clearEach_pending (cs : List (Nat × LaneId × CtxId × RegionOp)) (s : State) (j : Nat)
    (h : j ∈ cs.map Prod.fst ∨ (s.region j).pending = none) :
    ((forEach cs (fun c t => t.setRegion c.1 { t.region c.1 with pending := none, closing := false }) s).region j).pending
      = none := by
  induction cs generalizing s with
  | nil => simpa [forEach] using h
  | cons c cs ih =>
    refine ih _ ?_
    rw [List.map_cons, List.mem_cons, or_assoc] at h
    rcases h with h | h | h
    · exact .inr (clearMark_pending s c.1 j (.inl h))
    · exact .inl h
    · exact .inr (clearMark_pending s c.1 j (.inr h))

/-- No region of the batch is pending once its marks are cleared (R20). -/
theorem clearMarks_pending {batch : List Change} {i : Nat} {op : RegionOp} (h : .region i l x op ∈ batch) (s : State) :
    ((clearMarks batch s).region i).pending = none := by
  refine clearEach_pending _ s i (.inl (List.mem_map.2 ⟨(i, l, x, op), ?_, rfl⟩))
  exact List.mem_filterMap.2 ⟨_, h, rfl⟩

theorem changeEnds_mem_reports {batch : List Change} {i : Nat} {op : RegionOp} (h : .region i l x op ∈ batch) (ok : Bool) :
    Msg.changeEnds x ok ∈ batch.flatMap (Change.contextReport ok) :=
  List.mem_flatMap.2 ⟨_, h, List.mem_singleton.2 rfl⟩

theorem commitSucceeds_pending {f : InFlight} {i : Nat} {op : RegionOp} (h : .region i l x op ∈ f.batch) (s : State) :
    ((commitSucceeds f s).1.region i).pending = none := by
  unfold commitSucceeds
  dsimp only
  rw [region_same (batchEnds_regions _ _ _), region_same (degradeUnits_regions _ _),
    region_same (spareLowEvents_ntuOnly _ _ _).regions, region_same (relocatedEvents_ntuOnly _ _ _).regions,
    region_same (regionEvents_ntuOnly _ _ _ _).regions]
  exact clearMarks_pending h _

theorem commitFails_pending {f : InFlight} {i : Nat} {op : RegionOp} (h : .region i l x op ∈ f.batch) (code : Nat) (s : State) :
    ((commitFails f code s).1.region i).pending = none := by
  unfold commitFails
  dsimp only
  rw [region_same (batchEnds_regions _ _ _), region_same (postEvent_ntuOnly _ _ _).regions]
  exact clearMarks_pending h _

/-- A success puts its batch in force, clears the pending marks of its regions and tells their contexts; the flag stays (R20). -/
theorem commitSucceeds_regions_end (f : InFlight) (s : State) :
    ∃ t ms, commitSucceeds f s = (t, ms ++ [.engineLeaves])
      ∧ t.durable = s.durable.applyAll f.image.gen f.batch ∧ t.lockdown = s.lockdown
      ∧ ∀ i l x op, .region i l x op ∈ f.batch → (t.region i).pending = none ∧ .changeEnds x true ∈ ms :=
  ⟨(commitSucceeds f s).1, _, rfl, commitSucceeds_durable f s,
    commitSucceeds_frame cascadeFrame_lockdown (fun _ _ => rfl) f s,
    fun _ _ _ _ h => ⟨commitSucceeds_pending h s, List.mem_append_left _ (changeEnds_mem_reports h true)⟩⟩

/-- A failure leaves the durable tables, clears the pending marks of its regions and tells their contexts; the flag stays
(R20). -/
theorem commitFails_regions_end (f : InFlight) (code : Nat) (s : State) :
    ∃ t ms, commitFails f code s = (t, ms ++ [.engineLeaves])
      ∧ t.durable = s.durable ∧ t.lockdown = s.lockdown
      ∧ ∀ i l x op, .region i l x op ∈ f.batch → (t.region i).pending = none ∧ .changeEnds x false ∈ ms :=
  ⟨(commitFails f code s).1, _, rfl, commitFails_durable f code s,
    commitFails_frame cascadeFrame_lockdown (fun _ _ => rfl) f code s,
    fun _ _ _ _ h => ⟨commitFails_pending h code s, List.mem_append_left _ (changeEnds_mem_reports h false)⟩⟩

/-! ### What host software sees -/

theorem bit_le (b : Bool) : bit b ≤ 1 := by cases b <;> decide

theorem devState_code_lt (d : DevState) : d.code < 8 := by cases d <;> decide

theorem faultCode_code_lt (c : FaultCode) : c.code < 16 := by cases c <;> decide

/-- Bit 12 of STATE: the fields below it are narrower than 4,096 and the stripe width stands above it. -/
theorem stateRegister_bit12 (s : State) : s.stateRegister.getLsbD 12 = s.lockdown := by
  have hstate := devState_code_lt s.dev.state
  have hfault := faultCode_code_lt s.dev.fault
  have hreset := bit_le s.dev.resetInProgress
  have hrun := bit_le s.dev.runPending
  have hanchor := bit_le (s.anchor != 0)
  have hlock := bit_le s.lockdown
  have field : (s.dev.state.code + 8 * bit s.dev.resetInProgress + 16 * bit s.dev.runPending + 32 * bit (s.anchor != 0)
      + 256 * s.dev.fault.code + 4096 * bit s.lockdown + 65536 * s.width) / 2 ^ 12 % 2 = bit s.lockdown := by omega
  rw [State.stateRegister, BitVec.getLsbD_ofNat, Nat.testBit_eq_decide_div_mod_eq, field]
  cases s.lockdown <;> rfl

/-- Settles O34: who writes the flag (`step_keeps_lockdown`, `lockdown_accepted`, `coldReset_lockdown`, `exec_lockdown`), what it
refuses (`firstFail_lockdown`, `regionOp_locked_down`), and the commits it leaves alone (`commitSucceeds_regions_end`,
`commitFails_regions_end`). -/
theorem lockdownHolds : Obligations.LockdownHolds := by
  refine ⟨fun s t hs h hc => step_keeps_lockdown hs h hc, fun s l x r a g hc => lockdown_accepted g hc,
    fun source s => ⟨_, rfl, coldReset_lockdown source s⟩, fun c s hc => ?_, fun k s l r right hk hl => ⟨?_, ?_, ?_⟩,
    fun k s l x r a g hk hl => regionOp_locked_down hk g hl, fun f s hl => hl ▸ commitSucceeds_regions_end f s,
    fun f code s hl => hl ▸ commitFails_regions_end f code s, fun s flag g w batch => rfl,
    fun s => Bool.eq_iff_iff.1 (stateRegister_bit12 s)⟩
  · obtain ⟨t, executed⟩ := exec_next c s
    refine ⟨t, executed, exec_lockdown ?_ ?_ executed⟩ <;> rcases hc with rfl | rfl | rfl | ⟨number, read, rfl⟩ <;> nofun
  · rw [firstFail_lockdown hk hl]
    cases firstFail (accessChecks { s with lockdown := false } k r l right) <;> nofun
  · intro free
    rw [firstFail_lockdown hk hl, free]
    rfl
  · have last := accessChecks_regionOp hk s r l right s.lockdown
    rw [show accessChecks s k r l right = _ from last, hl, List.getLast?_append]
    rfl

end Sys2Proof.Machine
end

section
/-! O55. The fields and snapshots in the form section 2.12 gives them. The model writes an entry short and pads it to its
size; the lemmas here say how long each piece is, so that the padding is a fixed number of zeros. -/

namespace Sys2Proof.Machine

/-! ### Little-endian fields -/

@[simp] theorem length_leBytes (k v : Nat) : (leBytes k v).length = k := by
  induction k generalizing v with
  | zero => rfl
  | succ k ih => simp [leBytes, ih]

theorem leValue_leBytes (k v : Nat) : leValue (leBytes k v) = v % 256 ^ k := by
  induction k generalizing v with
  | zero => simp [leBytes, leValue, Nat.mod_one]
  | succ k ih =>
    calc leValue (leBytes (k + 1) v) = v % 256 + 256 * (v / 256 % 256 ^ k) := by simp [leBytes, leValue, ih]
      _ = v % 256 ^ (k + 1) := by rw [pow_succ', Nat.mod_mul]

theorem leBytes_zero (k : Nat) : leBytes k 0 = List.replicate k 0 := by
  induction k with
  | zero => rfl
  | succ k ih => simp [leBytes, ih, List.replicate_succ]

theorem padTo_of_length {n k : Nat} {bs : Bytes} (h : bs.length = k) :
    padTo n bs = bs ++ List.replicate (n - k) 0 := by
  simp [padTo, zeros, h]

theorem length_padTo {n : Nat} {bs : Bytes} (h : bs.length ≤ n) : (padTo n bs).length = n := by
  simp only [padTo, zeros, List.length_append, List.length_replicate]
  omega

/-! ### The pieces of the snapshots -/

theorem length_flatMap_of_forall {α : Type} {f : α → Bytes} {n : Nat} (xs : List α) (h : ∀ a, (f a).length = n) :
    (xs.flatMap f).length = n * xs.length := by
  simp [List.length_flatMap, h, Nat.mul_comm]

theorem length_regionBytes (i : Nat) (live : Option RegionDef) (marks users : Nat) :
    (regionBytes i live marks users).length = 32 := by
  cases live <;> exact length_padTo (by simp)

theorem length_logSlotBytes (e : Option LogEntry) : (logSlotBytes e).length = 64 := by
  cases e with
  | none => simp [logSlotBytes, zeros]
  | some e => exact length_padTo (by simp [zeros])

theorem length_relocationBytes (e : RelEntry) : (relocationBytes e).length = 16 := by simp [relocationBytes]

theorem length_deadBytes (dead : List Nat) : (deadBytes dead).length = 128 := by simp [deadBytes]

theorem length_unitRecordBytes (s : State) (u : UnitId) : (unitRecordBytes s u).length = 256 := by
  simp [unitRecordBytes, padTo, zeros, length_deadBytes]

theorem length_patrolHeaderBytes (s : State) : (patrolHeaderBytes s).length = 512 := length_padTo (by simp [zeros])

/-! ### The lengths of the snapshots (R51) -/

theorem length_regionSnapshot (s : State) : (regionSnapshot s).length = 1024 := by
  rw [regionSnapshot, length_flatMap_of_forall _ fun i => length_regionBytes ..]
  simp [regionIndices]

theorem length_logSnapshot (s : State) : (logSnapshot s).length = 1536 := by
  rw [logSnapshot, List.length_append, length_patrolHeaderBytes, length_flatMap_of_forall _ length_logSlotBytes]
  simp

theorem length_unitSummary (s : State) : (unitSummary s).length = 1024 := by
  rw [unitSummary, length_flatMap_of_forall _ (length_unitRecordBytes s)]
  simp [four]

theorem length_relocationEntries (t : UnitTable) : (t.entries.flatMap relocationBytes).length = 16 * t.entries.length :=
  length_flatMap_of_forall _ length_relocationBytes

theorem length_relocationSnapshot (s : State) (u : UnitId) (h : (s.rlt u).table.entries.length ≤ 1024) :
    (relocationSnapshot s u).length = 16384 := by
  simp only [relocationSnapshot, List.length_append, length_relocationEntries, List.length_replicate]
  omega

/-! ### The bytes of the snapshots (section 2.12) -/

theorem regionBytes_none (i marks users : Nat) :
    regionBytes i none marks users = leBytes 1 i ++ List.replicate 31 0 :=
  padTo_of_length (k := 1) (by simp)

theorem regionBytes_some (i marks users : Nat) (d : RegionDef) :
    regionBytes i (some d) marks users = leBytes 1 i ++ leBytes 1 1 ++ leBytes 1 d.state.code ++ leBytes 1 d.owners.toNat
      ++ leBytes 1 marks ++ leBytes 1 users ++ leBytes 2 d.label.toNat ++ leBytes 4 d.base ++ leBytes 4 d.length
      ++ leBytes 8 (d.fixedGen.getD 0) ++ List.replicate 8 0 :=
  padTo_of_length (k := 24) (by simp)

theorem logSlotBytes_some (e : LogEntry) :
    logSlotBytes (some e) = leBytes 4 e.pass.toNat ++ leBytes 1 e.outcome.code ++ leBytes 1 e.unitsStopped ++ leBytes 2 0
      ++ leBytes 8 e.startStamp.toNat ++ leBytes 8 e.endStamp.toNat ++ leBytes 8 e.endGen ++ leBytes 4 e.tallies.read
      ++ leBytes 4 e.tallies.corrected ++ leBytes 4 e.tallies.weakMoved ++ leBytes 4 e.tallies.lostFound
      ++ leBytes 4 e.tallies.blankSkipped ++ List.replicate 12 0 := by
  rw [logSlotBytes, padTo_of_length (k := 52) (by simp [zeros]), leBytes_zero]
  rfl

theorem patrolHeaderBytes_eq (s : State) :
    patrolHeaderBytes s = leBytes 1 s.log.pointer ++ leBytes 1 (bit s.patrol.running) ++ leBytes 1 (bit s.patrol.cfg.auto)
      ++ leBytes 1 s.patrol.cfg.weak ++ leBytes 2 s.patrol.cfg.pace ++ leBytes 2 0 ++ leBytes 4 s.patrol.cfg.settle
      ++ leBytes 4 s.patrol.passNumber.toNat ++ List.replicate 496 0 := by
  rw [patrolHeaderBytes, padTo_of_length (k := 16) (by simp [zeros]), leBytes_zero]
  rfl

/-- The byte of the slot that holds the current generation: 0 for a unit that holds no copy of the image. -/
theorem currentSlot_byte (s : State) (u : UnitId) (mirror : Bool) :
    (match s.cme.currentSlot u with | some sl => if mirror then sl.code else 0 | none => 0)
      = if mirror = false then 0
        else if s.cme.slotRecord u .a = some (s.cme.gen, s.cme.curWseq) then 1
        else if s.cme.slotRecord u .b = some (s.cme.gen, s.cme.curWseq) then 2 else 0 := by
  unfold Cme.currentSlot
  split_ifs <;> simp_all [Slot.code]

theorem unitRecordBytes_eq (s : State) (u : UnitId) :
    unitRecordBytes s u = leBytes 1 (s.chan u).state.code ++ leBytes 1 (bit (s.chan u).member)
      ++ leBytes 1 (bit (isMirrorUnder s.width u))
      ++ leBytes 1 (if isMirrorUnder s.width u = false then 0
        else if s.cme.slotRecord u .a = some (s.cme.gen, s.cme.curWseq) then 1
        else if s.cme.slotRecord u .b = some (s.cme.gen, s.cme.curWseq) then 2 else 0)
      ++ leBytes 2 (1024 - (s.rlt u).table.entries.length - (s.rlt u).table.dead.length)
      ++ leBytes 2 ((s.rlt u).moves.length + (s.rlt u).failing.length) ++ leBytes 2 (s.rlt u).table.entries.length
      ++ leBytes 2 (s.rlt u).table.dead.length ++ leBytes 2 (s.rlt u).table.entries.length
      ++ leBytes 2 ((s.rlt u).table.entries.filter fun e => e.poisoned).length ++ leBytes 1 (s.rlt u).moves.length
      ++ List.replicate 7 0 ++ leBytes 8 s.cme.gen ++ List.replicate 96 0 ++ deadBytes (s.rlt u).table.dead := by
  rw [← currentSlot_byte, ← List.countP_eq_length_filter]
  exact congrArg (· ++ deadBytes (s.rlt u).table.dead) (padTo_of_length (k := 32) (by simp [zeros]))

theorem RegionEntry.marks_eq (e : RegionEntry) :
    e.marks = (if e.pending = none then 0 else 1) + (if e.closing then 2 else 0) := by
  cases h : e.pending <;> cases hc : e.closing <;> simp [RegionEntry.marks, bit, h, hc]

theorem isMirrorUnder_iff (n : Nat) (u : UnitId) : isMirrorUnder n u = true ↔ u = 0 ∨ (u = 1 ∧ (n = 2 ∨ n = 4)) := by
  fin_cases u <;> simp [isMirrorUnder]

theorem crc32c_check_value :
    crc32c [0x31#8, 0x32#8, 0x33#8, 0x34#8, 0x35#8, 0x36#8, 0x37#8, 0x38#8, 0x39#8] = 0xE3069283#32 := by
  decide +kernel

/-- Settles O55: every snapshot is its pieces in order, and each piece, whose length is known, is padded by a fixed number of
zeros. -/
theorem fieldsAndSnapshotsHaveTheirForms : Obligations.FieldsAndSnapshotsHaveTheirForms := by
  refine ⟨crc32c_check_value, fun k v => ⟨leValue_leBytes k v, length_leBytes k v⟩, fun s => ⟨length_regionSnapshot s,
    length_logSnapshot s, length_unitSummary s, length_relocationSnapshot s, fun _ => ⟨rfl, rfl, rfl⟩, fun u => ?selector,
    ?region, fun u => ?relocation, ?log, ?units, isMirrorUnder_iff⟩⟩
  case selector => simp [snapshot]
  case region =>
    refine List.flatMap_congr fun i _ => ?_
    show regionBytes i (s.region i).live (s.region i).marks (s.region i).users = _
    rw [RegionEntry.marks_eq]
    cases (s.region i).live with
    | none => exact regionBytes_none ..
    | some d => exact regionBytes_some ..
  case relocation =>
    rw [relocationSnapshot, length_relocationEntries]
    rfl
  case log =>
    rw [logSnapshot, patrolHeaderBytes_eq]
    refine congrArg (_ ++ ·) (List.flatMap_congr fun e _ => ?_)
    cases e with
    | none => rfl
    | some e => exact logSlotBytes_some e
  case units => exact List.flatMap_congr fun u _ => unitRecordBytes_eq s u

end Sys2Proof.Machine
end

section
/-! The parts of the state that work on the records leaves alone: what a context does to itself changes the context table, and
through its users counts the regions, and nothing else (R9, R53, R54, R66). -/

namespace Sys2Proof.Machine

variable {s t u : State} {x : CtxId}

/-! ### Parts that stay -/

theorem SameMedia.refl (s : State) : SameMedia s s := ⟨rfl, rfl, rfl, rfl, rfl⟩

theorem SameMedia.trans (h : SameMedia s t) (g : SameMedia t u) : SameMedia s u :=
  ⟨g.chans.trans h.chans, g.rlts.trans h.rlts, g.patrol.trans h.patrol, g.log.trans h.log, g.cme.trans h.cme⟩

theorem SameMedia.emit (h : SameMedia s t) (os : List Output) : SameMedia s (t.emit os) :=
  ⟨h.chans, h.rlts, h.patrol, h.log, h.cme⟩

theorem SameDevice.refl (s : State) : SameDevice s s := ⟨rfl, rfl, rfl, rfl, rfl, rfl, rfl, rfl, rfl, rfl, rfl⟩

theorem SameDevice.trans (h : SameDevice s t) (g : SameDevice t u) : SameDevice s u :=
  ⟨g.pending.trans h.pending, g.dev.trans h.dev, g.lif.trans h.lif, g.width.trans h.width, g.tick.trans h.tick,
    g.anchor.trans h.anchor, g.anchorHigh.trans h.anchorHigh, g.settings.trans h.settings,
    g.messagesEnabled.trans h.messagesEnabled, g.unitPresent.trans h.unitPresent, g.lockdown.trans h.lockdown⟩

theorem SameDevice.emit (h : SameDevice s t) (os : List Output) : SameDevice s (t.emit os) :=
  ⟨h.pending, h.dev, h.lif, h.width, h.tick, h.anchor, h.anchorHigh, h.settings, h.messagesEnabled, h.unitPresent,
    h.lockdown⟩

/-- `t` is `s` but for the contexts and the regions. -/
structure RecordsOnly (s t : State) : Prop where
  media : SameMedia s t
  device : SameDevice s t
  lanes : t.lanes = s.lanes
  dar : t.dar = s.dar
  ntu : t.ntu = s.ntu
  out : t.out = s.out

theorem RecordsOnly.refl (s : State) : RecordsOnly s s := ⟨.refl s, .refl s, rfl, rfl, rfl, rfl⟩

theorem RecordsOnly.trans (h : RecordsOnly s t) (g : RecordsOnly t u) : RecordsOnly s u :=
  ⟨h.media.trans g.media, h.device.trans g.device, g.lanes.trans h.lanes, g.dar.trans h.dar, g.ntu.trans h.ntu,
    g.out.trans h.out⟩

/-- `t` is `s` but for context `x`. -/
structure CtxOnly (x : CtxId) (s t : State) : Prop extends RecordsOnly s t where
  regions : t.regions = s.regions
  ctxs : ∀ y, y ≠ x → t.ctx y = s.ctx y

theorem CtxOnly.refl (x : CtxId) (s : State) : CtxOnly x s s := ⟨.refl s, rfl, fun _ _ => rfl⟩

theorem CtxOnly.trans (h : CtxOnly x s t) (g : CtxOnly x t u) : CtxOnly x s u :=
  ⟨h.toRecordsOnly.trans g.toRecordsOnly, g.regions.trans h.regions, fun y hy => (g.ctxs y hy).trans (h.ctxs y hy)⟩

theorem setCtx_ctxOnly (s : State) (x : CtxId) (c : Context) : CtxOnly x s (s.setCtx x c) :=
  ⟨⟨⟨rfl, rfl, rfl, rfl, rfl⟩, ⟨rfl, rfl, rfl, rfl, rfl, rfl, rfl, rfl, rfl, rfl, rfl⟩, rfl, rfl, rfl, rfl⟩, rfl,
    fun y hy => ctx_setCtx_other s x y c hy⟩

theorem setRegion_recordsOnly (s : State) (i : Nat) (e : RegionEntry) : RecordsOnly s (s.setRegion i e) :=
  ⟨⟨rfl, rfl, rfl, rfl, rfl⟩, ⟨rfl, rfl, rfl, rfl, rfl, rfl, rfl, rfl, rfl, rfl, rfl⟩, rfl, rfl, rfl, rfl⟩

/-- A part of the state that every step of a `forEach` keeps, the whole keeps. -/
theorem forEach_recordsOnly {β : Type} {f : β → State → State} (hf : ∀ b t, RecordsOnly t (f b t)) (bs : List β)
    (s : State) : RecordsOnly s (forEach bs f s) := by
  induction bs generalizing s with
  | nil => exact .refl s
  | cons b bs ih => exact (hf b s).trans (ih (f b s))

/-! ### Users counts (R9) -/

/-- An index beyond the table reads as an undefined region, with no users. -/
theorem region_of_ge (s : State) {i : Nat} (h : 32 ≤ i) : s.region i = RegionEntry.undefined := by
  simp [State.region, h]

theorem raiseUsers_recordsOnly (is : List Nat) (s : State) : RecordsOnly s (raiseUsers is s) :=
  forEach_recordsOnly (fun _ _ => setRegion_recordsOnly ..) is s

theorem lowerUsers_recordsOnly (is : List Nat) (s : State) : RecordsOnly s (lowerUsers is s) :=
  forEach_recordsOnly (fun _ _ => setRegion_recordsOnly ..) is s

/-- The regions after an update of each of a list of them, none listed twice. -/
theorem forEach_setRegion_region (f : RegionEntry → RegionEntry) (is : List Nat) (hn : is.Nodup) (s : State) (i : Nat)
    (hi : i < 32) :
    (forEach is (fun j t => t.setRegion j (f (t.region j))) s).region i
      = if i ∈ is then f (s.region i) else s.region i := by
  induction is generalizing s with
  | nil => simp [forEach]
  | cons j is ih =>
    obtain ⟨hj, hn⟩ := List.nodup_cons.mp hn
    refine (ih hn _).trans ?_
    rcases eq_or_ne i j with rfl | hij
    · simp [hj, region_setRegion_same s i _ hi]
    · simp [hij, region_setRegion_other s j i _ hij]

theorem lowerUsers_ctx (is : List Nat) (s : State) (y : CtxId) : (lowerUsers is s).ctx y = s.ctx y :=
  forEach_frame (p := fun t => t.ctx y) (fun j t => t.setRegion j { t.region j with users := (t.region j).users - 1 })
    (fun _ _ => rfl) is s

theorem raiseUsers_region (is : List Nat) (hn : is.Nodup) (s : State) (i : Nat) (hi : i < 32) :
    (raiseUsers is s).region i = { s.region i with users := (s.region i).users + (if i ∈ is then 1 else 0) } := by
  refine (forEach_setRegion_region (fun e => { e with users := e.users + 1 }) is hn s i hi).trans ?_
  split <;> rfl

/-- Beyond the table a count is 0 and stays so, so that this holds at every index. -/
theorem lowerUsers_region (is : List Nat) (hn : is.Nodup) (s : State) (i : Nat) :
    (lowerUsers is s).region i = { s.region i with users := (s.region i).users - (if i ∈ is then 1 else 0) } := by
  rcases lt_or_ge i 32 with hi | hi
  · refine (forEach_setRegion_region (fun e => { e with users := e.users - 1 }) is hn s i hi).trans ?_
    split <;> rfl
  · rw [region_of_ge _ hi, region_of_ge _ hi]
    simp [RegionEntry.undefined]

theorem usedRegions_nodup (k : OpKind) (r : Bytes) : (usedRegions k r).Nodup := by
  unfold usedRegions
  split_ifs with _ h
  · exact List.nodup_singleton _
  · simpa using Ne.symm h
  · exact List.nodup_singleton _
  · exact List.nodup_nil

/-! ### A context that enters FINISHING or returns to FREE (R53, R62, R66) -/

/-- What entering FINISHING makes of a context. -/
def Context.finished (c : Context) (gen : Nat) (tick : Tick) : Context :=
  { c with
    state := .finishing
    endStamp := tick
    blocks := []
    bufs := Vector.replicate 4 StagingBuf.free
    final := some (c.outcome.1, c.devicePart gen tick) }

theorem enterFinishing_ctx (x : CtxId) (s : State) :
    (enterFinishing x s).ctx x = (s.ctx x).finished s.cme.gen s.tick := ctx_setCtx_same ..

theorem enterFinishing_ctxOnly (x : CtxId) (s : State) : CtxOnly x s (enterFinishing x s) := setCtx_ctxOnly ..

theorem freeContext_ctx (x : CtxId) (s : State) : (freeContext x s).ctx x = Context.empty := ctx_setCtx_same ..

theorem freeContext_ctx_other (s : State) {y : CtxId} (h : y ≠ x) : (freeContext x s).ctx y = s.ctx y :=
  (ctx_setCtx_other _ x y _ h).trans (lowerUsers_ctx ..)

theorem freeContext_recordsOnly (x : CtxId) (s : State) : RecordsOnly s (freeContext x s) :=
  (lowerUsers_recordsOnly ..).trans (setCtx_ctxOnly ..).toRecordsOnly

theorem freeContext_region (hn : (s.ctx x).raised.Nodup) (i : Nat) :
    (freeContext x s).region i
      = { s.region i with users := (s.region i).users - (if i ∈ (s.ctx x).raised then 1 else 0) } :=
  lowerUsers_region _ hn s i

/-! ### A context that settles (R54, R70) -/

theorem setCtx_self (s : State) (x : CtxId) : s.setCtx x (s.ctx x) = s := by
  simp [State.setCtx, State.ctx]

theorem ctxSettle_free (h : (s.ctx x).state = .free) : ctxSettle x s = s := by
  simp only [ctxSettle, h, if_true]

/-- In HALTED a context keeps its state but for a warm reset (R70). -/
theorem ctxSettle_halted (hh : s.dev.state = .halted) (hf : (s.ctx x).state ≠ .free) :
    ctxSettle x s = if s.dev.resetInProgress && (s.ctx x).idle then freeContext x s else s := by
  simp only [ctxSettle, hf, if_false, State.halted, hh, beq_self_eq_true, if_true]

theorem restState_finishing_iff {c : Context} :
    c.restState = .finishing ↔ c.work = [] ∧ c.waitCommit = false ∧ c.waitPass = false := by
  unfold Context.restState
  split_ifs with h <;> simp_all [and_assoc]

/-- The states in which a context settles as soon as its work is over, and ISSUING once nothing is left to take (R54). -/
def Context.settles (c : Context) : Prop :=
  (c.state = .issuing ∧ c.issueOver = true) ∨ c.state = .drainingSteps ∨ c.state = .commitWait

theorem ctxSettle_settles (hh : s.dev.state ≠ .halted) (hs : (s.ctx x).settles) :
    ctxSettle x s = if (s.ctx x).restState = .finishing then enterFinishing x s
      else s.setCtx x { s.ctx x with state := (s.ctx x).restState } := by
  rcases hs with ⟨hs, taken⟩ | hs | hs
  · simp [ctxSettle, State.halted, hh, hs, taken]
  · simp [ctxSettle, State.halted, hh, hs]
  · simp [ctxSettle, State.halted, hh, hs]

theorem ctxSettle_stays (hh : s.dev.state ≠ .halted) (hs : ¬ (s.ctx x).settles) : ctxSettle x s = s := by
  simp only [Context.settles, not_or, not_and, Bool.not_eq_true] at hs
  obtain ⟨issuing, draining, waiting⟩ := hs
  cases h : (s.ctx x).state with
  | issuing => simp [ctxSettle, State.halted, hh, h, issuing h]
  | drainingSteps => exact absurd h draining
  | commitWait => exact absurd h waiting
  | _ => simp [ctxSettle, State.halted, hh, h]

/-- The ways a context can settle. -/
theorem ctxSettle_cases (x : CtxId) (s : State) :
    ctxSettle x s = s ∨ ctxSettle x s = freeContext x s ∧ (s.ctx x).idle = true
      ∨ ctxSettle x s = enterFinishing x s ∧ (s.ctx x).restState = .finishing
      ∨ ctxSettle x s = s.setCtx x { s.ctx x with state := (s.ctx x).restState } := by
  by_cases hf : (s.ctx x).state = .free
  · exact .inl (ctxSettle_free hf)
  by_cases hh : s.dev.state = .halted
  · rw [ctxSettle_halted hh hf]
    split
    · next h => exact .inr (.inl ⟨rfl, (Bool.and_eq_true_iff.mp h).2⟩)
    · exact .inl rfl
  by_cases hs : (s.ctx x).settles
  · rw [ctxSettle_settles hh hs]
    split
    · next h => exact .inr (.inr (.inl ⟨rfl, h⟩))
    · exact .inr (.inr (.inr rfl))
  · exact .inl (ctxSettle_stays hh hs)

/-- A context with work outstanding settles by its state alone: it is neither decided nor freed. -/
theorem ctxSettle_working (hw : (s.ctx x).work ≠ []) :
    ∃ st, ctxSettle x s = s.setCtx x { s.ctx x with state := st } := by
  rcases ctxSettle_cases x s with e | ⟨-, idle⟩ | ⟨-, rest⟩ | e
  · exact ⟨(s.ctx x).state, e.trans (setCtx_self s x).symm⟩
  · simp [Context.idle, hw] at idle
  · exact absurd (restState_finishing_iff.mp rest).1 hw
  · exact ⟨_, e⟩

/-- A context that becomes one with work outstanding is that context but for its state. -/
theorem ctxUpdate_working {c : Context} (hw : c.work ≠ []) (x : CtxId) (s : State) :
    ∃ st, ctxUpdate x c s = s.setCtx x { c with state := st } := by
  obtain ⟨st, e⟩ := ctxSettle_working (s := s.setCtx x c) (x := x) (by rwa [ctx_setCtx_same])
  exact ⟨st, by rw [ctxUpdate, e, ctx_setCtx_same, setCtx_setCtx]⟩

end Sys2Proof.Machine
end

section
/-! The grant of a record seen from outside its context: the arbiter, the lane and the links take their part, and everything
else is as it was until the record is refused or accepted (R33, R57, R59, R164). -/

namespace Sys2Proof.Machine

variable {k : OpKind} {s t u : State} {l : LaneId} {x : CtxId} {r : Bytes} {a : Addr}

theorem exec_eq_next {c : Instr} (h : exec c s = .next t) (e : t = u) : exec c s = .next u := e ▸ h

/-- Besides context `x`, nothing of `t` but the grant's own parts differs from `s`. -/
structure GrantedOnly (s t : State) (l : LaneId) (x : CtxId) (a : Addr) : Prop where
  taken : GrantTaken s t l x a
  regions : t.regions = s.regions
  media : SameMedia s t
  device : SameDevice s t
  ntu : t.ntu = s.ntu
  out : t.out = s.out ++ grantOutputs a
  ctxs : ∀ y, y ≠ x → t.ctx y = s.ctx y

theorem takeGrant_grantedOnly (x : CtxId) (r : Bytes) (h : (s.lane l).stagedAddr = some a) :
    GrantedOnly s (takeGrant l x r s) l x a where
  taken := takeGrant_taken l x r a s h
  regions := by rw [takeGrant_eq l x r a s h]
  media := by rw [takeGrant_eq l x r a s h]; exact ⟨rfl, rfl, rfl, rfl, rfl⟩
  device := by rw [takeGrant_eq l x r a s h]; exact ⟨rfl, rfl, rfl, rfl, rfl, rfl, rfl, rfl, rfl, rfl, rfl⟩
  ntu := by rw [takeGrant_eq l x r a s h]
  out := by rw [takeGrant_eq l x r a s h]
  ctxs _ := takeGrant_ctx_other l x _ r a s h

theorem GrantedOnly.then (h : GrantedOnly s t l x a) (g : CtxOnly x t u) : GrantedOnly s u l x a where
  taken := h.taken.of_same g.lanes g.dar
  regions := g.regions.trans h.regions
  media := h.media.trans g.media
  device := h.device.trans g.device
  ntu := g.ntu.trans h.ntu
  out := g.out.trans h.out
  ctxs y hy := (g.ctxs y hy).trans (h.ctxs y hy)

/-- The context of a record that has passed the check order, or the part of it before LOADING. -/
def Context.checked (k : OpKind) (r : Bytes) (a : Addr) (l : LaneId) (right : Bool) (tick : Tick) : Context :=
  { Context.granted r a l right tick with segs := if k.needsSegments then inlineSegments r else [] }

/-- A record that passes the check order is accepted in a state in which only its grant has happened (R33). -/
theorem grantRow_passes_in (g : Grants s l x r k a) (h : PassesChecks s l r k) (accept : CtxId → State → Eff) :
    ∃ u, GrantedOnly s u l x a ∧ u.ctx x = Context.checked k r a l (s.lane l).cfg.tableRight s.tick
      ∧ grantRow k accept s = workOff (accept x u) :=
  ⟨_, (takeGrant_grantedOnly x r g.addr).then (setCtx_ctxOnly ..), ctx_setCtx_same .., grantRow_passes g h accept⟩

/-- A record with SEGLIST that passes steps 1 and 2 goes to LOADING in such a state (R30). -/
theorem grantRow_loads_in (g : Grants s l x r k a) (h : firstFail (argumentChecks s k r) = none) (hl : recSeglist r = true)
    (accept : CtxId → State → Eff) :
    ∃ u, GrantedOnly s u l x a ∧ u.ctx x = Context.granted r a l (s.lane l).cfg.tableRight s.tick
      ∧ grantRow k accept s = loadList x u := by
  have granted := takeGrant_grantedOnly (s := s) x r g.addr
  have ctx := takeGrant_ctx l x r a s g.addr
  have checks := argumentChecks_same granted.media.chans granted.media.patrol k r
  refine ⟨_, granted, ctx, ?_⟩
  have record : ((takeGrant l x r s).ctx x).record = r := by rw [ctx]; rfl
  rw [grantRow_taken g, checkRecord]
  simp only [record, checks, h, hl, if_true, workOff_none]

/-! ### An accepted data record (R9, R21) -/

theorem acceptData_recordsOnly (x : CtxId) (s : State) : RecordsOnly s (acceptData x s) :=
  (raiseUsers_recordsOnly ..).trans (setCtx_ctxOnly ..).toRecordsOnly

theorem acceptData_ctx (x : CtxId) (s : State) :
    (acceptData x s).ctx x = { s.ctx x with
      state := .issuing
      srcBase := windowStart s (recRegion (s.ctx x).record) (recOffset (s.ctx x).record)
      dstBase := if recKind (s.ctx x).record = .copy
        then windowStart s (argDstRegion (s.ctx x).record) (argDstOffset (s.ctx x).record)
        else windowStart s (recRegion (s.ctx x).record) (recOffset (s.ctx x).record)
      raised := usedRegions (recKind (s.ctx x).record) (s.ctx x).record } := ctx_setCtx_same ..

/-- The users of its one region rise by one. -/
theorem acceptData_users (hk : (recKind (s.ctx x).record).isData = true) (hc : recKind (s.ctx x).record ≠ .copy)
    (hi : recRegion (s.ctx x).record < 32) :
    ((acceptData x s).region (recRegion (s.ctx x).record)).users = (s.region (recRegion (s.ctx x).record)).users + 1 := by
  have used : usedRegions (recKind (s.ctx x).record) (s.ctx x).record = [recRegion (s.ctx x).record] := by
    rw [usedRegions, if_neg hc, if_pos hk]
  rw [acceptData, setCtx_region, raiseUsers_region _ (usedRegions_nodup ..) s _ hi, used]
  simp

end Sys2Proof.Machine
end

section
/-! O25. A refused record: its decision, what steps 1 and 2 of the check order ask, and steps 3 to 8 as one
decision for each operation (R13, R21, R22, R33). -/

namespace Sys2Proof.Machine

variable {k : OpKind} {s : State} {l : LaneId} {x : CtxId} {r : Bytes} {a : Addr}

/-! ### The decision on a refused record -/

/-- The context in which a step of the check order refuses a record (R33). -/
def Context.refused (r : Bytes) (a : Addr) (l : LaneId) (right : Bool) (tick : Tick) (gs : List Segment) (st : Status) :
    Context :=
  { Context.granted r a l right tick with segs := gs, refusal := some st }

/-- The decision on a refused record: FAILED with the refusing step's code, nothing counted (R34, R35). -/
theorem refused_final (r : Bytes) (a : Addr) (l : LaneId) (right : Bool) (tick : Tick) (gs : List Segment) (st : Status)
    (gen : Nat) :
    ∃ part, ((Context.refused r a l right tick gs st).finished gen tick).final = some (.failed, part) ∧ part.status = st
      ∧ part.blocksOk = 0 ∧ part.corrected = 0 ∧ part.weak = 0
      ∧ part.firstFail = (if (recKind r).isData then 0 else BitVec.allOnes 32)
      ∧ part.startStamp = tick ∧ part.endStamp = tick := by
  refine ⟨_, rfl, rfl, rfl, rfl, rfl, ?_, rfl, rfl⟩
  cases h : (recKind r).isData <;>
    simp [Context.devicePart, Context.outcome, Context.firstFailField, Context.refused, Context.granted, h, allOnes32]

theorem refusedRecord_finishes (g : Grants s l x r k a) (st : Status)
    (h : firstFail (argumentChecks s k r) = some st
      ∨ (firstFail (argumentChecks s k r) = none ∧ recSeglist r = false
        ∧ firstFail (accessChecks s k r l (s.lane l).cfg.tableRight) = some st)) :
    ∃ t gs, exec (grantCommand k) s = .next t ∧ GrantedOnly s t l x a
      ∧ t.ctx x = (Context.refused r a l (s.lane l).cfg.tableRight s.tick gs st).finished s.cme.gen s.tick := by
  obtain ⟨accept, row⟩ := exec_grantCommand k s
  obtain ⟨gs, refused⟩ := grantRow_refused g st h accept
  have granted := takeGrant_grantedOnly (s := s) x r g.addr
  refine ⟨_, gs, exec_eq_next row refused, (granted.then (setCtx_ctxOnly ..)).then (enterFinishing_ctxOnly ..), ?_⟩
  rw [enterFinishing_ctx, ctx_setCtx_same]
  simp only [setCtx_cme, setCtx_tick, granted.media.cme, granted.device.tick]
  rfl

/-! ### Steps 1 and 2 (R27 to R29, R46, R48, R51) -/

theorem needsSegments_iff (k : OpKind) : k.needsSegments = true ↔ TakesSegments k := by
  cases k <;> simp [OpKind.needsSegments, TakesSegments]

theorem namesRegion_iff (k : OpKind) :
    k.namesRegion = true
      ↔ k.isData = true ∨ k = .regionDelete ∨ k = .regionGuard ∨ k = .regionRelease ∨ k = .regionFix := by
  cases k <;> simp [OpKind.namesRegion, OpKind.isData]

theorem regionFieldOk_iff (k : OpKind) (r : Bytes) :
    (!k.namesRegion || decide (recRegion r ≤ 31)) = true
      ↔ (k.isData = true ∨ k = .regionDelete ∨ k = .regionGuard ∨ k = .regionRelease ∨ k = .regionFix →
        recRegion r ≤ 31) := by
  rw [← namesRegion_iff]
  simp [imp_iff_not_or]

theorem flagsOk_iff (k : OpKind) (r : Bytes) :
    flagsOk k r = true ↔ (recFlags r).extractLsb' 5 3 = 0 ∧ (recSeglist r = true → TakesSegments k)
      ∧ (recRelocateWeak r = true → k = .verify) ∧ (recBlank r = true → k = .fill) := by
  simp only [flagsOk, Bool.and_eq_true, Bool.or_eq_true, Bool.not_eq_true', ← needsSegments_iff, beq_iff_eq,
    ← Bool.not_eq_true, ← imp_iff_not_or, and_assoc]

theorem countOk_iff (k : OpKind) (r : Bytes) :
    countOk k r = true ↔ (k.isData = true → k ≠ .relocate → 1 ≤ recCount r ∧ recCount r ≤ 4096)
      ∧ (k = .relocate → recCount r = 1) ∧ (k.isData = false → recCount r = 0) := by
  cases k <;> simp [countOk, OpKind.isData]

theorem windowsMeet_eq_false_iff (b1 n1 b2 n2 : Nat) :
    windowsMeet b1 n1 b2 n2 = false ↔ b1 + n1 ≤ b2 ∨ b2 + n2 ≤ b1 := by
  simp only [windowsMeet, Bool.and_eq_false_iff, decide_eq_false_iff_not]
  omega

theorem copyArgsOk_iff (r : Bytes) :
    copyArgsOk r = true ↔ argDstRegion r ≤ 31 ∧ argDstOffset r + recCount r ≤ 4294967296
      ∧ (argDstRegion r = recRegion r →
        recOffset r + recCount r ≤ argDstOffset r ∨ argDstOffset r + recCount r ≤ recOffset r) := by
  simp only [copyArgsOk, Bool.and_eq_true, decide_eq_true_eq, Bool.not_eq_true', Bool.and_eq_false_iff,
    windowsMeet_eq_false_iff, beq_eq_false_iff_ne, ne_eq, ← imp_iff_not_or, and_assoc]

theorem tableArgsOk_iff (s : State) (r : Bytes) :
    tableArgsOk s r = true ↔ argSelector r ≤ 3
      ∧ (argSelector r = 1 → ∃ u : UnitId, u.val = argUnit r ∧ (s.chan u).state ≠ .absent) := by
  simp only [tableArgsOk, Bool.and_eq_true, Bool.or_eq_true, decide_eq_true_eq, bne_iff_ne, ne_eq, ← imp_iff_not_or]
  refine and_congr_right fun _ => imp_congr_right fun _ => ⟨fun ⟨small, present⟩ => ⟨_, ?_, present⟩, ?_⟩
  · simp only [Fin.val_ofNat]
    omega
  · rintro ⟨u, hu, present⟩
    have : Fin.ofNat 4 (argUnit r) = u := by
      rw [← hu]
      exact Fin.ofNat_val_eq_self u
    exact ⟨by omega, this ▸ present⟩

theorem argsOk_iff (s : State) (k : OpKind) (r : Bytes) :
    argsOk s k r = true ↔ (k = .copy → argDstRegion r ≤ 31 ∧ argDstOffset r + recCount r ≤ 4294967296
        ∧ (argDstRegion r = recRegion r →
          recOffset r + recCount r ≤ argDstOffset r ∨ argDstOffset r + recCount r ≤ recOffset r))
      ∧ (k = .startPass → 0 < s.patrol.cfg.pace)
      ∧ (k = .setPatrol → argAction r = 3 ∧ argPace r ≤ 2000 ∧ 100 ≤ argSettle r ∧ argSettle r ≤ 100000
        ∧ 1 ≤ argWeak r ∧ argWeak r ≤ 7 ∧ argAuto r ≤ 1)
      ∧ (k = .tableRead → argSelector r ≤ 3
        ∧ (argSelector r = 1 → ∃ u : UnitId, u.val = argUnit r ∧ (s.chan u).state ≠ .absent))
      ∧ (k = .regionDefine → argIndex r ≤ 31 ∧ 1 ≤ argLength r ∧ (argOwners r).toNat ≤ 15) := by
  cases k <;> simp [argsOk, copyArgsOk_iff, tableArgsOk_iff, setArgsOk, and_assoc]

theorem segmentsOk_iff (k : OpKind) (r : Bytes) (gs : List Segment) : segmentsOk k r gs = true ↔ SegmentsFit k r gs := by
  have size : requiredSize k r
      = if k = .tableRead then (match argSelector r with | 1 => 16384 | 2 => 1536 | _ => 1024) else recCount r * 4096 := rfl
  simp only [segmentsOk, Bool.and_eq_true, List.all_eq_true, Segment.ok, bne_iff_ne, ne_eq, beq_iff_eq, decide_eq_true_eq,
    and_assoc, segmentSum, size]
  exact ⟨fun ⟨each, sum⟩ => ⟨each, sum⟩, fun h => ⟨h.each, h.sum⟩⟩

theorem segmentFieldsOk_iff (k : OpKind) (r : Bytes) :
    segmentFieldsOk k r = true ↔ (¬ TakesSegments k → recSegCount r = 0)
      ∧ (TakesSegments k → recSeglist r = false →
        1 ≤ recSegCount r ∧ recSegCount r ≤ 2 ∧ SegmentsFit k r (inlineSegments r))
      ∧ (TakesSegments k → recSeglist r = true →
        1 ≤ recSegCount r ∧ recSegCount r ≤ 64 ∧ recListAddr r ≠ 0 ∧ (recListAddr r).toNat % 16 = 0) := by
  rw [← needsSegments_iff]
  cases hk : k.needsSegments <;> cases hl : recSeglist r <;>
    simp [segmentFieldsOk, hk, hl, segmentsOk_iff, and_assoc]

theorem step2Ok_iff (s : State) (k : OpKind) (r : Bytes) : step2Ok s k r = true ↔ ArgumentsOk s k r := by
  rw [step2Ok, Bool.and_eq_true, Bool.and_eq_true, Bool.and_eq_true, Bool.and_eq_true, flagsOk_iff, regionFieldOk_iff,
    countOk_iff, argsOk_iff, segmentFieldsOk_iff]
  constructor
  · rintro ⟨⟨⟨⟨⟨upper, seglist, weak, blank⟩, region⟩, blocks, one, noBlocks⟩, copy, start, set, table, define⟩, no, inl,
      listed⟩
    exact ⟨upper, seglist, weak, blank, region, blocks, one, noBlocks, copy, start, set, table, define, no, inl, listed⟩
  · intro h
    exact ⟨⟨⟨⟨⟨h.upperFlags, h.seglist, h.relocateWeak, h.blank⟩, h.region⟩, h.blocks, h.oneBlock, h.noBlocks⟩, h.copy,
      h.startPass, h.setPatrol, h.tableRead, h.define⟩, h.noSegments, h.inlined, h.listed⟩

/-! ### The check order as one decision -/

@[simp] theorem firstFail_nil : firstFail [] = none := rfl

@[simp] theorem firstFail_cons (ok : Bool) (st : Status) (rest : List (Bool × Status)) :
    firstFail ((ok, st) :: rest) = if ok = false then some st else firstFail rest := by
  cases ok <;> rfl

theorem firstFail_argumentChecks (s : State) (k : OpKind) (r : Bytes) :
    (k = .badOp → firstFail (argumentChecks s k r) = some .badOp)
      ∧ (k ≠ .badOp → ArgumentsOk s k r → firstFail (argumentChecks s k r) = none)
      ∧ (k ≠ .badOp → ¬ ArgumentsOk s k r → firstFail (argumentChecks s k r) = some .badArg) := by
  rw [← step2Ok_iff]
  refine ⟨fun h => ?_, fun h ok => ?_, fun h bad => ?_⟩
  · simp [argumentChecks, h]
  · simp [argumentChecks, h, ok]
  · simp [argumentChecks, h, bad]

variable (s r l) (right : Bool)

/-- Steps 3 to 7 of the operations that only read their region (R21). -/
theorem firstFail_reads {e : RegionEntry} (he : e = s.region (recRegion r)) (h : k = .read ∨ k = .verify ∨ k = .digest) :
    firstFail (accessChecks s k r l right)
      = if e.live = none then some .noRegion
        else if e.length < recOffset r + recCount r then some .outOfRange
        else if e.pending = some .delete then some .regionBusy
        else none := by
  subst he
  rcases h with rfl | rfl | rfl <;> simp [accessChecks, dataChecks]

/-- Steps 3 to 7 of the operations that write their region (R21). -/
theorem firstFail_writes {e : RegionEntry} (he : e = s.region (recRegion r)) (h : k = .write ∨ k = .fill) :
    firstFail (accessChecks s k r l right)
      = if e.live = none then some .noRegion
        else if e.length < recOffset r + recCount r then some .outOfRange
        else if e.ownedBy l = false then some .notOwner
        else if e.pending = some .delete then some .regionBusy
        else if e.writable = false then some .isProtected
        else none := by
  subst he
  rcases h with rfl | rfl <;> simp [accessChecks, dataChecks]

theorem firstFail_relocate {e : RegionEntry} (he : e = s.region (recRegion r)) (h : k = .relocate) :
    firstFail (accessChecks s k r l right)
      = if right = false ∧ e.ownedBy l = false then some .noRight
        else if e.live = none then some .noRegion
        else if e.length < recOffset r + recCount r then some .outOfRange
        else if e.pending = some .delete then some .regionBusy
        else none := by
  subst he h
  simp [accessChecks, dataChecks]

/-- A COPY's source and then its destination at each step (R22). -/
theorem firstFail_copy {e d : RegionEntry} (he : e = s.region (recRegion r)) (hd : d = s.region (argDstRegion r))
    (h : k = .copy) :
    firstFail (accessChecks s k r l right)
      = if e.live = none ∨ d.live = none then some .noRegion
        else if e.length < recOffset r + recCount r ∨ d.length < argDstOffset r + recCount r then some .outOfRange
        else if d.ownedBy l = false then some .notOwner
        else if e.pending = some .delete ∨ d.pending = some .delete then some .regionBusy
        else if d.writable = false then some .isProtected
        else none := by
  subst he hd h
  simp only [ite_or]
  simp [accessChecks, copyChecks]

theorem firstFail_regionDefine {d : RegionEntry} (hd : d = s.region (argIndex r)) (h : k = .regionDefine) :
    firstFail (accessChecks s k r l right)
      = if right = false then some .noRight
        else if d.live ≠ none then some .indexInUse
        else if d.pending ≠ none then some .regionBusy
        else if s.width * 65536 < argBase r + argLength r then some .outOfRange
        else if windowFree s (argBase r) (argLength r) = false then some .overlap
        else if s.lockdown = true then some .lockedDown
        else none := by
  subst hd h
  simp [accessChecks, defineChecks, Config.dataBlocks, Option.isSome_iff_ne_none]

theorem firstFail_regionDelete {e : RegionEntry} (he : e = s.region (recRegion r)) (h : k = .regionDelete) :
    firstFail (accessChecks s k r l right)
      = if right = false then some .noRight
        else if e.live = none then some .noRegion
        else if e.pending ≠ none then some .regionBusy
        else if e.inState .opened = false then some .isProtected
        else if e.users ≠ 0 then some .regionBusy
        else if s.lockdown = true then some .lockedDown
        else none := by
  subst he h
  simp [accessChecks, deleteChecks, Option.isSome_iff_ne_none]

/-- The steps of the three operations on a region's state (R13, R16 to R18). -/
theorem firstFail_protects {e : RegionEntry} (he : e = s.region (recRegion r))
    (h : k = .regionGuard ∨ k = .regionRelease ∨ k = .regionFix) :
    firstFail (accessChecks s k r l right)
      = if right = false ∧ e.ownedBy l = false then some .noRight
        else if e.live = none then some .noRegion
        else if e.pending ≠ none then some .regionBusy
        else if k ≠ .regionFix ∧ e.inState .fixed = true then some .isProtected
        else if s.lockdown = true then some .lockedDown
        else none := by
  subst he
  rcases h with rfl | rfl | rfl <;> simp [accessChecks, protectChecks, Option.isSome_iff_ne_none]

/-! ### What the steps ask of a region -/

theorem ownedBy_iff (e : RegionEntry) (l : LaneId) :
    e.ownedBy l = true ↔ ∃ d, e.live = some d ∧ d.owners.getLsbD l.val = true := by
  unfold RegionEntry.ownedBy
  cases e.live <;> simp

theorem length_of_live {e : RegionEntry} {d : RegionDef} (h : e.live = some d) : e.length = d.length := by
  rw [RegionEntry.length, h]

theorem writable_iff (e : RegionEntry) : e.writable = true ↔ e.inState .opened = true ∧ e.closing = false := by
  simp [RegionEntry.writable]

theorem windowFree_iff (s : State) (base length : Nat) :
    windowFree s base length = true ↔ ∀ i, i < 32 →
      (∀ d, (s.region i).live = some d → base + length ≤ d.base ∨ d.base + d.length ≤ base)
      ∧ ∀ b n o label, (s.region i).pending = some (.define b n o label) → base + length ≤ b ∨ b + n ≤ base := by
  simp only [windowFree, regionIndices, List.all_eq_true, List.mem_range, Bool.and_eq_true]
  refine forall₂_congr fun i _ => and_congr ?live ?pending
  case live =>
    cases (s.region i).live with
    | none => simp
    | some d => simp [windowsMeet_eq_false_iff]
  case pending =>
    cases (s.region i).pending with
    | none => simp
    | some op =>
      cases op with
      | define b n o label =>
        simp only [Bool.not_eq_true', windowsMeet_eq_false_iff, Option.some.injEq, RegionOp.define.injEq]
        exact ⟨fun h _ _ _ _ ⟨hb, hn, _, _⟩ => hb ▸ hn ▸ h, fun h => h b n o label ⟨rfl, rfl, rfl, rfl⟩⟩
      | _ => simp

end Sys2Proof.Machine
end

section
namespace Sys2Proof.Machine

/-- Settles O25: a refused record enters FINISHING in the state its grant leaves, and each step of the check order is read off
the list of its tests. -/
theorem refusedRecordHasNoEffect : Obligations.RefusedRecordHasNoEffect := by
  refine ⟨fun k s l x r a st g h => ?refused, fun s l x r a g => ?badOp, firstFail_argumentChecks,
    fun s k r l right e d he hd => ⟨firstFail_reads s l r right he, firstFail_writes s l r right he,
      firstFail_relocate s l r right he, fun hk => firstFail_copy s l r right he (by rw [hd, hk]; rfl) hk,
      ?startPass, ?tableRight, ?free, fun hk => firstFail_regionDefine s l r right (by rw [hd, hk]; rfl) hk,
      firstFail_regionDelete s l r right he, firstFail_protects s l r right he⟩,
    fun e l st => ⟨ownedBy_iff e l, fun d => length_of_live, inState_iff e st, writable_iff e⟩, windowFree_iff⟩
  case refused =>
    obtain ⟨t, gs, row, only, ctx⟩ := refusedRecord_finishes g st h
    have final := refused_final r a l (s.lane l).cfg.tableRight s.tick gs st s.cme.gen
    rw [g.kind] at final
    exact ⟨t, row, only.taken, by rw [ctx]; rfl, by rw [ctx]; rfl, by rw [ctx]; rfl, by rw [ctx]; exact final, only.ctxs,
      only.regions, only.media, only.device, only.ntu, only.out⟩
  case badOp =>
    obtain ⟨t, gs, row, only, ctx⟩ := refusedRecord_finishes g .badOp (.inl ((firstFail_argumentChecks s _ r).1 rfl))
    have word : (Context.refused r a l (s.lane l).cfg.tableRight s.tick gs .badOp).resultWord s.cme.gen .failed = 0 := by
      have kind : recKind (Context.refused r a l (s.lane l).cfg.tableRight s.tick gs .badOp).record = .badOp := g.kind
      rw [Context.resultWord, kind]
    refine ⟨t, row, ⟨by rw [ctx]; rfl, by rw [ctx]; rfl, by rw [ctx]; rfl, ?_⟩, only.regions, only.media⟩
    rw [ctx]
    exact congrArg some word
  case startPass =>
    rintro rfl
    simp [accessChecks]
  case tableRight => rintro (rfl | rfl | rfl) <;> simp [accessChecks]
  case free => rintro (rfl | rfl) <;> rfl

end Sys2Proof.Machine
end

section
/-! O27 and O33. A record that goes to LOADING, and the two operations that are decided at their grant whatever the state. -/

namespace Sys2Proof.Machine

/-- Settles O27: only the grant has happened when the list read goes out. -/
theorem segmentListIsLoadedFirst : Obligations.SegmentListIsLoadedFirst := by
  intro k s l x r a g arguments list
  obtain ⟨accept, row⟩ := exec_grantCommand k s
  obtain ⟨u, only, ctx, loads⟩ := grantRow_loads_in g arguments list accept
  have record : (u.ctx x).record = r := by rw [ctx]; rfl
  have loading : (loadList x u).ctx x = { u.ctx x with state := .loading, listReading := true } := ctx_setCtx_same ..
  have noted := only.then (setCtx_ctxOnly u x { u.ctx x with state := .loading, listReading := true })
  refine ⟨_, exec_eq_next row loads, noted.taken.of_same rfl rfl, by rw [loading], by rw [loading], ?_, noted.regions,
    noted.media.emit _, noted.device.emit _, ?_⟩
  · rw [loading]
    exact record
  · show _ ++ [_] = _
    rw [← record]
    exact congrArg (· ++ _) noted.out

variable {k : OpKind} {s u : State} {l : LaneId} {x : CtxId} {r : Bytes} {a : Addr}

/-- A record decided as soon as it is accepted has succeeded, with the result word of its operation (R34, R35). -/
theorem enterFinishing_checked {right : Bool} {tick : Tick} {w : BitVec 64}
    (h : u.ctx x = Context.checked k r a l right tick) (hw : (u.ctx x).resultWord u.cme.gen .done = w) :
    Decided (enterFinishing x u) x .done .ok w := by
  have decided := enterFinishing_decided x u
  rw [show (u.ctx x).outcome = (.done, .ok) by rw [h]; rfl, hw] at decided
  exact decided

/-- Settles O33: both are accepted by entering FINISHING, LOCKDOWN with the flag set. -/
theorem barrierAndLockdownCompleteAtDispatch : Obligations.BarrierAndLockdownCompleteAtDispatch := by
  refine ⟨fun s l x r a g h => ?barrier, fun s l x r a g h => ?lockdown⟩
  case barrier =>
    obtain ⟨u, only, ctx, accepted⟩ := grantRow_passes_in g h acceptBarrier
    have finished := only.then (enterFinishing_ctxOnly x u)
    have kind : recKind (u.ctx x).record = .barrier := by rw [ctx]; exact g.kind
    have word : (u.ctx x).resultWord u.cme.gen .done = 0 := by rw [Context.resultWord, kind]
    exact ⟨_, exec_eq_next rfl (accepted.trans (workOff_none _)), finished.taken, enterFinishing_checked ctx word,
      finished.ctxs, finished.regions,
      finished.media, finished.device, finished.out⟩
  case lockdown =>
    obtain ⟨u, only, ctx, accepted⟩ := grantRow_passes_in g h acceptLockdown
    have finished := enterFinishing_ctxOnly x { u with lockdown := true }
    have kind : recKind (u.ctx x).record = .lockdown := by rw [ctx]; exact g.kind
    have word : (u.ctx x).resultWord u.cme.gen .done = BitVec.ofNat 64 s.cme.gen := by
      rw [Context.resultWord, kind, only.media.cme]
    refine ⟨_, exec_eq_next rfl (accepted.trans (workOff_none _)), finished.device.lockdown,
      enterFinishing_checked (u := { u with lockdown := true }) ctx word,
      finished.regions.trans only.regions, ?_, finished.device.dev.trans only.device.dev⟩
    have flagged : SameMedia u { u with lockdown := true } := ⟨rfl, rfl, rfl, rfl, rfl⟩
    exact (only.media.trans flagged).trans finished.media

end Sys2Proof.Machine
end

section
/-! O29 and O35. The snapshot of a TABLE_READ and its first buffer write (R50, R51, R62), at the grant or at the end of the list
read, and the check order taken up again when a segment list has arrived (R30). -/

namespace Sys2Proof.Machine

variable {s t u : State} {x : CtxId}

/-! ### An accepted TABLE_READ -/

/-- The context of a TABLE_READ, in whatever state it settles, when its first buffer write is out. -/
def Context.readsTable (c : Context) (st : CtxState) (snap : Bytes) (gen : Nat) : Context :=
  { c with
    state := st
    bufs := Vector.ofFn fun (i : Fin 4) => ⟨some i.val, some (chunkOf snap i.val)⟩
    snapGen := some (BitVec.ofNat 32 gen)
    snapSize := snapshotSize (argSelector c.record)
    cursor := 1
    blocks := [⟨0, .bufferWrite⟩] }

/-- The host writes of a snapshot's first chunk. -/
def firstChunkWrites (gs : List Segment) (snap : Bytes) : List Output :=
  pieceWrites (bufferPieces gs 0 (snap.take 4096).length) (snap.take 4096)

/-- Block 0's buffer is the first of the four, and holds the first chunk. -/
theorem bufferData_firstChunk (c : Context) (snap : Bytes)
    (hb : c.bufs = Vector.ofFn fun (i : Fin 4) => ⟨some i.val, some (chunkOf snap i.val)⟩) :
    c.bufferData 0 = snap.take 4096 := by
  rw [Context.bufferData, hb]
  rfl

/-- A buffer write is work outstanding, so the context that issues one is not decided. -/
theorem issueChunk_working (x : CtxId) (s : State) :
    ∃ st, issueChunk x s = (s.setCtx x { s.ctx x with
        state := st, cursor := (s.ctx x).cursor + 1, blocks := [⟨(s.ctx x).cursor, .bufferWrite⟩] }).emit
      (pieceWrites (bufferPieces (s.ctx x).segs (4096 * (s.ctx x).cursor)
        ((s.ctx x).bufferData (s.ctx x).cursor).length) ((s.ctx x).bufferData (s.ctx x).cursor)) := by
  obtain ⟨st, e⟩ := ctxUpdate_working (c := { s.ctx x with
    cursor := (s.ctx x).cursor + 1, blocks := [⟨(s.ctx x).cursor, .bufferWrite⟩] }) (by simp [Context.work]) x s
  exact ⟨st, congrArg (State.emit · _) e⟩

theorem acceptTableRead_snapshot (hc : (s.ctx x).cursor = 0) (snap : Bytes)
    (hs : snap = snapshot s (argSelector (s.ctx x).record) (argUnit (s.ctx x).record)) :
    ∃ st v, acceptTableRead x s = (v.emit (firstChunkWrites (s.ctx x).segs snap), []) ∧ CtxOnly x s v
      ∧ v.ctx x = (s.ctx x).readsTable st snap s.cme.gen := by
  subst hs
  obtain ⟨st, e⟩ := issueChunk_working x (s.setCtx x { s.ctx x with
    state := .issuing
    bufs := Vector.ofFn fun (i : Fin 4) => ⟨some i.val, some (chunkOf
      (snapshot s (argSelector (s.ctx x).record) (argUnit (s.ctx x).record)) i.val)⟩
    snapGen := some (BitVec.ofNat 32 s.cme.gen)
    snapSize := snapshotSize (argSelector (s.ctx x).record) })
  refine ⟨st, _, congrArg (·, []) (e.trans ?_), setCtx_ctxOnly .., ctx_setCtx_same ..⟩
  rw [ctx_setCtx_same, setCtx_setCtx]
  dsimp only
  rw [hc, bufferData_firstChunk _ _ rfl]
  rfl

theorem readsTable_phase (c : Context) (st : CtxState) (snap : Bytes) (gen : Nat) :
    (c.readsTable st snap gen).phase 0 = some .bufferWrite := rfl

theorem readsTable_bufs (c : Context) (st : CtxState) (snap : Bytes) (gen : Nat) (i : Fin 4) :
    (c.readsTable st snap gen).bufs[i] = ⟨some i.val, some ((snap.drop (4096 * i.val)).take 4096)⟩ := by
  simp [Context.readsTable, chunkOf, Config.blockSize]

theorem snapshot_same (hr : t.regions = s.regions) (m : SameMedia s t) (hw : t.width = s.width) (selector unit : Nat) :
    snapshot t selector unit = snapshot s selector unit := by
  unfold snapshot regionSnapshot relocationSnapshot logSnapshot patrolHeaderBytes unitSummary unitRecordBytes
  simp only [State.region, State.rlt, State.chan, hr, hw, m.chans, m.rlts, m.patrol, m.log, m.cme]

/-- Settles O29: only the grant has happened when the snapshot is taken. -/
theorem tableReadTakesASnapshot : Obligations.TableReadTakesASnapshot := by
  intro s l x r a g h
  obtain ⟨u, only, ctx, accepted⟩ := grantRow_passes_in g h acceptTableRead
  have record : (u.ctx x).record = r := by rw [ctx]; rfl
  have segs : (u.ctx x).segs = inlineSegments r := by rw [ctx]; rfl
  have snap : snapshot s (argSelector r) (argUnit r)
      = snapshot u (argSelector (u.ctx x).record) (argUnit (u.ctx x).record) := by
    rw [record, snapshot_same only.regions only.media only.device.width]
  obtain ⟨st, v, taken, noted, started⟩ := acceptTableRead_snapshot (by rw [ctx]; rfl) _ snap
  rw [taken, workOff_none, segs] at accepted
  have noted := only.then noted
  refine ⟨_, exec_eq_next rfl accepted, noted.taken.of_same rfl rfl, ?_, ?_, fun i => ?_, ?_, noted.regions,
    noted.media.emit _, noted.device.emit _, congrArg (· ++ _) noted.out⟩
  all_goals rw [emit_ctx, started]
  · rw [← only.media.cme]
    rfl
  · simp only [Context.readsTable, record]
    rfl
  · exact readsTable_bufs ..
  · exact readsTable_phase ..

/-! ### The end of a list read (R30) -/

theorem refuseRecord_ctxOnly (x : CtxId) (st : Status) (s : State) : CtxOnly x s (refuseRecord x st s) :=
  (setCtx_ctxOnly s x _).trans (enterFinishing_ctxOnly x _)

theorem refuseRecord_final (x : CtxId) (st : Status) (s : State) :
    ((refuseRecord x st s).ctx x).state = .finishing
      ∧ ((refuseRecord x st s).ctx x).final.map (fun f => (f.1, f.2.status)) = some (.failed, st) := by
  rw [refuseRecord, enterFinishing_ctx, ctx_setCtx_same]
  exact ⟨rfl, rfl⟩

/-- The checks from step 3 on do not read the contexts. -/
theorem accessChecks_setCtx (s : State) (x : CtxId) (c : Context) (k : OpKind) (r : Bytes) (l : LaneId) (right : Bool) :
    accessChecks (s.setCtx x c) k r l right = accessChecks s k r l right := accessChecks_same rfl rfl rfl rfl ..

section
variable {k : OpKind} {c : Context} (accept : CtxId → State → Eff)

theorem checkAccess_refuses {st : Status} (h : firstFail (accessChecks s k c.record c.lane c.tableRight) = some st) :
    checkAccess k accept x (s.setCtx x c) = (refuseRecord x st (s.setCtx x c), []) := by
  simp only [checkAccess, ctx_setCtx_same, accessChecks_setCtx, h]

theorem checkAccess_accepts (h : firstFail (accessChecks s k c.record c.lane c.tableRight) = none) :
    checkAccess k accept x (s.setCtx x c) = accept x (s.setCtx x c) := by
  simp only [checkAccess, ctx_setCtx_same, accessChecks_setCtx, h]

end

/-- An accepted READ or WRITE is ISSUING, its region's users up by one (R9, R21). -/
theorem acceptBlocks_issuing (h : recKind (s.ctx x).record = .read ∨ recKind (s.ctx x).record = .write)
    (hi : recRegion (s.ctx x).record < 32) :
    ∃ t, acceptBlocks x s = (t, []) ∧ RecordsOnly s t ∧ (t.ctx x).state = .issuing ∧ (t.ctx x).segs = (s.ctx x).segs
      ∧ (t.region (recRegion (s.ctx x).record)).users = (s.region (recRegion (s.ctx x).record)).users + 1 := by
  refine ⟨_, rfl, acceptData_recordsOnly x s, by rw [acceptData_ctx], by rw [acceptData_ctx], acceptData_users ?_ ?_ hi⟩
  · rcases h with h | h <;> rw [h] <;> rfl
  · rcases h with h | h <;> rw [h] <;> nofun

/-- The end of the list read the context waits for (R30). -/
theorem listReadEnd_awaited (hs : (s.ctx x).state = .loading) (hr : (s.ctx x).listReading = true)
    (read : HostResult Bytes) :
    exec (.listReadEnd x read s.lif.epoch) s = .next (workOff (listReadEnds x read s)) := by
  show (.next _ : Res) = _
  simp [hs, hr]

theorem listReadEnds_aborted (ha : (s.ctx x).abortMark = true) (read : HostResult Bytes) :
    listReadEnds x read s = (enterFinishing x (s.setCtx x { s.ctx x with listReading := false }), []) := by
  simp only [listReadEnds, ha, if_true]

theorem listReadEnds_busError (ha : (s.ctx x).abortMark = false) :
    listReadEnds x .busError s = (refuseRecord x .hostMemory (s.setCtx x { s.ctx x with listReading := false }), []) := by
  simp only [listReadEnds, ha, Bool.false_eq_true, if_false]

/-- The context of a record whose segments have arrived. -/
def Context.listed (c : Context) (gs : List Segment) : Context := { c with listReading := false, segs := gs }

theorem listReadEnds_badSegments {bs : Bytes} (ha : (s.ctx x).abortMark = false)
    (hs : segmentsOk (recKind (s.ctx x).record) (s.ctx x).record (segmentsOf (recSegCount (s.ctx x).record) bs) = false) :
    listReadEnds x (.data bs) s = (refuseRecord x .badArg (s.setCtx x { s.ctx x with listReading := false }), []) := by
  simp only [listReadEnds, ha, hs, Bool.false_eq_true, if_false]

theorem listReadEnds_segments {bs : Bytes} (ha : (s.ctx x).abortMark = false)
    (hs : segmentsOk (recKind (s.ctx x).record) (s.ctx x).record (segmentsOf (recSegCount (s.ctx x).record) bs) = true) :
    listReadEnds x (.data bs) s
      = checkAccess (recKind (s.ctx x).record) (acceptListed (recKind (s.ctx x).record)) x
          (s.setCtx x ((s.ctx x).listed (segmentsOf (recSegCount (s.ctx x).record) bs))) := by
  unfold listReadEnds
  dsimp only
  rw [if_neg (Bool.eq_false_iff.mp ha), if_pos hs]
  rfl

/-- A list read that ends with a refusal: the record FAILED with that code, and nothing but its context changed. -/
theorem listReadEnds_refused {c : Context} {st : Status} {read : HostResult Bytes} (hs : (s.ctx x).state = .loading)
    (hr : (s.ctx x).listReading = true) (h : listReadEnds x read s = (refuseRecord x st (s.setCtx x c), [])) :
    ∃ t, exec (.listReadEnd x read s.lif.epoch) s = .next t ∧ (t.ctx x).state = .finishing
      ∧ (t.ctx x).final.map (fun f => (f.1, f.2.status)) = some (.failed, st) ∧ CtxOnly x s t := by
  obtain ⟨state, final⟩ := refuseRecord_final x st (s.setCtx x c)
  exact ⟨_, exec_eq_next (listReadEnd_awaited hs hr read) (by rw [h, workOff_none]), state, final,
    (setCtx_ctxOnly s x c).trans (refuseRecord_ctxOnly ..)⟩

section
variable {gs : List Segment} {bs : Bytes} (hs : (s.ctx x).state = .loading) (hr : (s.ctx x).listReading = true)
include hs hr

/-- A READ or WRITE that passes the steps from 3 on, with the segments of its list (R30, R33). -/
theorem listReadEnds_issuing (hk : recKind (s.ctx x).record = .read ∨ recKind (s.ctx x).record = .write)
    (h : listReadEnds x (.data bs) s
      = checkAccess (recKind (s.ctx x).record) (acceptListed (recKind (s.ctx x).record)) x (s.setCtx x ((s.ctx x).listed gs)))
    (pass : firstFail (accessChecks s (recKind (s.ctx x).record) (s.ctx x).record (s.ctx x).lane (s.ctx x).tableRight) = none)
    (hi : recRegion (s.ctx x).record < 32) :
    ∃ t, exec (.listReadEnd x (.data bs) s.lif.epoch) s = .next t ∧ (t.ctx x).state = .issuing ∧ (t.ctx x).segs = gs
      ∧ (t.region (recRegion (s.ctx x).record)).users = (s.region (recRegion (s.ctx x).record)).users + 1
      ∧ RecordsOnly s t := by
  have blocks : acceptListed (recKind (s.ctx x).record) = acceptBlocks := by rcases hk with e | e <;> rw [e] <;> rfl
  obtain ⟨t, accepted, only, state, segs, users⟩ :=
    acceptBlocks_issuing (s := s.setCtx x ((s.ctx x).listed gs)) (x := x) (by rwa [ctx_setCtx_same])
      (by rwa [ctx_setCtx_same])
  rw [ctx_setCtx_same] at segs users
  have ends := (h.trans (checkAccess_accepts _ pass)).trans ((congrFun (congrFun blocks x) _).trans accepted)
  exact ⟨t, exec_eq_next (listReadEnd_awaited hs hr _) (by rw [ends, workOff_none]), state, segs, users,
    (setCtx_ctxOnly ..).toRecordsOnly.trans only⟩

/-- A TABLE_READ takes its snapshot and issues its first buffer write (R50). -/
theorem listReadEnds_readsTable (hk : recKind (s.ctx x).record = .tableRead) (hc : (s.ctx x).cursor = 0)
    (h : listReadEnds x (.data bs) s
      = checkAccess (recKind (s.ctx x).record) (acceptListed (recKind (s.ctx x).record)) x
          (s.setCtx x ((s.ctx x).listed gs))) :
    ∃ st v snap, exec (.listReadEnd x (.data bs) s.lif.epoch) s = .next (v.emit (firstChunkWrites gs snap))
      ∧ snap = snapshot s (argSelector (s.ctx x).record) (argUnit (s.ctx x).record)
      ∧ CtxOnly x s v ∧ v.ctx x = ((s.ctx x).listed gs).readsTable st snap s.cme.gen := by
  obtain ⟨st, v, taken, only, ctx⟩ :=
    acceptTableRead_snapshot (s := s.setCtx x ((s.ctx x).listed gs)) (x := x) (by rwa [ctx_setCtx_same]) _ rfl
  rw [ctx_setCtx_same] at taken ctx
  rw [hk] at h
  have ends := (h.trans (checkAccess_accepts _ rfl)).trans taken
  have noted := setCtx_ctxOnly s x ((s.ctx x).listed gs)
  exact ⟨st, v, _, exec_eq_next (listReadEnd_awaited hs hr _) (by rw [ends, workOff_none]; rfl),
    snapshot_same noted.regions noted.media rfl _ _, noted.trans only, ctx⟩

end

/-- Settles O35: the end of the list read refuses the record or takes the check order up where LOADING left it. -/
theorem listReadEndResumesTheChecks : Obligations.ListReadEndResumesTheChecks := by
  intro x s
  refine ⟨fun h epoch read => ?unawaited, fun hs hr hf => ⟨fun read ha => ?aborted, fun ha => ?busError,
    fun bs ha => ⟨fun bad => ?badSegments, fun ok => ⟨fun st fail => ?refused, fun hk pass hi => ?issuing,
      fun hk hc => ?tableRead⟩⟩⟩⟩
  case unawaited =>
    show (.next _ : Res) = _
    rw [if_neg fun awaited => h awaited.2]
  case aborted =>
    have only := (setCtx_ctxOnly s x { s.ctx x with listReading := false }).trans (enterFinishing_ctxOnly x _)
    refine ⟨_, exec_eq_next (listReadEnd_awaited hs hr read) (by rw [listReadEnds_aborted ha, workOff_none]), ?_, ?_,
      only.regions⟩
    · rw [enterFinishing_ctx]
      rfl
    · rw [enterFinishing_ctx, ctx_setCtx_same]
      simp [Context.finished, Context.outcome, hf, ha]
  case busError =>
    obtain ⟨t, row, state, final, only⟩ := listReadEnds_refused hs hr (listReadEnds_busError ha)
    exact ⟨t, row, state, final, only.regions, only.media⟩
  case badSegments =>
    obtain ⟨t, row, state, final, only⟩ := listReadEnds_refused hs hr (listReadEnds_badSegments ha bad)
    exact ⟨t, row, state, final, only.regions, only.media⟩
  case refused =>
    have ends := (listReadEnds_segments ha ok).trans (checkAccess_refuses _ fail)
    obtain ⟨t, row, state, final, only⟩ := listReadEnds_refused hs hr ends
    exact ⟨t, row, state, final, only.regions, only.media, only.device⟩
  case issuing =>
    obtain ⟨t, row, state, segs, users, only⟩ := listReadEnds_issuing hs hr hk (listReadEnds_segments ha ok) pass hi
    exact ⟨t, row, state, segs, users, only.media, only.device⟩
  case tableRead =>
    obtain ⟨st, v, snap, row, hsnap, only, ctx⟩ := listReadEnds_readsTable hs hr hk hc (listReadEnds_segments ha ok)
    refine ⟨_, snap, row, hsnap, ?_, ?_, ?_, ?_, ?_, only.regions, only.media.emit _, only.device.emit _⟩
    all_goals rw [emit_ctx, ctx]
    · rfl
    · exact readsTable_phase ..
    · rfl
    · rfl
    · exact congrArg (· ++ _) only.out

end Sys2Proof.Machine
end

section
/-! O37. The ends of the host accesses of a WRITE, a READ and a TABLE_READ. Each is a new value of the context, which then
settles (R54); the facts are read off that value. -/

namespace Sys2Proof.Machine

variable {s : State} {x : CtxId} {j : Nat}

/-! ### Blocks and staging buffers -/

theorem setPhase_phase {c : Context} (p : BlockPhase) (h : c.phase j ≠ none) : (c.setPhase j p).phase j = some p := by
  simp only [Context.phase, Context.setPhase, List.find?_map, ne_eq, Option.map_eq_none_iff] at h ⊢
  have same : (fun b : BlockEntry => b.j == j) ∘ (fun b => if b.j = j then ⟨j, p⟩ else b) = fun b => b.j == j := by
    funext b
    by_cases hb : b.j = j <;> simp [hb]
  rw [same]
  cases hf : c.blocks.find? (fun b => b.j == j) with
  | none => exact absurd hf h
  | some b =>
    have hb : b.j = j := by simpa using List.find?_some hf
    simp [hb]

theorem putData_self {c : Context} (data : Bytes) {i : Fin 4} (h : (c.bufs[i]).bound = some j) :
    (c.putData j data).bufs[i] = ⟨some j, some data⟩ := by
  have put : (c.putData j data).bufs[i]
      = if (c.bufs[i]).bound = some j then { c.bufs[i] with data := some data } else c.bufs[i] :=
    getElem_mapVec _ c.bufs i.val i.isLt
  rw [put, if_pos h, ← h]

/-- Whichever of the buffers bound to the block is read, it holds the data put there. -/
theorem putData_bufferData {c : Context} (data : Bytes) {i : Fin 4} (h : (c.bufs[i]).bound = some j) :
    (c.putData j data).bufferData j = data := by
  have found : ∃ b, (c.putData j data).bufs.toList.find? (fun b => b.bound == some j) = some b ∧ b.data = some data := by
    cases hf : (c.putData j data).bufs.toList.find? (fun b => b.bound == some j) with
    | none =>
      have bound := List.find?_eq_none.mp hf (c.putData j data).bufs[i] (by simp)
      simp [putData_self data h] at bound
    | some b =>
      obtain ⟨k, hk, rfl⟩ := List.mem_iff_getElem.mp (List.mem_of_find?_eq_some hf)
      have hk : k < 4 := by simpa using hk
      have bound : ((c.putData j data).bufs[(⟨k, hk⟩ : Fin 4)]).bound = some j := by simpa using List.find?_some hf
      rw [putData_bound] at bound
      exact ⟨_, rfl, congrArg StagingBuf.data (putData_self data bound)⟩
  obtain ⟨b, hf, hd⟩ := found
  simp [Context.bufferData, hf, hd]

/-- A context that becomes one with block `j` ended. -/
theorem blockGone_setCtx {c : Context} (hb : c.blocks = ((s.ctx x).endBlock j).blocks)
    (hu : c.bufs = ((s.ctx x).endBlock j).bufs) : BlockGone x j s (s.setCtx x c) :=
  .of_end (by rw [ctx_setCtx_same, hb]) (by rw [ctx_setCtx_same, hu])

/-! ### HOST_READ_END (R44, R67) -/

theorem hostReadEnd_awaited (h : (s.ctx x).phase j = some .hostRead) (read : HostResult Bytes) :
    exec (.hostReadEnd x j read s.lif.epoch) s = .next (runEvent (hostReadEnds x j read s)) := by
  show (.next _ : Res) = _
  simp [h]

/-- The block of an aborted WRITE, or one above a failed host read, ends without success or failure. -/
theorem hostReadEnds_dropped (h : (s.ctx x).abortMark = true ∨ (s.ctx x).hostFailedBelow j = true) (read : HostResult Bytes) :
    hostReadEnds x j read s = (ctxUpdate x ((s.ctx x).endBlock j) s, []) := by
  simp [hostReadEnds, h]

section
variable (ha : (s.ctx x).abortMark = false) (hb : (s.ctx x).hostFailedBelow j = false)
include ha hb

theorem hostReadEnds_busError :
    hostReadEnds x j .busError s = (ctxUpdate x { (s.ctx x).failBlock j .hostMemory with
      hostFailed := lowerHostFail (s.ctx x).hostFailed j } s, []) := by
  simp [hostReadEnds, ha, hb]

theorem hostReadEnds_data (bs : Bytes) :
    hostReadEnds x j (.data bs) s = issueProgram x j .program (s.setCtx x ((s.ctx x).putData j bs)) := by
  simp [hostReadEnds, ha, hb]

end

/-- The test before a program step passes (R23). -/
theorem issueProgram_issues {c : Context} {cmd : StepCmd} (hw : (s.region (writeRegion c.record)).writable = true)
    (hr : c.stepRefused = false) :
    issueProgram x j cmd (s.setCtx x c)
      = (s.setCtx x (c.setPhase j (.outstanding cmd)), [.foregroundArrives x j cmd]) := by
  simp only [issueProgram, ctx_setCtx_same, setCtx_region, hw, hr, Bool.not_false, Bool.and_self, if_true, issueStep,
    setCtx_setCtx]

/-- The test fails, and with it the block (R23). -/
theorem issueProgram_refuses {c : Context} {cmd : StepCmd}
    (h : (s.region (writeRegion c.record)).writable = false ∨ c.stepRefused = true) :
    issueProgram x j cmd (s.setCtx x c)
      = (ctxUpdate x { c.failBlock j .isProtected with stepRefused := true } s, []) := by
  have refused : ((s.region (writeRegion c.record)).writable && !c.stepRefused) = false := by
    rcases h with h | h <;> simp [h]
  simp only [issueProgram, ctx_setCtx_same, setCtx_region, refused, Bool.false_eq_true, if_false, ctxUpdate, setCtx_setCtx]

/-! ### BUFFER_WRITE_END (R37, R50) -/

theorem bufferWriteEnd_awaited (h : (s.ctx x).phase j = some .bufferWrite) (error : Bool) :
    exec (.bufferWriteEnd x j error s.lif.epoch) s = .next (bufferWriteEnds x j error s) := by
  show (.next _ : Res) = _
  simp [h]

theorem bufferWriteEnds_read (hk : recKind (s.ctx x).record = .read) (error : Bool) :
    bufferWriteEnds x j error s
      = ctxUpdate x (if error then (s.ctx x).failBlock j .hostMemory else (s.ctx x).succeed j) s := by
  cases error <;> simp [bufferWriteEnds, hk]

theorem bufferWriteEnds_tableRead (hk : recKind (s.ctx x).record = .tableRead) (error : Bool) :
    bufferWriteEnds x j error s = chunkEnds x j error s := by
  simp [bufferWriteEnds, hk]

/-- The context of a TABLE_READ when the bytes of a chunk count. -/
def Context.chunkWritten (c : Context) (j : Nat) : Context :=
  { c with blocks := [], written := c.written + min 4096 (c.snapSize - 4096 * j) }

theorem chunkEnds_last (h : ((s.ctx x).chunkWritten j).issueOver = true) :
    chunkEnds x j false s = ctxUpdate x ((s.ctx x).chunkWritten j) s :=
  if_pos h

theorem bufferWriteEnd_lastChunk (h : (s.ctx x).phase j = some .bufferWrite) (hk : recKind (s.ctx x).record = .tableRead)
    (hd : ((s.ctx x).chunkWritten j).issueOver = true) :
    exec (.bufferWriteEnd x j false s.lif.epoch) s = .next (ctxSettle x (s.setCtx x ((s.ctx x).chunkWritten j))) :=
  exec_eq_next (bufferWriteEnd_awaited h false) ((bufferWriteEnds_tableRead hk false).trans (chunkEnds_last hd))

theorem chunkEnds_next (h : ((s.ctx x).chunkWritten j).issueOver = false) :
    chunkEnds x j false s = issueChunk x (s.setCtx x ((s.ctx x).chunkWritten j)) :=
  if_neg (Bool.eq_false_iff.mp h)

theorem issueOver_iff (c : Context) : c.issueOver = true ↔ IssueOver c := by
  unfold Context.issueOver IssueOver
  split_ifs with h <;>
    simp [Option.isSome_iff_ne_none, or_assoc, Config.blockSize, Nat.mul_comm]

/-- The next chunk goes out as the block at the cursor. -/
theorem issueChunk_setCtx (x : CtxId) (c : Context) (s : State) :
    issueChunk x (s.setCtx x c)
      = (ctxSettle x (s.setCtx x { c with cursor := c.cursor + 1, blocks := [⟨c.cursor, .bufferWrite⟩] })).emit
          (pieceWrites (bufferPieces c.segs (4096 * c.cursor) (c.bufferData c.cursor).length) (c.bufferData c.cursor)) := by
  simp only [issueChunk, ctx_setCtx_same, ctxUpdate, setCtx_setCtx]

/-- Settles O37: every end of a host access makes one new context, or hands the block's program step to its channel. -/
theorem hostAccessesEndTheirBlocks : Obligations.HostAccessesEndTheirBlocks := by
  refine ⟨fun x j s => ⟨fun h epoch read => ?readUnawaited, fun h hd read => ?readDropped,
      fun h ha hb => ⟨fun bs hw hr => ?readIssues, fun bs hp => ?readRefused, ?readBusError⟩⟩,
    fun x j s => ⟨fun h epoch error => ?writeUnawaited, fun h hk => ⟨?writeOk, ?writeError⟩,
      fun h hk => ⟨?chunkError, fun stop => ?chunkStops, fun ha hf ho => ⟨fun last => ?chunkLast, fun more => ?chunkNext⟩⟩⟩⟩
  case readUnawaited =>
    show (.next _ : Res) = _
    rw [if_neg fun awaited => h awaited.2]
  case readDropped =>
    have only := setCtx_ctxOnly s x ((s.ctx x).endBlock j)
    refine ⟨_, exec_eq_next (hostReadEnd_awaited h read) (congrArg runEvent (hostReadEnds_dropped hd read)),
      blockGone_setCtx rfl rfl, ?_, ?_, rfl, only.media, only.device, rfl⟩ <;> rw [ctx_setCtx_same] <;> rfl
  case readIssues =>
    have only := setCtx_ctxOnly s x (((s.ctx x).putData j bs).setPhase j (.outstanding .program))
    have phase : ((s.ctx x).putData j bs).phase j ≠ none := by
      rw [show ((s.ctx x).putData j bs).phase j = _ from h]
      nofun
    refine ⟨_, exec_eq_next (hostReadEnd_awaited h _)
      (congrArg runEvent ((hostReadEnds_data ha hb bs).trans (issueProgram_issues hw hr))), ?_, fun i hi => ?_, fun i hi => ?_,
      rfl, only.media, only.device, rfl, only.ctxs⟩ <;> rw [ctx_setCtx_same]
    · exact setPhase_phase _ phase
    · exact ⟨putData_self bs hi, putData_bufferData bs hi⟩
    · exact putData_other _ j bs i hi
  case readRefused =>
    have only := setCtx_ctxOnly s x
      { ((s.ctx x).putData j bs).failBlock j .isProtected with stepRefused := true }
    refine ⟨_, exec_eq_next (hostReadEnd_awaited h _)
      (congrArg runEvent ((hostReadEnds_data ha hb bs).trans (issueProgram_refuses hp))), ?_, ?_, ?_, rfl, only.media⟩
    · rw [ctx_setCtx_same]
      rfl
    · rw [ctx_setCtx_same]
    · exact .of_endBlock ((s.ctx x).putData j bs) (by rw [ctx_setCtx_same]; rfl) (by rw [ctx_setCtx_same]; rfl)
        (putData_bound _ j bs) (putData_other _ j bs)
  case readBusError =>
    have only := setCtx_ctxOnly s x { (s.ctx x).failBlock j .hostMemory with
      hostFailed := lowerHostFail (s.ctx x).hostFailed j }
    refine ⟨_, exec_eq_next (hostReadEnd_awaited h _) (congrArg runEvent (hostReadEnds_busError ha hb)), ?_,
      blockGone_setCtx rfl rfl, rfl, only.media⟩
    rw [ctx_setCtx_same]
    rfl
  case writeUnawaited =>
    show (.next _ : Res) = _
    rw [if_neg fun awaited => h awaited.2]
  case writeOk =>
    have only := setCtx_ctxOnly s x ((s.ctx x).succeed j)
    refine ⟨_, exec_eq_next (bufferWriteEnd_awaited h false) (bufferWriteEnds_read hk false), ?_, ?_,
      blockGone_setCtx rfl rfl, rfl, only.media, only.device, rfl, rfl⟩ <;> rw [ctx_setCtx_same] <;> rfl
  case writeError =>
    have only := setCtx_ctxOnly s x ((s.ctx x).failBlock j .hostMemory)
    refine ⟨_, exec_eq_next (bufferWriteEnd_awaited h true) (bufferWriteEnds_read hk true), ?_, ?_,
      blockGone_setCtx rfl rfl, rfl, only.media, only.device, rfl, rfl⟩ <;> rw [ctx_setCtx_same] <;> rfl
  case chunkError =>
    refine ⟨s.setCtx x { s.ctx x with blocks := [], otherFail := some .hostMemory },
      exec_eq_next (bufferWriteEnd_awaited h true) (bufferWriteEnds_tableRead hk true), ?_, ?_, ?_, rfl, rfl,
      (setCtx_ctxOnly ..).media⟩ <;> rw [ctx_setCtx_same]
  case chunkStops =>
    have taken : ((s.ctx x).chunkWritten j).issueOver = true :=
      (issueOver_iff _).mpr (stop.imp_right (Or.imp_right Or.inl))
    refine ⟨_, bufferWriteEnd_lastChunk h hk taken,
      ?_, ?_, ?_, ?_, ?_, rfl, rfl, (setCtx_ctxOnly ..).media⟩ <;> rw [ctx_setCtx_same] <;> rfl
  case chunkLast =>
    have taken : ((s.ctx x).chunkWritten j).issueOver = true := by
      simp [Context.issueOver, Context.chunkWritten, hk, Config.blockSize, last]
    refine ⟨_, bufferWriteEnd_lastChunk h hk taken,
      ?_, ?_, rfl, rfl, (setCtx_ctxOnly ..).media⟩ <;> rw [ctx_setCtx_same] <;> rfl
  case chunkNext =>
    have unfinished : ((s.ctx x).chunkWritten j).issueOver = false := by
      simp [Context.issueOver, Context.chunkWritten, hk, Config.blockSize, more, ha, hf, ho]
    refine ⟨_, _, exec_eq_next (bufferWriteEnd_awaited h false) (((bufferWriteEnds_tableRead hk false).trans
      (chunkEnds_next unfinished)).trans (issueChunk_setCtx ..)), rfl, ?_, ?_, ?_, rfl, rfl, (setCtx_ctxOnly ..).media⟩ <;>
      rw [ctx_setCtx_same] <;> rfl

end Sys2Proof.Machine
end

section
/-! O38. The end of a record: how a context decides it (R35, R66), what FINAL_WRITE does (R66, R168, R169) and the table by which
a context leaves its state (R54, R70). -/

namespace Sys2Proof.Machine

variable {s t u : State} {x : CtxId}

/-! ### Operations that put nothing on a link -/

theorem NtuOnly.out (h : NtuOnly s t) : t.out = s.out := by
  obtain ⟨n, rfl⟩ := h
  rfl

theorem askStatus_out (l : LaneId) (s : State) : (askStatus l s).out = s.out := by
  unfold askStatus
  dsimp only
  split
  · rfl
  · exact (askWrite_ntuOnly ..).out

theorem laneRetire_out (l : LaneId) (s : State) : (laneRetire l s).out = s.out := by
  unfold laneRetire
  dsimp only
  split
  · rfl
  · exact (handCauses_ntuOnly ..).out.trans (askStatus_out ..)

theorem laneOff_out (l : LaneId) (s : State) : (laneOff l s).out = s.out := by
  unfold laneOff
  dsimp only
  split
  · exact (handCauses_ntuOnly ..).out.trans (askStatus_out ..)
  · rfl

theorem laneHaltedOff_out (l : LaneId) (s : State) : (laneHaltedOff l s).out = s.out := by
  unfold laneHaltedOff
  dsimp only
  split <;> rfl

theorem settleLanes_out (s : State) : (settleLanes s).out = s.out := by
  refine forEach_frame (p := State.out) _ (fun l t => ?_) four s
  (repeat' split)
  · exact laneHaltedOff_out l t
  · rfl
  · exact laneOff_out l t

theorem stoppedCheck_out (s : State) : (stoppedCheck s).out = s.out := by
  unfold stoppedCheck
  split <;> rfl

theorem resetEndCheck_out (s : State) : (resetEndCheck s).out = s.out := by
  unfold resetEndCheck
  split <;> rfl

theorem finishEvent_out (s : State) : (finishEvent s).out = s.out :=
  (resetEndCheck_out _).trans ((stoppedCheck_out _).trans (settleLanes_out s))

/-! ### FINAL_WRITE (R66, R168, R169) -/

theorem ctx_same (h : t.ctxs = s.ctxs) (y : CtxId) : t.ctx y = s.ctx y := by
  simp only [State.ctx, h]

theorem lane_same (h : t.lanes = s.lanes) (l : LaneId) : t.lane l = s.lane l := by
  simp only [State.lane, h]

/-- What a record's report to its lane and the tests at the event's end leave. -/
structure ReportKeeps (s t : State) : Prop where
  ctxs : t.ctxs = s.ctxs
  regions : t.regions = s.regions
  media : SameMedia s t
  dar : t.dar = s.dar
  tick : t.tick = s.tick
  lockdown : t.lockdown = s.lockdown
  out : t.out = s.out

theorem reportFinal_lanesOnly (l : LaneId) (x : CtxId) (fs : FinalState) (s : State) :
    LanesOnly s (reportFinal l x fs s) :=
  (modLane_lanesOnly ..).trans (laneRetire_lanesOnly ..)

theorem reportFinal_finish_keeps (l : LaneId) (x : CtxId) (fs : FinalState) (s : State) :
    ReportKeeps s (finishEvent (reportFinal l x fs s)) := by
  have k := finishEvent_keeps (reportFinal l x fs s)
  have out := (finishEvent_out (reportFinal l x fs s)).trans (laneRetire_out ..)
  obtain ⟨ls, n, o, e⟩ := reportFinal_lanesOnly l x fs s
  rw [e] at k out ⊢
  exact ⟨k.ctxs, k.regions, ⟨k.chans, k.rlts, k.patrol, k.log, k.cme⟩, k.dar, k.tick, k.lockdown, out⟩

/-- The record final in its lane's window, and the run at the window's head retired. -/
theorem reportFinal_finish_lane (l : LaneId) (x : CtxId) (fs : FinalState) (s : State)
    (hd : (s.lane l).state ≠ .draining) (window run : List WinRec)
    (hw : window = (s.lane l).window.map (fun r => if r.cond = .running x then { r with cond := .final fs } else r))
    (hr : run = window.takeWhile (fun r => r.isFinal && r.linkRead)) :
    let n := (finishEvent (reportFinal l x fs s)).lane l
    n.window = window.drop run.length ∧ n.retireSeq = lastSeq (s.lane l).retireSeq run ∧ n.state = (s.lane l).state
      ∧ n.reading = (s.lane l).reading := by
  have marked : (modLane l (fun k => { k with window := finalInWindow x fs k.window }) s).lane l
      = { s.lane l with window := window } := by
    rw [modLane_lane, if_pos rfl, hw]
    rfl
  obtain ⟨retired, seq, rest⟩ :=
    laneRetire_lane l (modLane l (fun k => { k with window := finalInWindow x fs k.window }) s)
  rw [marked] at retired seq rest
  have state : ((reportFinal l x fs s).lane l).state = (s.lane l).state := by
    rw [reportFinal, rest]
  have settled := finishEvent_lane l (reportFinal l x fs s)
  have kept := settled.kept (by rwa [state])
  intro n
  rw [show n = (reportFinal l x fs s).lane l from kept]
  subst hr
  exact ⟨retired, seq, state, by rw [reportFinal, rest]⟩

theorem finalWrite_ignored
    (h : (s.ctx x).state ≠ .finishing ∨ (s.ctx x).final = none ∨ s.dev.state = .halted) :
    exec (.finalWrite x) s = .next s := by
  show (.next _ : Res) = _
  split
  · next fs part hs hf =>
    rw [if_pos]
    simpa [hs, hf, State.halted] using h
  · rfl

theorem finalWrite_taken {fs : FinalState} {part : DevicePart} (hs : (s.ctx x).state = .finishing)
    (hf : (s.ctx x).final = some (fs, part)) (hh : s.dev.state ≠ .halted) :
    exec (.finalWrite x) s = .next (finishEvent (reportFinal (s.ctx x).lane x fs
      (freeContext x (s.emit (resultWrites (s.ctx x).addr part fs))))) := by
  show (.next _ : Res) = _
  simp only [hs, hf, State.halted, hh, beq_iff_eq, if_false]
  rfl

/-! ### How a record is decided (R34, R35) -/

section
variable {c : Context}

theorem outcome_of_abort (hr : c.refusal = none) (ha : c.abortMark = true) : c.outcome = (.cancelled, .aborted) := by
  simp only [Context.outcome, hr, ha, if_true]

theorem outcome_of_failure {j : Nat} {st : Status} (hr : c.refusal = none) (ha : c.abortMark = false)
    (hf : c.failure = some (j, st)) : c.outcome = (.failed, st) := by
  simp only [Context.outcome, hr, ha, hf, Bool.false_eq_true, if_false]

theorem outcome_of_otherFail {st : Status} (hr : c.refusal = none) (ha : c.abortMark = false) (hf : c.failure = none)
    (ho : c.otherFail = some st) : c.outcome = (.failed, st) := by
  simp only [Context.outcome, hr, ha, hf, ho, Bool.false_eq_true, if_false]

theorem outcome_of_success (hr : c.refusal = none) (ha : c.abortMark = false) (hf : c.failure = none)
    (ho : c.otherFail = none) : c.outcome = (.done, .ok) := by
  simp only [Context.outcome, hr, ha, hf, ho, Bool.false_eq_true, if_false]

theorem firstFailField_unset {fs : FinalState} (h : fs ≠ .failed ∨ (recKind c.record).isData = false) :
    c.firstFailField fs = BitVec.allOnes 32 := by
  refine if_neg fun ⟨hf, hd⟩ => ?_
  simp [hf, hd] at h

theorem firstFailField_refused (hd : (recKind c.record).isData = true) (hr : c.refusal.isSome = true) :
    c.firstFailField .failed = 0 := by
  obtain ⟨st, hr⟩ := Option.isSome_iff_exists.mp hr
  simp [Context.firstFailField, hd, hr]

theorem firstFailField_failure {j : Nat} {st : Status} (hd : (recKind c.record).isData = true) (hr : c.refusal = none)
    (hf : c.failure = some (j, st)) : c.firstFailField .failed = BitVec.ofNat 32 j := by
  simp [Context.firstFailField, hd, hr, hf]

/-! ### When a context may leave its state (R54, R70) -/

theorem work_eq_nil_iff : c.work = [] ↔ ∀ b ∈ c.blocks, b.phase = .fold := by
  simp [Context.work, List.filter_eq_nil_iff]

theorem nothingLeft_iff : NothingLeft c ↔ c.work = [] ∧ c.waitCommit = false ∧ c.waitPass = false := by
  rw [work_eq_nil_iff]
  exact ⟨fun h => ⟨h.blocks, h.commit, h.pass⟩, fun ⟨blocks, commit, pass⟩ => ⟨blocks, commit, pass⟩⟩

theorem restState_of_nothingLeft (h : NothingLeft c) : c.restState = .finishing :=
  restState_finishing_iff.mpr (nothingLeft_iff.mp h)

/-- Every block left awaits a commit or its fold. -/
theorem work_all_awaitCommit_iff :
    (c.work.all fun b => b.phase == .awaitCommit) = true
      ↔ ∀ b ∈ c.blocks, b.phase = .awaitCommit ∨ b.phase = .fold := by
  simp only [Context.work, List.all_eq_true, List.mem_filter, bne_iff_ne, ne_eq, beq_iff_eq, and_imp]
  exact forall₂_congr fun b _ => ⟨fun h => (em (b.phase = .fold)).symm.imp_left h, fun h hb => h.resolve_right hb⟩

/-- What is left decides between COMMIT_WAIT and DRAINING_STEPS. -/
theorem restState_of_left (h : ¬ NothingLeft c) (waits : Bool)
    (hw : waits = true ↔ c.state = .commitWait
      ∨ ((∀ b ∈ c.blocks, b.phase = .awaitCommit ∨ b.phase = .fold) ∧ c.abortMark = false ∧ c.waitPass = false)) :
    c.restState = if waits then .commitWait else .drainingSteps := by
  have busy : ¬ (c.work.isEmpty && !c.waitCommit && !c.waitPass) = true := by
    simpa [nothingLeft_iff, and_assoc] using h
  have all : waits = true ↔ c.state = .commitWait
      ∨ (c.work.all (fun b => b.phase == .awaitCommit) && !c.abortMark && !c.waitPass) = true := by
    rw [hw, ← work_all_awaitCommit_iff]
    simp [and_assoc]
  rw [Context.restState, if_neg busy]
  by_cases hc : c.state = .commitWait
  · rw [if_pos hc, if_pos (all.mpr (.inl hc))]
  · rw [if_neg hc]
    exact if_congr ((or_iff_right hc).symm.trans all.symm) rfl rfl

theorem idle_iff : c.idle = true ↔ NothingLeft c ∧ c.listReading = false := by
  simp [Context.idle, nothingLeft_iff, and_assoc]

end

/-- FINAL_WRITE of a FINISHING context outside HALTED (R36, R66, R168, R169). -/
theorem finalWrite_frees {fs : FinalState} {part : DevicePart} (hs : (s.ctx x).state = .finishing)
    (hf : (s.ctx x).final = some (fs, part)) (hh : s.dev.state ≠ .halted) :
    ∃ t, exec (.finalWrite x) s = .next t
      ∧ t.out = s.out ++ resultWrites (s.ctx x).addr part fs
      ∧ t.ctx x = Context.empty ∧ (∀ y, y ≠ x → t.ctx y = s.ctx y)
      ∧ ((s.ctx x).raised.Nodup → ∀ i, t.region i
          = { s.region i with users := (s.region i).users - (if i ∈ (s.ctx x).raised then 1 else 0) })
      ∧ SameMedia s t ∧ t.dar = s.dar ∧ t.tick = s.tick ∧ t.lockdown = s.lockdown
      ∧ ∀ l window run, l = (s.ctx x).lane → (s.lane l).state ≠ .draining →
        window = (s.lane l).window.map (fun r => if r.cond = .running x then { r with cond := .final fs } else r) →
        run = window.takeWhile (fun r => r.isFinal && r.linkRead) →
        (t.lane l).window = window.drop run.length ∧ (t.lane l).retireSeq = lastSeq (s.lane l).retireSeq run
          ∧ (t.lane l).state = (s.lane l).state ∧ (t.lane l).reading = (s.lane l).reading := by
  let written := s.emit (resultWrites (s.ctx x).addr part fs)
  have freed := freeContext_recordsOnly x written
  have kept := reportFinal_finish_keeps (s.ctx x).lane x fs (freeContext x written)
  refine ⟨_, finalWrite_taken hs hf hh, kept.out.trans freed.out, ?_, fun y hy => ?_, fun hn i => ?_,
    (((SameMedia.refl s).emit _).trans freed.media).trans kept.media, kept.dar.trans freed.dar,
    kept.tick.trans freed.device.tick, kept.lockdown.trans freed.device.lockdown, ?_⟩
  · rw [ctx_same kept.ctxs, freeContext_ctx]
  · rw [ctx_same kept.ctxs]
    exact freeContext_ctx_other written hy
  · rw [region_same kept.regions]
    exact freeContext_region (s := written) hn i
  · rintro l window run rfl hd hw hr
    have lane : (freeContext x written).lane (s.ctx x).lane = s.lane (s.ctx x).lane := lane_same freed.lanes _
    have retired := reportFinal_finish_lane (s.ctx x).lane x fs (freeContext x written) (by rwa [lane]) window run
      (by rwa [lane]) hr
    rwa [lane] at retired

/-- What a context that enters FINISHING has decided (R34, R35, R49, R50, R66). -/
theorem enterFinishing_decides (x : CtxId) (s : State) : ∃ fs part,
    ((enterFinishing x s).ctx x).state = .finishing ∧ ((enterFinishing x s).ctx x).final = some (fs, part)
    ∧ ((enterFinishing x s).ctx x).blocks = [] ∧ (∀ i : Fin 4, ((enterFinishing x s).ctx x).bufs[i] = ⟨none, none⟩)
    ∧ (fs, part.status) = (s.ctx x).outcome
    ∧ part.blocksOk = (s.ctx x).blocksOk ∧ part.corrected = (s.ctx x).corrected ∧ part.weak = (s.ctx x).weak
    ∧ part.startStamp = (s.ctx x).startStamp ∧ part.endStamp = s.tick
    ∧ part.firstFail = (s.ctx x).firstFailField fs ∧ part.result = (s.ctx x).resultWord s.cme.gen fs := by
  rw [enterFinishing_ctx]
  exact ⟨_, _, rfl, rfl, rfl, fun i => by simp [Context.finished, StagingBuf.free], rfl, rfl, rfl, rfl, rfl, rfl, rfl, rfl⟩

theorem resultWord_eq (c : Context) (gen : Nat) (fs : FinalState) :
    c.resultWord gen fs = (match recKind c.record with
      | .digest => if fs = .done then (~~~c.crc).setWidth 64 else 0
      | .verify => BitVec.ofNat 64 c.moveReqs
      | .relocate => if fs = .done then c.result else BitVec.allOnes 64
      | .tableRead => match c.snapGen with | some g => g ++ BitVec.ofNat 32 c.written | none => 0
      | .startPass | .stopPass => if fs = .done then c.result else 0
      | .setPatrol => if c.refusal ≠ none ∨ fs = .cancelled then 0 else BitVec.ofNat 64 gen
      | .regionDefine | .regionDelete | .regionGuard | .regionRelease | .regionFix | .lockdown => BitVec.ofNat 64 gen
      | .read | .write | .fill | .copy | .barrier | .badOp => 0) := by
  unfold Context.resultWord
  cases recKind c.record
  case setPatrol => simp only [Option.isSome_iff_ne_none]
  all_goals rfl

/-- The states of a context that leaves its state, outside HALTED (R54). -/
theorem settles_iff (c : Context) :
    c.settles ↔ (c.state = .issuing ∧ IssueOver c) ∨ c.state = .drainingSteps ∨ c.state = .commitWait := by
  rw [Context.settles, issueOver_iff]

/-- Settles O38: the final write and the decision are each one state, the settling the table of `ctxSettle`. -/
theorem finalWriteFreesTheContext : Obligations.FinalWriteFreesTheContext := by
  refine ⟨fun x s => ⟨finalWrite_ignored, fun fs part => finalWrite_frees⟩, fun x s => ?decides, fun x s =>
    ⟨ctxSettle_free, fun hh => ⟨fun hs => ?keeps, fun hs hi => ?issuing,
        fun hs => ⟨fun left => ?finishes, fun left waits hw => ?rests⟩⟩,
      fun hh hf => ⟨fun h => ?halted, fun hr left hl => ?freed⟩⟩⟩
  case decides =>
    obtain ⟨fs, part, state, final, blocks, bufs, outcome, blocksOk, corrected, weak, start, stop, first, result⟩ :=
      enterFinishing_decides x s
    have only := enterFinishing_ctxOnly x s
    have decided : ∀ {o : FinalState × Status}, (s.ctx x).outcome = o → fs = o.1 ∧ part.status = o.2 := by
      rintro o rfl
      rw [← outcome]
      exact ⟨rfl, rfl⟩
    refine ⟨fs, part, state, final, blocks, bufs, fun st hr => decided (outcome_refused hr),
      fun hr => ⟨fun ha => decided (outcome_of_abort hr ha), fun ha => ⟨fun j st hf => decided (outcome_of_failure hr ha hf),
        fun hf => ⟨fun st ho => decided (outcome_of_otherFail hr ha hf ho),
          fun ho => decided (outcome_of_success hr ha hf ho)⟩⟩⟩,
      blocksOk, corrected, weak, start, stop, fun h => first.trans (firstFailField_unset h), ?_,
      result.trans (resultWord_eq ..), only.regions, only.media, only.device, only.ctxs⟩
    rintro rfl hd
    exact ⟨fun hr => first.trans (firstFailField_refused hd hr),
      fun j st hr hf => first.trans (firstFailField_failure hd hr hf)⟩
  case keeps =>
    refine ctxSettle_stays hh fun settles => ?_
    rcases hs with hs | hs <;> simp [Context.settles, hs] at settles
  case issuing =>
    refine ctxSettle_stays hh fun settles => ?_
    rw [settles_iff] at settles
    simp [hs, hi] at settles
  case finishes => rw [ctxSettle_settles hh ((settles_iff _).mpr hs), if_pos (restState_of_nothingLeft left)]
  case rests =>
    rw [ctxSettle_settles hh ((settles_iff _).mpr hs), restState_of_left left waits hw]
    cases waits <;> rfl
  case halted =>
    rw [ctxSettle_halted hh hf, if_neg]
    rw [Bool.and_eq_true, idle_iff]
    rintro ⟨hr, left, hl⟩
    simp [hr, left, hl] at h
  case freed =>
    rw [ctxSettle_halted hh hf, if_pos (by rw [hr, idle_iff.mpr ⟨left, hl⟩]; rfl)]
    have freed := freeContext_recordsOnly x s
    exact ⟨freeContext_ctx x s, fun y hy => freeContext_ctx_other s hy, freeContext_region, freed.media, freed.device,
      freed.lanes, freed.out⟩

end Sys2Proof.Machine
end

section
/-! O28. The relocation table takes a request by the tests of R102 in order, a freed slot goes to the next request (R104, R105),
and a RELOCATE is a DIRECTED request (R47). One lemma for each branch of a take, under the tests that lead to it. -/

namespace Sys2Proof.Machine

variable {s t : State} {u : UnitId} {q : MoveReq}

/-! ### Spares and the request list (R99, R104) -/

theorem choosable_iff (r : Rlt) (k : Nat) :
    r.choosable k = true ↔ (∀ e ∈ r.table.entries, e.spare ≠ k) ∧ k ∉ r.table.dead ∧ k ∉ r.failing
      ∧ ∀ m ∈ r.moves, m.spare ≠ k := by
  simp [Rlt.choosable, UnitTable.used, Rlt.reserved, and_assoc]

theorem lowestChoosable_eq_some_iff (r : Rlt) (k : Nat) :
    r.lowestChoosable = some k ↔ k < 1024 ∧ r.choosable k = true ∧ ∀ j, j < k → r.choosable j = false := by
  rw [Rlt.lowestChoosable, List.find?_range_eq_some]
  simp [Config.spares, and_left_comm]

theorem lowestChoosable_eq_none_iff (r : Rlt) :
    r.lowestChoosable = none ↔ ∀ j, j < 1024 → r.choosable j = false := by
  simp [Rlt.lowestChoosable, Config.spares]

theorem inSlot_iff (r : Rlt) (b : Nat) : r.inSlot b = true ↔ ∃ m ∈ r.moves, m.req.src = b := by
  simp [Rlt.inSlot]

/-- The next request is the oldest whose block has no move in a slot. -/
theorem nextRequest_some {r : Rlt} (h : r.nextRequest = some q) :
    ∃ older newer, r.requests = older ++ q :: newer ∧ (∀ m ∈ r.moves, m.req.src ≠ q.src)
      ∧ ∀ p ∈ older, ∃ m ∈ r.moves, m.req.src = p.src := by
  obtain ⟨free, older, newer, split, taken⟩ := List.find?_eq_some_iff_append.mp h
  refine ⟨older, newer, split, fun m hm hs => ?_, fun p hp => ?_⟩
  · rw [(inSlot_iff r q.src).mpr ⟨m, hm, hs⟩] at free
    cases free
  · simpa [inSlot_iff] using taken p hp

theorem nextRequest_eq_none_iff (r : Rlt) :
    r.nextRequest = none ↔ ∀ p ∈ r.requests, ∃ m ∈ r.moves, m.req.src = p.src := by
  simp [Rlt.nextRequest, inSlot_iff]

/-! ### The state in which a request is taken (R117) -/

theorem raiseAtTake_eq (u : UnitId) (q : MoveReq) (s : State) :
    raiseAtTake u q s = if q.cause = .readLost ∧ q.finding = none then postDataLost u q.src 1 q.lane s else s := by
  simp only [raiseAtTake, Option.isNone_iff_eq_none]

theorem raiseAtTake_rlt (u v : UnitId) (q : MoveReq) (s : State) : (raiseAtTake u q s).rlt v = s.rlt v := by
  obtain ⟨n, e⟩ := raiseAtTake_ntuOnly u q s
  rw [e]
  rfl

theorem raiseAtTake_chan (u v : UnitId) (q : MoveReq) (s : State) : (raiseAtTake u q s).chan v = s.chan v := by
  obtain ⟨n, e⟩ := raiseAtTake_ntuOnly u q s
  rw [e]
  rfl

/-! ### The tests of R102 in order -/

theorem takeRequest_offline (h : (s.chan u).state = .offline) :
    takeRequest u q s = abandonRequest u q .unitOffline (raiseAtTake u q s) := by
  simp only [takeRequest, raiseAtTake_chan, h, if_true]

/-- A read performed on the block's present target, or a request of no read, passes the second test. -/
theorem readTarget_present (ht : ∀ target, q.readTarget = some target → target = (s.rlt u).table.target q.src) :
    q.readTarget.any (fun t => t != (s.rlt u).table.target q.src) = false := by
  cases h : q.readTarget with
  | none => rfl
  | some target => simp [ht target h]

theorem not_knownLost (hl : q.cause = .directed → ¬ LostBlock (s.rlt u) q.src) :
    ¬ (q.cause = .directed ∧ (s.rlt u).knownLost q.src = true) :=
  fun ⟨hd, hk⟩ => hl hd ((knownLost_iff _ _).mp hk)

section
variable (hc : (s.chan u).state ≠ .offline)
include hc

/-- A read performed on another target than the block's present one (R102). -/
theorem takeRequest_stale {target : Nat} (h : q.readTarget = some target) (hn : target ≠ (s.rlt u).table.target q.src) :
    takeRequest u q s = (raiseAtTake u q s, []) := by
  simp [takeRequest, raiseAtTake_chan, raiseAtTake_rlt, hc, h, hn]

variable (ht : ∀ target, q.readTarget = some target → target = (s.rlt u).table.target q.src)
include ht

theorem takeRequest_lost (hd : q.cause = .directed) (hl : LostBlock (s.rlt u) q.src) :
    takeRequest u q s = (raiseAtTake u q s, waitersEnd q.waiters fun _ => .failed .dataLost) := by
  simp [takeRequest, raiseAtTake_chan, raiseAtTake_rlt, hc, readTarget_present ht, hd, knownLost_iff, hl]

variable (hl : q.cause = .directed → ¬ LostBlock (s.rlt u) q.src)
include hl

theorem takeRequest_joinsWaiting {comp : MoveReq} (h : (s.rlt u).requests.find? (fun c => c.src == q.src) = some comp) :
    takeRequest u q s = joinWaiting u q (raiseAtTake u q s) := by
  simp only [takeRequest, raiseAtTake_chan, raiseAtTake_rlt, hc, readTarget_present ht, not_knownLost hl, if_false,
    Bool.false_eq_true, h]

variable (hr : (s.rlt u).requests.find? (fun c => c.src == q.src) = none)
include hr

theorem takeRequest_joinsStarted {comp : Move} (h : (s.rlt u).moves.find? (fun m => m.req.src == q.src) = some comp) :
    takeRequest u q s = joinStarted u q comp (raiseAtTake u q s) := by
  simp only [takeRequest, raiseAtTake_chan, raiseAtTake_rlt, hc, readTarget_present ht, not_knownLost hl, if_false,
    Bool.false_eq_true, hr, h]

theorem takeRequest_places (h : (s.rlt u).moves.find? (fun m => m.req.src == q.src) = none) :
    takeRequest u q s = placeRequest u q (raiseAtTake u q s) := by
  simp only [takeRequest, raiseAtTake_chan, raiseAtTake_rlt, hc, readTarget_present ht, not_knownLost hl, if_false,
    Bool.false_eq_true, hr, h]

end

/-! ### Combination with a companion (R103) -/

/-- A lost block's finding raises its DATA_LOST where it is combined. -/
theorem absorbLost_eq (u : UnitId) (q : MoveReq) (t : State) :
    (if q.finding.isSome then postDataLost u q.src 2 none t else t)
      = if q.finding = none then t else postDataLost u q.src 2 none t := by
  cases q.finding <;> rfl

theorem joinWaiting_weak (h : q.cause = .readWeak ∨ q.cause = .patrolWeak) :
    joinWaiting u q t = (t, q.findingReply u .absorbed) := by
  rcases h with h | h <;> simp only [joinWaiting, h]

theorem joinWaiting_readLost (h : q.cause = .readLost) :
    joinWaiting u q t = (if q.finding = none then t else postDataLost u q.src 2 none t, q.findingReply u .absorbed) := by
  simp only [joinWaiting, h, absorbLost_eq]

theorem joinWaiting_directed (h : q.cause = .directed) :
    joinWaiting u q t = (t.setRlt u { t.rlt u with
      requests := updateRequest q.src (fun c => { c with waiters := c.waiters ++ q.waiters }) (t.rlt u).requests }, []) := by
  simp only [joinWaiting, h]

theorem joinWaiting_programFail (h : q.cause = .programFail) :
    joinWaiting u q t = (t.setRlt u { t.rlt u with
      requests := updateRequest q.src (fun c => { q with waiters := c.waiters ++ q.waiters }) (t.rlt u).requests }, []) := by
  have replaced : joinWaiting u q t = (t.setRlt u { t.rlt u with
      requests := updateRequest q.src (fun c => c.replacedBy q) (t.rlt u).requests }, []) := by
    simp only [joinWaiting, h]
  exact replaced

section
variable {comp : Move}

theorem joinStarted_weak (h : q.cause = .readWeak ∨ q.cause = .patrolWeak) :
    joinStarted u q comp t = (t, q.findingReply u .absorbed) := by
  rcases h with h | h <;> simp only [joinStarted, h]

theorem joinStarted_readLost (h : q.cause = .readLost) :
    joinStarted u q comp t
      = (if q.finding = none then t else postDataLost u q.src 2 none t, q.findingReply u .absorbed) := by
  simp only [joinStarted, h, absorbLost_eq]

theorem joinStarted_directed (h : q.cause = .directed) :
    joinStarted u q comp t
      = (t.setRlt u ((t.rlt u).putMove { comp with req := { comp.req with waiters := comp.req.waiters ++ q.waiters } }),
        if comp.state = .batched then q.waiters.map (fun w => .moveBatched w.ctx w.j) else []) := by
  simp only [joinStarted, h]

theorem joinStarted_programFail (h : q.cause = .programFail) :
    joinStarted u q comp t = (t.setRlt u { t.rlt u with requests := (t.rlt u).requests ++ [q] }, []) := by
  simp only [joinStarted, h]

end

/-! ### A request without a companion (R102, tests 5 to 8; R104, R105) -/

theorem abandonRequest_unitOffline (u : UnitId) (q : MoveReq) (t : State) :
    abandonRequest u q .unitOffline t
      = (t, q.findingReply u .ended ++ waitersEnd q.waiters fun _ => .failed .unitOffline) := by
  simp [abandonRequest, AbandonCode.status]

theorem abandonRequest_noSpare (u : UnitId) (q : MoveReq) (t : State) :
    abandonRequest u q .noSpare t
      = (if q.finding.any (fun tag => tag.lost) then postDataLost u q.src 2 none t else t,
        q.findingReply u .ended
          ++ waitersEnd q.waiters fun w => .failed (if w.directed then .noSpare else .writeFailed)) := by
  simp [abandonRequest, AbandonCode.status]

/-- Without a choosable spare the request is abandoned and the slot is free again (R105, R112). -/
theorem startMove_abandons (h : (t.rlt u).lowestChoosable = none) :
    startMove u q t
      = (if q.finding.any (fun tag => tag.lost) then postDataLost u q.src 2 none t else t,
        q.findingReply u .ended
          ++ waitersEnd q.waiters (fun w => .failed (if w.directed then .noSpare else .writeFailed)) ++ [.slotFreed u]) := by
  rw [startMove_none u q t h, abandonRequest_noSpare]

theorem placeRequest_noSpare (hd : q.cause = .directed) (h : (t.rlt u).lowestChoosable = none) :
    placeRequest u q t = (t, waitersEnd q.waiters fun _ => .failed .noSpare) :=
  if_pos ⟨hd, h⟩

section
variable (hs : q.cause = .directed → (t.rlt u).lowestChoosable ≠ none)
include hs

theorem placeRequest_starts (hm : (t.rlt u).moves.length < 4) (hn : (t.rlt u).nextRequest = none) :
    placeRequest u q t = startMove u q t := by
  rw [placeRequest, if_neg fun ⟨hd, h⟩ => hs hd h, if_pos ⟨hm, hn⟩]

variable (hw : 4 ≤ (t.rlt u).moves.length ∨ (t.rlt u).nextRequest ≠ none)
include hw

/-- Without a free slot, or behind a request that could take it, a request waits or is turned away (R102, tests 7 and 8). -/
theorem placeRequest_waits :
    placeRequest u q t = if q.finding.isSome then (t, q.findingReply u .full)
      else if q.untied && (t.rlt u).untiedFull then (t, [])
      else (t.setRlt u { t.rlt u with requests := (t.rlt u).requests ++ [q] }, []) := by
  rw [placeRequest, if_neg fun ⟨hd, h⟩ => hs hd h, if_neg]
  rintro ⟨hm, hn⟩
  exact hw.elim (fun full => absurd hm (Nat.not_lt.mpr full)) (fun next => next hn)

theorem placeRequest_full (hf : q.finding ≠ none) : placeRequest u q t = (t, q.findingReply u .full) := by
  rw [placeRequest_waits hs hw, if_pos (Option.isSome_iff_ne_none.mpr hf)]

variable (hf : q.finding = none)
include hf

theorem placeRequest_discarded (hu : q.untied = true) (h8 : 8 ≤ (t.rlt u).requests.countP MoveReq.untied) :
    placeRequest u q t = (t, []) := by
  have crowded : (t.rlt u).untiedFull = true := by simpa [Rlt.untiedFull, Config.untiedPlaces] using h8
  simp [placeRequest_waits hs hw, hf, hu, crowded]

theorem placeRequest_joins (h8 : q.untied = true → (t.rlt u).requests.countP MoveReq.untied < 8) :
    placeRequest u q t = (t.setRlt u { t.rlt u with requests := (t.rlt u).requests ++ [q] }, []) := by
  have room : (q.untied && (t.rlt u).untiedFull) = false := by
    simpa [Rlt.untiedFull, Config.untiedPlaces] using h8
  simp [placeRequest_waits hs hw, hf, room]

end

/-! ### A freed slot and a start refused (R104, R105, R106, R115) -/

theorem slotFreed_full (h : 4 ≤ (s.rlt u).moves.length) : slotFreed u s = (s, []) := if_pos h

theorem slotFreed_reports (h : (s.rlt u).moves.length < 4) (hn : (s.rlt u).nextRequest = none) :
    slotFreed u s = (s, [.freeSlotReport u]) := by
  simp only [slotFreed, Config.moveSlots, Nat.not_le.mpr h, if_false, hn]

theorem slotFreed_starts (h : (s.rlt u).moves.length < 4) (hn : (s.rlt u).nextRequest = some q) :
    slotFreed u s = startMove u q (s.setRlt u { s.rlt u with requests := (s.rlt u).requests.erase q }) := by
  simp only [slotFreed, Config.moveSlots, Nat.not_le.mpr h, if_false, hn]

theorem startDropped_untied {m : Move} (h : m.req.waiters = []) :
    startDropped u m s = (s.setRlt u ((s.rlt u).dropMove m.mid), m.req.findingReport u .dropped ++ [.slotFreed u]) := by
  simp only [startDropped, h]

theorem startDropped_restarts {m : Move} {w : Waiter} {ws : List Waiter} (h : m.req.waiters = w :: ws)
    (ht : t = s.setRlt u ((s.rlt u).dropMove m.mid)) :
    startDropped u m s = ((startMove u (directedAgain s m.req.src w ws) t).1,
      m.req.findingReport u .dropped ++ (startMove u (directedAgain s m.req.src w ws) t).2) := by
  simp only [startDropped, h, ht]
  rfl

/-! ### The grant of a RELOCATE (R47, R61) -/

/-- The context of an accepted RELOCATE: its one block waits on its move. -/
theorem acceptRelocate_requests (x : CtxId) (s : State) :
    ∃ v, acceptRelocate x s
        = (v, [.moveRequest (s.unitOf (windowStart s (recRegion (s.ctx x).record) (recOffset (s.ctx x).record)))
          (directedRequest (acceptData x s) x), .closingCheck])
      ∧ CtxOnly x (acceptData x s) v ∧ (v.ctx x).phase 0 = some .awaitMove ∧ (v.ctx x).cursor = 1 := by
  obtain ⟨st, settled⟩ := ctxUpdate_working
    (c := { (acceptData x s).ctx x with cursor := 1, blocks := [⟨0, .awaitMove⟩] }) (by simp [Context.work]) x
    (acceptData x s)
  refine ⟨_, ?_, settled ▸ setCtx_ctxOnly .., ?_, ?_⟩
  · rw [acceptRelocate]
    simp only [acceptData_ctx]
  · rw [settled, ctx_setCtx_same]
    rfl
  · rw [settled, ctx_setCtx_same]

theorem relocate_granted {l : LaneId} {x : CtxId} {r : Bytes} {a : Addr} (g : Grants s l x r .relocate a)
    (h : PassesChecks s l r .relocate) :
    ∃ t q, exec .relocate s
        = .next (workOff (t, [.moveRequest (s.unitOf (windowStart s (recRegion r) (recOffset r))) q, .closingCheck]))
      ∧ q.src = s.blockOf (windowStart s (recRegion r) (recOffset r)) ∧ q.cause = .directed
      ∧ q.waiters = [⟨x, 0, true⟩] ∧ q.lane = some l ∧ q.region = some (recRegion r) ∧ q.finding = none
      ∧ q.readTarget = none
      ∧ (t.ctx x).phase 0 = some .awaitMove ∧ (t.ctx x).cursor = 1
      ∧ (t.region (recRegion r)).users = (s.region (recRegion r)).users + 1
      ∧ SameMedia s t ∧ t.out = s.out ++ grantOutputs a := by
  obtain ⟨v, only, ctx, accepted⟩ := grantRow_passes_in g h acceptRelocate
  obtain ⟨t, requests, waits, phase, cursor⟩ := acceptRelocate_requests x v
  have record : (v.ctx x).record = r := by rw [ctx]; rfl
  have lane : (v.ctx x).lane = l := by rw [ctx]; rfl
  have window : windowStart v (recRegion r) (recOffset r) = windowStart s (recRegion r) (recOffset r) := by
    simp only [windowStart, region_same only.regions]
  have data := acceptData_recordsOnly x v
  have index : recRegion r < 32 :=
    Nat.lt_succ_of_le (((step2Ok_iff ..).mp (step2Ok_of_arguments h.arguments)).region (.inl rfl))
  have users := acceptData_users (s := v) (x := x) (by rw [record, g.kind]; rfl) (by rw [record, g.kind]; nofun)
    (by rwa [record])
  rw [record] at requests users
  rw [window, State.unitOf, only.device.width] at requests
  refine ⟨t, _, exec_eq_next rfl (accepted.trans (congrArg workOff requests)), ?_, rfl, rfl, ?_, ?_, rfl, rfl, phase, cursor,
    ?_, (only.media.trans data.media).trans waits.media, (waits.out.trans data.out).trans only.out⟩
  · show State.blockOf _ _ = _
    rw [acceptData_ctx, record, window, State.blockOf, State.blockOf, data.device.width, only.device.width]
  · show some ((acceptData x v).ctx x).lane = _
    rw [acceptData_ctx, lane]
  · show some (recRegion ((acceptData x v).ctx x).record) = _
    rw [acceptData_ctx, record]
  · rw [region_same waits.regions, users, region_same only.regions]

/-- Settles O28: the tests of R102 in order, each under the tests before it. -/
theorem relocateRequestsADirectedMove : Obligations.RelocateRequestsADirectedMove := by
  refine ⟨fun s l x r a => relocate_granted, fun u q s t ht => ?take,
    fun r k => ⟨choosable_iff r k, lowestChoosable_eq_some_iff r k, lowestChoosable_eq_none_iff r⟩,
    fun r q => nextRequest_some, nextRequest_eq_none_iff,
    fun u m s t ht => ⟨fun hw => ?untied, fun w ws hw => ⟨fun hn => ?noSpare, fun k hk => ?restarts⟩⟩,
    fun q u answer res => ⟨rfl, rfl⟩, fun u s => slotFreed_full,
    fun u s hm => ⟨slotFreed_reports hm, fun q t hq hn ht => ?abandoned, fun q k hq hk => ?next⟩⟩
  case take =>
    rw [← raiseAtTake_eq] at ht
    have rlt : t.rlt u = s.rlt u := by rw [ht, raiseAtTake_rlt]
    refine ⟨fun hc => ?offline, fun hc => ⟨fun target h hn => ?stale, fun hr => ⟨fun hd hl => ?lost,
      fun hl => ⟨fun comp h => ?waiting, fun h => ⟨fun comp hm => ?started, fun hm => ?placed⟩⟩⟩⟩⟩
    case offline => rw [ht, ← abandonRequest_unitOffline]; exact takeRequest_offline hc
    case stale => rw [ht]; exact takeRequest_stale hc h hn
    case lost => rw [ht]; exact takeRequest_lost hc hr hd hl
    case waiting =>
      have joins : handle (.moveRequest u q) s = joinWaiting u q t := by
        rw [ht]
        exact takeRequest_joinsWaiting hc hr hl h
      rw [joins]
      exact ⟨joinWaiting_weak, joinWaiting_readLost, joinWaiting_directed, joinWaiting_programFail⟩
    case started =>
      have joins : handle (.moveRequest u q) s = joinStarted u q comp t := by
        rw [ht]
        exact takeRequest_joinsStarted hc hr hl h hm
      rw [joins]
      exact ⟨joinStarted_weak, joinStarted_readLost, joinStarted_directed, joinStarted_programFail⟩
    case placed =>
      have places : handle (.moveRequest u q) s = placeRequest u q t := by
        rw [ht]
        exact takeRequest_places hc hr hl h hm
      rw [places, ← rlt]
      refine ⟨placeRequest_noSpare, fun hm hn => ⟨fun k hk => ?_, fun hd hk => ?_⟩,
        fun hw hs => ⟨placeRequest_full hs hw, placeRequest_discarded hs hw, placeRequest_joins hs hw⟩⟩
      · rw [placeRequest_starts (fun _ => by rw [hk]; nofun) hm hn, startMove_some u q t hk]
      · rw [placeRequest_starts (fun h => absurd h hd) hm hn, startMove_abandons hk]
  case untied => rw [ht]; exact startDropped_untied hw
  case noSpare =>
    rw [startDropped_restarts hw ht, startMove_abandons hn]
    simp [directedAgain, MoveReq.findingReply]
  case restarts => rw [startDropped_restarts hw ht, startMove_some u _ t hk]; rfl
  case abandoned =>
    refine (slotFreed_starts hm hq).trans ?_
    rw [← ht, startMove_abandons]
    rw [ht, rlt_setRlt_same]
    exact hn
  case next =>
    refine (slotFreed_starts hm hq).trans ?_
    rw [startMove_some (k := k), rlt_setRlt_same, setRlt_setRlt]
    rw [rlt_setRlt_same]
    exact hk

end Sys2Proof.Machine
end

section
/-! O23. The dispatch arbiter's choice (R55 to R57): when a lane is eligible, which lane the walk from the pointer grants with which
credits, and which context takes the record. -/

namespace Sys2Proof.Machine

variable {s : State} {l : LaneId} {x : CtxId} {r : Bytes}

/-! ### Eligible lanes (R55, R56) -/

theorem fenceAllows_iff (k : Lane) :
    k.fenceAllows = true ↔ ((∃ r ∈ k.window, r.cond = .staged ∧ r.fence = true) →
        ∀ r ∈ k.window, r.granted = true → r.isFinal = true)
      ∧ ∀ r ∈ k.window, r.granted = true → r.isFinal = false → r.fence = false := by
  have staged : (k.window.any fun r => r.cond == .staged && r.fence) = true
      ↔ ∃ r ∈ k.window, r.cond = .staged ∧ r.fence = true := by
    simp
  have busy : (k.window.filter fun r => r.granted && !r.isFinal).isEmpty = true
      ↔ ∀ r ∈ k.window, r.granted = true → r.isFinal = true := by
    simp
  have fences : ((k.window.filter fun r => r.granted && !r.isFinal).any WinRec.fence) = false
      ↔ ∀ r ∈ k.window, r.granted = true → r.isFinal = false → r.fence = false := by
    simp
  rw [Lane.fenceAllows, Bool.and_eq_true, Bool.or_eq_true, Bool.not_eq_true', Bool.not_eq_true', fences, busy,
    ← Bool.not_eq_true, staged, ← imp_iff_not_or]

theorem eligible_iff (s : State) (l : LaneId) :
    eligible s l = true ↔ (s.lane l).state = .staged ∧ (s.lane l).staged.isSome = true ∧ s.dev.state = .running
      ∧ (s.lane l).dispatched < s.dar.cap[l]
      ∧ ((∃ r ∈ (s.lane l).window, r.cond = .staged ∧ r.fence = true) →
          ∀ r ∈ (s.lane l).window, r.granted = true → r.isFinal = true)
      ∧ ∀ r ∈ (s.lane l).window, r.granted = true → r.isFinal = false → r.fence = false := by
  simp only [eligible, Bool.and_eq_true, beq_iff_eq, decide_eq_true_eq, fenceAllows_iff, and_assoc]

/-! ### The lane granted (R57) -/

/-- The walk from any lane meets every lane. -/
theorem mem_walkFrom (p l : LaneId) : l ∈ walkFrom p := by revert p l; decide

/-- The credits of a grant: those left, or the weights when no eligible lane has one left. -/
theorem grantCredits_cases (s : State) :
    grantCredits s = s.dar.credit ∨ (grantCredits s = s.dar.weight ∧ ∀ k, eligible s k = true → s.dar.credit[k] = 0) := by
  unfold grantCredits
  split
  · exact .inl rfl
  · next none_left =>
    refine .inr ⟨rfl, fun k hk => ?_⟩
    simp only [List.any_eq_true, not_exists, not_and] at none_left
    simpa [hk] using none_left k (mem_four k)

/-- Some eligible lane has credit, the weights being at least 1. -/
theorem credit_left (hl : eligible s l = true) (hw : ∀ k : LaneId, 1 ≤ s.dar.weight[k]) :
    ∃ k, eligible s k = true ∧ 0 < (grantCredits s)[k] := by
  by_cases left : four.any (fun k => eligible s k && decide (0 < s.dar.credit[k])) = true
  · have credits : grantCredits s = s.dar.credit := if_pos left
    rw [credits]
    simpa [mem_four] using left
  · have credits : grantCredits s = s.dar.weight := if_neg left
    rw [credits]
    exact ⟨l, hl, hw l⟩

theorem grantLane_isSome (h : ∃ k, eligible s k = true ∧ 0 < (grantCredits s)[k]) : ∃ k, grantLane s = some k := by
  obtain ⟨k, hk, hc⟩ := h
  exact Option.isSome_iff_exists.mp (List.find?_isSome.mpr ⟨k, mem_walkFrom _ k, by simpa [hk] using hc⟩)

theorem grantLane_eligible (h : grantLane s = some l) : eligible s l = true ∧ 0 < (grantCredits s)[l] := by
  simpa using List.find?_some h

/-- The walk passed over every lane it met before the one granted. -/
theorem grantLane_first (h : grantLane s = some l) (i : Nat) (k : LaneId) (hk : (walkFrom s.dar.pointer)[i]? = some k)
    (before : ∀ j, j ≤ i → (walkFrom s.dar.pointer)[j]? ≠ some l) : eligible s k = false ∨ (grantCredits s)[k] = 0 := by
  obtain ⟨-, as, bs, walk, passed⟩ := List.find?_eq_some_iff_append.mp h
  have met : i < as.length := by
    by_contra! later
    exact before as.length later (by simp [walk])
  have mem : k ∈ as := by
    rw [walk, List.getElem?_append_left met] at hk
    exact List.mem_of_getElem? hk
  simpa [imp_iff_not_or] using passed k mem

/-! ### The context granted (R57) -/

theorem mem_eight (x : CtxId) : x ∈ eight := by revert x; decide

theorem eight_sorted : eight.Pairwise (· < ·) := by decide

theorem freeCtx_isSome (h : (s.ctx x).state = .free) : ∃ y, freeCtx s = some y :=
  Option.isSome_iff_exists.mp (List.find?_isSome.mpr ⟨x, mem_eight x, by simp [h]⟩)

theorem freeCtx_eq_none (h : ∀ x, (s.ctx x).state ≠ .free) : freeCtx s = none :=
  List.find?_eq_none.mpr fun x _ => by simp [h x]

/-- What is found in an ascending list is the lowest of it. -/
theorem find?_lowest {n : Nat} {xs : List (Fin n)} (sorted : xs.Pairwise (· < ·)) {q : Fin n → Bool} {y : Fin n}
    (h : xs.find? q = some y) : ∀ z ∈ xs, z < y → q z = false := by
  obtain ⟨-, as, bs, rfl, passed⟩ := List.find?_eq_some_iff_append.mp h
  intro z mem hz
  rcases List.mem_append.mp mem with before | after
  · simpa using passed z before
  · rcases List.mem_cons.mp after with rfl | after
    · exact absurd hz (lt_irrefl _)
    · exact absurd (List.rel_of_pairwise_cons (List.pairwise_append.mp sorted).2.1 after) hz.asymm

/-- The first FREE context of the ascending list is the lowest one. -/
theorem freeCtx_lowest (h : freeCtx s = some x) :
    (s.ctx x).state = .free ∧ ∀ y, y < x → (s.ctx y).state ≠ .free := by
  refine ⟨by simpa using List.find?_some h, fun y hy => ?_⟩
  simpa using find?_lowest eight_sorted h y (mem_eight y) hy

/-! ### The grant -/

theorem grantOf_eq_some_iff :
    grantOf s = some (l, x, r) ↔ grantLane s = some l ∧ freeCtx s = some x ∧ (s.lane l).staged = some r := by
  unfold grantOf
  cases grantLane s with
  | none => simp
  | some k =>
    cases freeCtx s with
    | none => simp
    | some y =>
      simp only [Option.map_eq_some_iff, Prod.mk.injEq, Option.some.injEq]
      constructor
      · rintro ⟨r, staged, rfl, rfl, rfl⟩
        exact ⟨rfl, rfl, staged⟩
      · rintro ⟨rfl, rfl, staged⟩
        exact ⟨r, staged, rfl, rfl, rfl⟩

theorem grantOf_eq_none (h : grantLane s = none ∨ freeCtx s = none) : grantOf s = none := by
  unfold grantOf
  rcases h with h | h <;> rw [h]
  cases grantLane s <;> rfl

/-- Settles O23: the walk (`grantLane_eligible`, `grantLane_first`, `grantCredits_cases`) and the context (`freeCtx_lowest`). -/
theorem arbiterGrantsFirstEligibleInRotation : Obligations.ArbiterGrantsFirstEligibleInRotation := by
  refine ⟨eligible_iff, fun s l x hl hx hw => ?made, fun s h => ?notMade, fun s l x r h => ?parts, fun s l h => ?lane⟩
  case made =>
    obtain ⟨k, hk⟩ := grantLane_isSome (credit_left hl hw)
    obtain ⟨y, hy⟩ := freeCtx_isSome hx
    obtain ⟨-, staged, -⟩ := (eligible_iff s k).mp (grantLane_eligible hk).1
    obtain ⟨r, hr⟩ := Option.isSome_iff_exists.mp staged
    exact ⟨k, y, r, grantOf_eq_some_iff.mpr ⟨hk, hy, hr⟩⟩
  case notMade =>
    refine grantOf_eq_none (h.imp (fun none_eligible => ?_) freeCtx_eq_none)
    exact Option.eq_none_iff_forall_ne_some.mpr fun l hl => by simpa [none_eligible l] using grantLane_eligible hl
  case parts =>
    obtain ⟨hl, hx, hr⟩ := grantOf_eq_some_iff.mp h
    exact ⟨hl, hr, freeCtx_lowest hx⟩
  case lane =>
    obtain ⟨hl, hc⟩ := grantLane_eligible h
    obtain ⟨-, -, running, -⟩ := (eligible_iff s l).mp hl
    exact ⟨hl, hc, grantLane_first h, grantCredits_cases s, running, fun x => freeCtx_lowest⟩

end Sys2Proof.Machine
end

section
/-! O24. What every grant row does, whatever becomes of its record: nothing the check order, an accepted operation or its internal
effects do reaches the arbiter, the lanes or the device's registers but for the lockdown flag (R57, R59, R164). -/

namespace Sys2Proof.Machine

variable {α : Type} {p : State → α} {k : OpKind} {s : State} {l : LaneId} {x : CtxId} {r : Bytes} {a : Addr}

/-! ### The operation of each row -/

/-- What a record of operation `k` does once accepted (chapter 2). -/
def acceptOf : OpKind → CtxId → State → Eff
  | .read | .write | .fill | .copy | .verify | .digest => acceptBlocks
  | .relocate => acceptRelocate
  | .barrier => acceptBarrier
  | .tableRead => acceptTableRead
  | .startPass => acceptStartPass
  | .stopPass => acceptStopPass
  | .setPatrol => acceptSet
  | .regionDefine => acceptRegionOp .regionDefine
  | .regionDelete => acceptRegionOp .regionDelete
  | .regionGuard => acceptRegionOp .regionGuard
  | .regionRelease => acceptRegionOp .regionRelease
  | .regionFix => acceptRegionOp .regionFix
  | .lockdown => acceptLockdown
  | .badOp => acceptNothing

theorem exec_grantCommand_acceptOf (k : OpKind) (s : State) :
    exec (grantCommand k) s = .next (grantRow k (acceptOf k) s) := by cases k <;> rfl

/-- A row whose operation is not that of the record the DAR would grant does not occur (log entry 2). -/
theorem grantRow_other {accept : CtxId → State → Eff} (h : ∀ l x r, grantOf s = some (l, x, r) → recKind r ≠ k) :
    grantRow k accept s = s := by
  unfold grantRow
  split
  · next l x r granted => exact if_neg (h l x r granted)
  · rfl

/-! ### What an accepted record's own updates leave -/

theorem acceptBlocks_frame (hp : BlockFrame p) (x : CtxId) (s : State) : p (acceptBlocks x s).1 = p s :=
  (hp.ctx _ _ _).trans (raiseUsers_frame hp _ _)

theorem acceptRelocate_frame (hp : BlockFrame p) (x : CtxId) (s : State) : p (acceptRelocate x s).1 = p s := by
  unfold acceptRelocate
  dsimp only
  rw [ctxUpdate_frame hp]
  exact acceptBlocks_frame hp x s

theorem acceptTableRead_frame (hp : BlockFrame p) (x : CtxId) (s : State) : p (acceptTableRead x s).1 = p s :=
  (hp.emit _ _).trans ((ctxUpdate_frame hp _ _ _).trans (hp.ctx _ _ _))

theorem acceptStartPass_frame (hp : BlockFrame p) (x : CtxId) (s : State) : p (acceptStartPass x s).1 = p s :=
  (enterFinishing_frame hp _ _).trans ((hp.ctx _ _ _).trans (startPass_frame hp s))

theorem acceptStopPass_frame (hp : BlockFrame p) (x : CtxId) (s : State) : p (acceptStopPass x s).1 = p s := by
  unfold acceptStopPass
  split
  · exact (hp.patrol _ _).trans (hp.ctx _ _ _)
  · exact (enterFinishing_frame hp _ _).trans (hp.ctx _ _ _)

theorem acceptRegionOp_frame (hp : BlockFrame p) (k : OpKind) (x : CtxId) (s : State) : p (acceptRegionOp k x s).1 = p s := by
  cases h : opNoChange s k (s.ctx x).record
  · rw [acceptRegionOp_pending h]
    exact (hp.ctx _ _ _).trans (hp.region _ _ _)
  · rw [acceptRegionOp_unchanged h]
    exact enterFinishing_frame hp _ _

/-- An accepted record changes contexts, regions, patrol and links alone, and LOCKDOWN its flag. -/
theorem acceptOf_frame (hp : BlockFrame p) (hl : k = .lockdown → ∀ t b, p { t with lockdown := b } = p t) (x : CtxId)
    (s : State) : p (acceptOf k x s).1 = p s := by
  cases k with
  | read | write | fill | copy | verify | digest => exact acceptBlocks_frame hp x s
  | relocate => exact acceptRelocate_frame hp x s
  | barrier | badOp => exact enterFinishing_frame hp x s
  | tableRead => exact acceptTableRead_frame hp x s
  | startPass => exact acceptStartPass_frame hp x s
  | stopPass => exact acceptStopPass_frame hp x s
  | setPatrol => exact (patrolSet_frame hp _ _).trans (hp.ctx _ _ _)
  | regionDefine | regionDelete | regionGuard | regionRelease | regionFix => exact acceptRegionOp_frame hp _ x s
  | lockdown => exact (enterFinishing_frame hp _ _).trans (hl rfl _ _)

/-! ### What the check order and the internal effects leave -/

theorem refuseRecord_frame (hp : BlockFrame p) (x : CtxId) (st : Status) (s : State) : p (refuseRecord x st s) = p s :=
  (enterFinishing_frame hp _ _).trans (hp.ctx _ _ _)

theorem checkRecord_frame (hp : BlockFrame p) {accept : CtxId → State → Eff} (ha : ∀ t, p (accept x t).1 = p t) (s : State) :
    p (checkRecord k accept x s).1 = p s := by
  unfold checkRecord
  dsimp only
  split
  · exact refuseRecord_frame hp _ _ _
  · split
    · exact (hp.emit _ _).trans (hp.ctx _ _ _)
    · unfold checkAccess
      dsimp only
      split
      · exact (refuseRecord_frame hp _ _ _).trans (hp.ctx _ _ _)
      · exact (ha _).trans (hp.ctx _ _ _)

theorem Grants.running (g : Grants s l x r k a) : s.dev.state = .running := by
  obtain ⟨granted, -, -⟩ := grantOf_eq_some_iff.mp g.grant
  obtain ⟨-, -, running, -⟩ := (eligible_iff s l).mp (grantLane_eligible granted).1
  exact running

/-- A part of the state that the internal effects leave is after the row as the grant itself has left it: a grant is made in
RUNNING, so the probe is over. -/
theorem grantRow_frame (g : Grants s l x r k a) (hp : CascadeFrame p) (hc : ∀ (t : State) (c : Cme), p (t.setCme c) = p t)
    (hl : k = .lockdown → ∀ t b, p { t with lockdown := b } = p t) :
    p (grantRow k (acceptOf k) s) = p (takeGrant l x r s) := by
  have checked : ∀ {β : Type} {q : State → β}, BlockFrame q → (k = .lockdown → ∀ t b, q { t with lockdown := b } = q t) →
      q (checkRecord k (acceptOf k) x (takeGrant l x r s)).1 = q (takeGrant l x r s) :=
    fun hq hl => checkRecord_frame hq (acceptOf_frame hq hl x) _
  have probed : (checkRecord k (acceptOf k) x (takeGrant l x r s)).1.dev.state ≠ .probing := by
    rw [checked cascadeFrame_dev.toBlockFrame fun _ _ _ => rfl, (takeGrant_grantedOnly x r g.addr).device.dev, g.running]
    nofun
  rw [grantRow_taken g, workOff_after_probe hp hc _ probed, checked hp.toBlockFrame hl]

/-- Arbiter, lanes and the device's registers but for the lockdown flag. -/
def State.besideRecords (s : State) : Vector Lane 4 × Dar × Device × Nat × Tick × Addr × Settings :=
  (s.lanes, s.dar, s.dev, s.width, s.tick, s.anchor, s.settings)

theorem cascadeFrame_besideRecords : CascadeFrame State.besideRecords :=
  ⟨⟨fun _ _ _ => rfl, fun _ _ => rfl, fun _ _ _ => rfl, fun _ _ => rfl, fun _ _ _ => rfl, fun _ _ => rfl,
    fun _ _ => rfl, fun s d => by simp [State.besideRecords]⟩, fun _ _ _ => rfl, fun _ _ _ => rfl⟩

/-- Settles O24: the row leaves beside the records what the grant itself leaves (`grantRow_frame`, `takeGrant_taken`). -/
theorem grantTakesTheStagedRecord : Obligations.GrantTakesTheStagedRecord := by
  refine ⟨fun k s l x r a g => ?_, fun k s h => exec_eq_next (exec_grantCommand_acceptOf k s) (grantRow_other h)⟩
  have only := takeGrant_grantedOnly (s := s) x r g.addr
  have same := grantRow_frame g cascadeFrame_besideRecords (fun _ _ => rfl) fun _ _ _ => rfl
  simp only [State.besideRecords, Prod.mk.injEq] at same
  obtain ⟨lanes, dar, dev, width, tick, anchor, settings⟩ := same
  exact ⟨_, exec_grantCommand_acceptOf k s, only.taken.of_same lanes dar, dev.trans only.device.dev,
    width.trans only.device.width, tick.trans only.device.tick, anchor.trans only.device.anchor,
    settings.trans only.device.settings, fun unlocked =>
      (grantRow_frame g cascadeFrame_lockdown (fun _ _ => rfl) fun h => absurd h unlocked).trans only.device.lockdown⟩

end Sys2Proof.Machine
end

section
/-! O26. An accepted data record: its context, and the users counts of its regions (R9, R21, R59). -/

namespace Sys2Proof.Machine

variable {k : OpKind} {s : State} {x : CtxId} {r : Bytes}

theorem raiseUsers_ctx (is : List Nat) (s : State) (y : CtxId) : (raiseUsers is s).ctx y = s.ctx y :=
  forEach_frame (p := fun t => t.ctx y) (fun j t => t.setRegion j { t.region j with users := (t.region j).users + 1 })
    (fun _ _ => rfl) is s

theorem acceptData_ctx_other (s : State) {y : CtxId} (h : y ≠ x) : (acceptData x s).ctx y = s.ctx y :=
  (ctx_setCtx_other _ x y _ h).trans (raiseUsers_ctx ..)

/-- The regions a record that passes step 2 uses are in the table (R28). -/
theorem usedRegions_lt (h : step2Ok s k r = true) : ∀ i ∈ usedRegions k r, i < 32 := by
  have args := (step2Ok_iff s k r).mp h
  intro i hi
  unfold usedRegions at hi
  split_ifs at hi with copy same data
  · have source := args.region (.inl (by rw [copy]; rfl))
    rw [List.mem_singleton.mp hi]
    omega
  · have source := args.region (.inl (by rw [copy]; rfl))
    obtain ⟨destination, -⟩ := args.copy copy
    rcases List.mem_pair.mp hi with rfl | rfl <;> omega
  · have source := args.region (.inl data)
    rw [List.mem_singleton.mp hi]
    omega
  · exact absurd hi List.not_mem_nil

/-- With all listed regions in the table the users counts rise at every index, those beyond it included. -/
theorem raiseUsers_region_all {is : List Nat} (hn : is.Nodup) (hi : ∀ i ∈ is, i < 32) (s : State) (i : Nat) :
    (raiseUsers is s).region i = { s.region i with users := (s.region i).users + (if i ∈ is then 1 else 0) } := by
  rcases lt_or_ge i 32 with small | large
  · exact raiseUsers_region is hn s i small
  · rw [region_of_ge _ large, region_of_ge _ large, if_neg fun mem => absurd (hi i mem) large.not_gt]
    rfl

theorem windowStart_same {t : State} (h : t.regions = s.regions) (i offset : Nat) :
    windowStart t i offset = windowStart s i offset := by
  simp only [windowStart, region_same h]

/-- The six operations that take their blocks one by one (R61). -/
theorem acceptOf_blocks (h : k = .read ∨ k = .write ∨ k = .fill ∨ k = .copy ∨ k = .verify ∨ k = .digest) :
    acceptOf k = acceptBlocks := by
  rcases h with rfl | rfl | rfl | rfl | rfl | rfl <;> rfl

/-- Settles O26: the record is accepted in a state in which only its grant has happened, and its acceptance changes its context
(`acceptData_ctx`) and the users counts (`raiseUsers_region_all`). -/
theorem dataRecordIsAccepted : Obligations.DataRecordIsAccepted := by
  intro k s l x r a hk g h
  obtain ⟨u, only, ctx, accepted⟩ := grantRow_passes_in g h acceptBlocks
  have row : exec (grantCommand k) s = .next (grantRow k acceptBlocks s) :=
    acceptOf_blocks hk ▸ exec_grantCommand_acceptOf k s
  have step2 := step2Ok_of_arguments h.arguments
  have records := acceptData_recordsOnly x u
  have record : (u.ctx x).record = r := by rw [ctx]; rfl
  have accepts := acceptData_ctx x u
  rw [record, g.kind, windowStart_same only.regions, windowStart_same only.regions, ctx] at accepts
  refine ⟨acceptData x u, exec_eq_next row (accepted.trans (workOff_none _)), only.taken.of_same records.lanes records.dar,
    by rw [accepts], by rw [accepts]; rfl, by rw [accepts]; rfl, by rw [accepts]; rfl, by rw [accepts]; rfl,
    by rw [accepts]; rfl, by rw [accepts]; rfl, by rw [accepts]; rfl, by rw [accepts]; rfl, by rw [accepts]; rfl,
    by rw [accepts], by rw [accepts], by rw [accepts]; rfl, fun y hy => (acceptData_ctx_other u hy).trans (only.ctxs y hy),
    fun i => ?users, only.media.trans records.media, only.device.trans records.device, records.ntu.trans only.ntu,
    records.out.trans only.out⟩
  case users =>
    rw [acceptData, setCtx_region, record, g.kind, raiseUsers_region_all (usedRegions_nodup k r) (usedRegions_lt step2),
      region_same only.regions]

end Sys2Proof.Machine
end

section
/-! O36. TAKE_BLOCK: the context with its next block taken, the step or access that goes out, and the block that fails before any
does (R61, R62). -/

namespace Sys2Proof.Machine

variable {s : State} {x : CtxId} {c : Context} {i : Fin 4} {j : Nat}

/-! ### Settling (R54, R70) -/

theorem restState_cases (c : Context) :
    c.restState = .finishing ∨ c.restState = .commitWait ∨ c.restState = .drainingSteps := by
  unfold Context.restState
  split_ifs <;> simp

/-- The state that fits what remains still fits once it is taken. -/
theorem restState_restState (c : Context) : ({ c with state := c.restState } : Context).restState = c.restState := by
  unfold Context.restState Context.work
  split_ifs <;> simp_all

/-- A context that has settled has no more to settle. -/
theorem ctxSettle_ctxSettle (x : CtxId) (s : State) : ctxSettle x (ctxSettle x s) = ctxSettle x s := by
  by_cases hf : (s.ctx x).state = .free
  · rw [ctxSettle_free hf, ctxSettle_free hf]
  by_cases hh : s.dev.state = .halted
  · rw [ctxSettle_halted hh hf]
    split
    · exact ctxSettle_free (by rw [freeContext_ctx]; rfl)
    · next work => rw [ctxSettle_halted hh hf, if_neg work]
  by_cases hs : (s.ctx x).settles
  · rw [ctxSettle_settles hh hs]
    split
    · refine ctxSettle_stays hh ?_
      rw [enterFinishing_ctx]
      simp [Context.settles, Context.finished]
    · next rest =>
      have settles : ({ s.ctx x with state := (s.ctx x).restState } : Context).settles :=
        .inr (((restState_cases _).resolve_left rest).symm)
      refine (ctxSettle_settles (s := s.setCtx x _) hh (by rwa [ctx_setCtx_same])).trans ?_
      rw [ctx_setCtx_same, restState_restState, if_neg rest, setCtx_setCtx]
  · rw [ctxSettle_stays hh hs, ctxSettle_stays hh hs]

/-! ### The lowest free buffer (R62) -/

theorem four_sorted : four.Pairwise (· < ·) := by decide

theorem freeBuffer_isSome_iff (c : Context) : c.freeBuffer.isSome = true ↔ ∃ i : Fin 4, (c.bufs[i]).bound = none := by
  simp [Context.freeBuffer, mem_four]

theorem freeBuffer_lowest (free : (c.bufs[i]).bound = none) (lower : ∀ k : Fin 4, k < i → (c.bufs[k]).bound ≠ none) :
    c.freeBuffer = some i := by
  obtain ⟨k, hk⟩ := Option.isSome_iff_exists.mp ((freeBuffer_isSome_iff c).mpr ⟨i, free⟩)
  have found : (c.bufs[k]).bound = none := by simpa using List.find?_some hk
  have passed : ¬ i < k := fun hi => by
    simpa using (find?_lowest four_sorted hk i (mem_four i) hi).symm.trans (congrArg Option.isNone free)
  have first : ¬ k < i := fun hi => lower k hi found
  rw [hk, le_antisymm (not_lt.mp first) (not_lt.mp passed)]

/-! ### When a block may be taken -/

theorem canTakeBlock_iff (s : State) (x : CtxId) :
    canTakeBlock s x = true ↔ s.dev.state ≠ .halted ∧ (s.ctx x).state = .issuing
      ∧ recKind (s.ctx x).record ≠ .tableRead ∧ (s.ctx x).cursor < recCount (s.ctx x).record ∧ (s.ctx x).failure = none
      ∧ (s.ctx x).abortMark = false ∧ (∃ i : Fin 4, ((s.ctx x).bufs[i]).bound = none) ∧ (s.ctx x).outstandingSteps < 4 := by
  simp only [canTakeBlock, State.halted, Bool.and_eq_true, Bool.not_eq_true', beq_eq_false_iff_ne, beq_iff_eq, bne_iff_ne,
    decide_eq_true_eq, Option.isNone_iff_eq_none, freeBuffer_isSome_iff, Config.maxOutstanding, and_assoc]

theorem takeBlock_ignored (h : canTakeBlock s x = false) : exec (.takeBlock x) s = .next s := by
  show (.next _ : Res) = _
  simp [h]

theorem takeBlock_runs (h : canTakeBlock s x = true) {t : State} {ms : List Msg} (e : takeBlock x s = (t, ms)) :
    exec (.takeBlock x) s = .next (runEvent (ctxSettle x t, ms)) := by
  show (.next _ : Res) = _
  simp [h, e]

/-! ### The context with its block taken (R61, R62) -/

theorem take_eq (h : c.freeBuffer = some i) (p : BlockPhase) (data : Option Bytes) :
    c.take p data = { c with
      bufs := c.bufs.set i ⟨some c.cursor, data⟩, cursor := c.cursor + 1, blocks := c.blocks ++ [⟨c.cursor, p⟩] } := by
  simp only [Context.take, Context.bind, h]

theorem take_phase_ne_none (c : Context) (p : BlockPhase) (data : Option Bytes) : (c.take p data).phase c.cursor ≠ none := by
  simp [Context.phase, Context.take]

theorem take_phase_other (c : Context) (p : BlockPhase) (data : Option Bytes) (h : j ≠ c.cursor) :
    (c.take p data).phase j = c.phase j := by
  simp [Context.phase, Context.take, List.find?_append, h.symm]

theorem setPhase_phase_other (c : Context) (p : BlockPhase) {k : Nat} (h : k ≠ j) : (c.setPhase j p).phase k = c.phase k := by
  simp only [Context.phase, Context.setPhase, List.find?_map]
  have same : (fun b : BlockEntry => b.j == k) ∘ (fun b => if b.j = j then ⟨j, p⟩ else b) = fun b => b.j == k := by
    funext b
    by_cases hb : b.j = j <;> simp [hb]
  rw [same]
  cases hf : c.blocks.find? (fun b => b.j == k) with
  | none => rfl
  | some b =>
    have hb : b.j = k := by simpa using List.find?_some hf
    simp [hb, h]

/-- The context with its next block taken and that block's step outstanding. -/
def Context.takeStep (c : Context) (cmd : StepCmd) (data : Option Bytes) : Context :=
  (c.take (.outstanding cmd) data).setPhase c.cursor (.outstanding cmd)

theorem takeStep_phase (c : Context) (cmd : StepCmd) (data : Option Bytes) :
    (c.takeStep cmd data).phase c.cursor = some (.outstanding cmd) := setPhase_phase _ (take_phase_ne_none c _ data)

theorem takeStep_phase_other (c : Context) (cmd : StepCmd) (data : Option Bytes) (h : j ≠ c.cursor) :
    (c.takeStep cmd data).phase j = c.phase j := (setPhase_phase_other _ _ h).trans (take_phase_other _ _ _ h)

theorem takeStep_bufs (h : c.freeBuffer = some i) (cmd : StepCmd) (data : Option Bytes) :
    (c.takeStep cmd data).bufs = c.bufs.set i ⟨some c.cursor, data⟩ := congrArg Context.bufs (take_eq h (.outstanding cmd) data)

/-- The buffer of a block that fails as it is taken is free again, and any other bound to it. -/
theorem take_failBlock_bufs (h : c.freeBuffer = some i) (p : BlockPhase) (data : Option Bytes) (st : Status) (k : Fin 4) :
    ((c.take p data).failBlock c.cursor st).bufs[k]
      = if k = i ∨ (c.bufs[k]).bound = some c.cursor then ⟨none, none⟩ else c.bufs[k] := by
  have taken : (c.take p data).bufs[k] = if k = i then ⟨some c.cursor, data⟩ else c.bufs[k] := by
    rw [take_eq h]
    simp [Vector.getElem_set, Fin.ext_iff, eq_comm]
  refine (endBlock_bufs _ _ k).trans ?_
  rw [taken]
  by_cases hk : k = i <;> simp [hk, StagingBuf.free]

theorem take_failBlock_failure (h : c.freeBuffer = some i) (hf : c.failure = none) (p : BlockPhase) (data : Option Bytes)
    (st : Status) : ((c.take p data).failBlock c.cursor st).failure = some (c.cursor, st) := by
  rw [take_eq h]
  simp [Context.failBlock, hf, lowerFailure]

/-! ### What goes out for it (R44, R45, R61, R71) -/

theorem takeBlock_write (hk : recKind (s.ctx x).record = .write) (ho : nextUnitOffline s x = false) :
    takeBlock x s = ((s.setCtx x ((s.ctx x).take .hostRead none)).emit
      (pieceReads ((s.ctx x).pieces (s.ctx x).cursor)), []) := by
  simp [takeBlock, hk, ho]

theorem takeBlock_write_offline (hk : recKind (s.ctx x).record = .write) (ho : nextUnitOffline s x = true) :
    takeBlock x s = (s.setCtx x (((s.ctx x).take .hostRead none).failBlock (s.ctx x).cursor .unitOffline), []) := by
  simp [takeBlock, hk, ho]

theorem takeBlock_reads (hk : recKind (s.ctx x).record = .read ∨ recKind (s.ctx x).record = .verify
      ∨ recKind (s.ctx x).record = .digest ∨ recKind (s.ctx x).record = .copy) :
    takeBlock x s = (s.setCtx x ((s.ctx x).takeStep .read none), [.foregroundArrives x (s.ctx x).cursor .read]) := by
  rcases hk with hk | hk | hk | hk <;> simp [takeBlock, hk, issueStep, Context.takeStep]

theorem takeBlock_fill (hk : recKind (s.ctx x).record = .fill) :
    takeBlock x s = issueProgram x (s.ctx x).cursor (fillCommand (s.ctx x).record)
      (s.setCtx x ((s.ctx x).take (.outstanding (fillCommand (s.ctx x).record)) (some (fillData (s.ctx x).record)))) := by
  simp [takeBlock, hk]

section
variable (hk : recKind (s.ctx x).record = .fill) (h : (s.ctx x).freeBuffer = some i)
include hk h

/-- The record and the refusal mark the test of R23 reads are those before the block was taken. -/
theorem take_fill_tests (p : BlockPhase) (data : Option Bytes) :
    writeRegion ((s.ctx x).take p data).record = recRegion (s.ctx x).record
      ∧ ((s.ctx x).take p data).stepRefused = (s.ctx x).stepRefused := by
  rw [take_eq h]
  exact ⟨if_neg (by rw [hk]; nofun), rfl⟩

theorem takeBlock_fill_issues (hw : (s.region (recRegion (s.ctx x).record)).writable = true)
    (hr : (s.ctx x).stepRefused = false) :
    takeBlock x s = (s.setCtx x ((s.ctx x).takeStep (fillCommand (s.ctx x).record) (some (fillData (s.ctx x).record))),
      [.foregroundArrives x (s.ctx x).cursor (fillCommand (s.ctx x).record)]) := by
  obtain ⟨region, refused⟩ := take_fill_tests hk h (.outstanding (fillCommand (s.ctx x).record))
    (some (fillData (s.ctx x).record))
  exact (takeBlock_fill hk).trans (issueProgram_issues (by rw [region, hw]) (by rw [refused, hr]))

theorem takeBlock_fill_refused
    (hp : (s.region (recRegion (s.ctx x).record)).writable = false ∨ (s.ctx x).stepRefused = true) :
    ∃ p data, takeBlock x s = (ctxUpdate x
      { ((s.ctx x).take p data).failBlock (s.ctx x).cursor .isProtected with stepRefused := true } s, []) := by
  obtain ⟨region, refused⟩ := take_fill_tests hk h (.outstanding (fillCommand (s.ctx x).record))
    (some (fillData (s.ctx x).record))
  exact ⟨_, _, (takeBlock_fill hk).trans (issueProgram_refuses (by rwa [region, refused]))⟩

end

/-- Settles O36: every operation makes one new context of the block taken, and hands its access or step on. -/
theorem takeBlockIssuesTheNextBlock : Obligations.TakeBlockIssuesTheNextBlock := by
  intro x s
  refine ⟨canTakeBlock_iff s x, takeBlock_ignored, fun can i hi lower => ?_⟩
  have free := freeBuffer_lowest hi lower
  obtain ⟨-, -, -, -, unfailed, -⟩ := (canTakeBlock_iff s x).mp can
  refine ⟨fun hk ho => ?write, fun hk ho => ?offline, fun hk => ?reads, fun hk hw hr => ?fill, fun hk hp => ?refused⟩
  case write =>
    refine ⟨_, takeBlock_runs can (takeBlock_write hk ho), ?_, ?_, ?_, rfl, (setCtx_ctxOnly ..).media.emit _, rfl⟩ <;>
      rw [emit_ctx, ctx_setCtx_same, take_eq free]
  case offline =>
    refine ⟨_, takeBlock_runs can (takeBlock_write_offline hk ho), ?_, ?_, fun k => ?_, ?_, rfl, (setCtx_ctxOnly ..).media,
      rfl⟩ <;> rw [ctx_setCtx_same]
    · rfl
    · exact endBlock_phase ..
    · exact take_failBlock_bufs free ..
    · exact take_failBlock_failure free unfailed ..
  case reads =>
    refine ⟨_, takeBlock_runs can (takeBlock_reads hk), ?_, ?_, fun j hj => ?_, ?_, rfl, (setCtx_ctxOnly ..).media, rfl⟩ <;>
      rw [ctx_setCtx_same]
    · exact takeStep_phase ..
    · exact takeStep_bufs free ..
    · exact takeStep_phase_other _ _ _ hj
    · rfl
  case fill =>
    refine ⟨_, takeBlock_runs can (takeBlock_fill_issues hk free hw hr), ?_, ?_, fun j hj => ?_, ?_, rfl,
      (setCtx_ctxOnly ..).media, rfl⟩ <;> rw [ctx_setCtx_same]
    · exact takeStep_phase ..
    · exact takeStep_bufs free ..
    · exact takeStep_phase_other _ _ _ hj
    · rfl
  case refused =>
    obtain ⟨p, data, taken⟩ := takeBlock_fill_refused hk free hp
    have runs := takeBlock_runs can taken
    rw [ctxUpdate, ctxSettle_ctxSettle] at runs
    refine ⟨_, runs, ?_, ?_, fun k => ?_, ?_, ?_, rfl, (setCtx_ctxOnly ..).media, rfl⟩ <;> rw [ctx_setCtx_same]
    · rfl
    · exact endBlock_phase ..
    · exact take_failBlock_bufs free p data .isProtected k
    · exact take_failBlock_failure free unfailed p data .isProtected

end Sys2Proof.Machine
end

section
/-! O58. Every command keeps locks and moves fitting together (R88, R104). A command that touches neither a channel nor a relocation
table keeps `lockView`; the grants and the channels' own commands make a first change that keeps the fit, and the internal effects
they set off keep it by `workOff_fits`. -/

namespace Sys2Proof.Machine

variable {s t : State}

/-! ### Commands that leave channels and relocation tables alone -/

/-- The end of a warm reset leaves channels and tables as they are. -/
theorem resetEnd_lockView (s : State) : lockView (resetEnd s) = lockView s := rfl

theorem MoveLocksFit.settled (f : MoveLocksFit s) (h : Settled lockView s t) : MoveLocksFit t :=
  f.view (h.eq resetEnd_lockView)

/-- A state that fits does so when the effects set off have been worked off. -/
theorem MoveLocksFit.worked (f : MoveLocksFit s) (ms : List Msg) : MoveLocksFit (workOff (s, ms)) := workOff_fits f

theorem enterRunning_lockView (read : HostResult Bytes) (s : State) : lockView (enterRunning read s) = lockView s := by
  unfold enterRunning
  dsimp only
  rw [applyThreshold_event lockView_device, applyThreshold_event lockView_device,
    forEach_frame _ (laneRun_event lockView_device)]
  exact takeAction_event lockView_device s

theorem execRunTaken_fits (f : MoveLocksFit s) {read : HostResult Bytes} {number : Nat}
    (h : execRunTaken read s number = .next t) : MoveLocksFit t := by
  cases h
  dsimp only
  split
  · exact (f.view (enterRunning_lockView read s)).worked _
  · exact f

theorem setAnchor_lockView (a : Addr) (s : State) : lockView (setAnchor a s) = lockView s := by
  unfold setAnchor
  split <;> rfl

/-! ### A record's grant -/

theorem grantRow_fits (f : MoveLocksFit s) (k : OpKind) : MoveLocksFit (grantRow k (acceptOf k) s) := by
  unfold grantRow
  split
  · split
    · refine workOff_fits (f.view ((checkRecord_frame lockView_blocks (fun u => ?_) _).trans
        (takeGrant_event lockView_device _ _ _ _)))
      exact acceptOf_frame lockView_blocks (fun _ _ _ => rfl) _ u
    · exact f
  · exact f

theorem grantCommand_fits (f : MoveLocksFit s) (k : OpKind) (h : exec (grantCommand k) s = .next t) : MoveLocksFit t := by
  rw [exec_grantCommand_acceptOf] at h
  cases h
  exact grantRow_fits f k

/-! ### Resets and the probe -/

/-- Emptied channels and tables have nothing to fit. -/
theorem coldState_fits (source : ResetSource) (s : State) : MoveLocksFit (coldState source s) := fun u => by
  have table : (coldState source s).rlt u = Rlt.cold := Vector.getElem_replicate u.isLt
  have chan : (coldState source s).chan u = Channel.cold (s.chan u).sent := getElem_mapVec _ s.chans u.val u.isLt
  rw [table, chan]
  exact ⟨by decide, List.nodup_nil, List.nodup_nil, nofun, nofun, List.nodup_nil, nofun⟩

/-- A channel that sends an IDENTIFY performs no entry. -/
theorem beginProbe_fits (f : MoveLocksFit s) : MoveLocksFit (beginProbe s) := by
  refine MoveLocksFit.each (fun u t g => ?_) _ f
  exact (g.shrink (u := u) (c := { t.chan u with
    link := .identify false ((t.chan u).sent + 1) (answerExpiry t), sent := (t.chan u).sent + 1 })
    (.relink rfl rfl rfl nofun)).view (lockView_blocks.emit _ _)

theorem coldReset_fits (source : ResetSource) (s : State) : MoveLocksFit (coldReset source s) := by
  unfold coldReset
  dsimp only
  split
  · exact coldState_fits source s
  · exact beginProbe_fits (coldState_fits source s)

theorem warmReset_fits (f : MoveLocksFit s) : MoveLocksFit (warmReset s) := by
  have blocks := resetBlocks_fits (f.view (resetDevice_event lockView_device s))
  unfold warmReset
  exact finishEvent_fits ((blocks.worked _).view (forEach_frame _ (ctxSettle_frame lockView_blocks) _ _))

/-! ### The channels' commands -/

theorem identifyEnds_fits (f : MoveLocksFit s) (u : UnitId) (valid : Bool) : MoveLocksFit (identifyEnds u valid s).1 :=
  f.shrink (u := u) (c := { s.chan u with link := .idle, identified := some valid }) (.relink rfl rfl rfl nofun)

theorem writeAnswered_fits (f : MoveLocksFit s) (cmd : StepCmd) (u : UnitId) (attempt : Nat) (answer : ProgramAnswer) :
    MoveLocksFit (writeAnswered cmd u attempt answer s) := by
  unfold writeAnswered
  split
  · split
    · exact runEvent_fits (writeEnds_fits f _ _ _ _ _)
    · exact f
  · exact f

theorem identifyLost_fits (f : MoveLocksFit s) (u : UnitId) : MoveLocksFit (identifyLost u s).1 :=
  (f.shrink (u := u) (c := { s.chan u with link := .idle, state := .offline, identified := some false })
    (.relink rfl rfl rfl nofun)).view (postEvent_frame lockView_blocks ..)

/-- The second attempt performs what the first did. -/
theorem sendAgain_fits (f : MoveLocksFit s) (u : UnitId) (link : Nat → Tick → Link) (cmd : MediaCmd)
    (same : ∀ n expiry, Channel.performing { s.chan u with link := link n expiry } = (s.chan u).performing) :
    MoveLocksFit (sendAgain u link cmd s) := by
  refine (f.shrink (u := u) (c := { s.chan u with
    link := link ((s.chan u).sent + 1) (answerExpiry s), sent := (s.chan u).sent + 1 })
    (.relink rfl rfl rfl fun e h _ => ?_)).view (lockView_blocks.emit _ _)
  exact mem_entries.mpr (.inl ((same _ _).symm.trans h))

theorem attemptExpires_fits (f : MoveLocksFit s) (u : UnitId) : MoveLocksFit (attemptExpires u s) := by
  unfold attemptExpires
  split
  · next link =>
    split
    · exact runEvent_fits (identifyLost_fits f u)
    · exact sendAgain_fits f _ _ _ fun _ _ => by simp [Channel.performing, link]
  · next link =>
    split
    · exact runEvent_fits (unitLoss_fits f _ _ _)
    · exact sendAgain_fits f _ _ _ fun _ _ => by simp [Channel.performing, link]
  · exact f

theorem paceExpires_fits (f : MoveLocksFit s) (u : UnitId) : MoveLocksFit (paceExpires u s).1 := by
  have g := f.view (modPatrolUnit_frame lockView_blocks u (fun p => { p with paceTimer := none }) s)
  unfold paceExpires
  dsimp only
  split
  · exact becomeReady_fits g u
  · exact g

theorem settleExpires_fits (f : MoveLocksFit s) (u : UnitId) : MoveLocksFit (settleExpires u s).1 := by
  have g := f.view (modPatrolUnit_frame lockView_blocks u (fun p => { p with settleTimer := none }) s)
  unfold settleExpires
  dsimp only
  split
  · exact becomeReady_fits g u
  · exact g

/-! ### Every command -/

/-- Every command keeps locks and moves fitting together. -/
theorem exec_fits (f : MoveLocksFit s) (c : Instr) (h : exec c s = .next t) : MoveLocksFit t := by
  have dev := lockView_device
  cases c
  case coldReset => cases h; exact coldReset_fits _ s
  case run => exact f.view (execRun_event dev _ _ h)
  case runTaken => exact execRunTaken_fits f h
  case stop => exact f.settled (execStop_settled dev _ _ h)
  case reset =>
    cases h
    split
    · exact warmReset_fits f
    · exact f
  case anchorHi =>
    cases h
    split
    · exact f.view (takeAction_event dev s)
    · exact f.view (refuseAction_event dev _ s)
  case anchorLo =>
    cases h
    split
    · exact f.view ((setAnchor_lockView _ _).trans (takeAction_event dev s))
    · exact f.view (refuseAction_event dev _ s)
  case start => exact f.view (execStart_event dev _ _ _ h)
  case look => exact f.view (execLook_event dev _ _ _ h)
  case abort => exact f.settled (execAbort_settled dev _ _ _ h)
  case acknowledge => exact f.view (execAcknowledge_event dev _ _ _ h)
  case ignoredWrite o w v => exact f.view (execIgnoredWrite_event dev o w v _ _ h)
  case read => exact grantCommand_fits f .read h
  case write => exact grantCommand_fits f .write h
  case fill => exact grantCommand_fits f .fill h
  case copy => exact grantCommand_fits f .copy h
  case verify => exact grantCommand_fits f .verify h
  case digest => exact grantCommand_fits f .digest h
  case relocate => exact grantCommand_fits f .relocate h
  case barrier => exact grantCommand_fits f .barrier h
  case tableRead => exact grantCommand_fits f .tableRead h
  case startPass => exact grantCommand_fits f .startPass h
  case stopPass => exact grantCommand_fits f .stopPass h
  case setPatrol => exact grantCommand_fits f .setPatrol h
  case regionDefine => exact grantCommand_fits f .regionDefine h
  case regionDelete => exact grantCommand_fits f .regionDelete h
  case regionGuard => exact grantCommand_fits f .regionGuard h
  case regionRelease => exact grantCommand_fits f .regionRelease h
  case regionFix => exact grantCommand_fits f .regionFix h
  case lockdown => exact grantCommand_fits f .lockdown h
  case badOp => exact grantCommand_fits f .badOp h
  case listReadEnd =>
    cases h
    split
    · exact workOff_fits (f.view (listReadEnds_event dev _ _ _))
    · exact f
  case takeBlock =>
    cases h
    split
    · exact runEvent_fits (f.view ((ctxSettle_frame lockView_blocks _ _).trans (takeBlock_event dev _ _)))
    · exact f
  case hostReadEnd =>
    cases h
    split
    · exact runEvent_fits (f.view (hostReadEnds_event dev _ _ _ _))
    · exact f
  case bufferWriteEnd => exact f.view (execBufferWriteEnd_event dev _ _ _ _ _ _ h)
  case finalWrite => exact f.settled (execFinalWrite_settled dev _ _ _ h)
  case resultError => exact f.settled (execResultError_settled dev _ _ _ h)
  case configReadEnd => exact f.settled (execConfigReadEnd_settled dev _ _ _ _ _ h)
  case fetchEnd => exact f.settled (execFetchEnd_settled dev _ _ _ _ _ h)
  case linkReadEnd => exact f.settled (execLinkReadEnd_settled dev _ _ _ _ _ h)
  case pollExpiry => exact f.view (execPollExpiry_event dev _ _ _ h)
  case identifyAnswer =>
    cases h
    split
    · split
      · exact runEvent_fits (identifyEnds_fits f _ _)
      · exact f
    · exact f
  case readAnswer =>
    cases h
    split
    · split
      · exact runEvent_fits (readEnds_fits f _ _ _ _ _ _)
      · exact f
    · exact f
  case programAnswer => cases h; exact writeAnswered_fits f _ _ _ _
  case clearAnswer => cases h; exact writeAnswered_fits f _ _ _ _
  case noResponse =>
    cases h
    split
    · exact attemptExpires_fits f _
    · exact f
  case paceExpiry =>
    cases h
    (repeat' split) <;> first | exact workOff_fits (paceExpires_fits f _) | exact f
  case settleExpiry =>
    cases h
    (repeat' split) <;> first | exact workOff_fits (settleExpires_fits f _) | exact f
  case deviceAreaWrite => exact f.view (execDeviceAreaWrite_event dev _ _ h)
  case deviceAreaError => exact f.settled (execDeviceAreaError_settled dev _ _ _ h)
  case holdExpiry => exact f.view (execHoldExpiry_event dev _ _ _ h)
  case controlRefused b => exact f.view (execControlRefused_event dev b _ _ h)
  case deviceAreaWriteCompleted => exact f.settled (execDeviceAreaWriteCompleted_settled dev _ _ _ h)
  case resetInputRelease =>
    cases h
    split
    · exact beginProbe_fits (f.view (dev.dev _ _))
    · exact f

theorem step_fits (f : MoveLocksFit s) (h : step s = .next t) : MoveLocksFit t := by
  unfold step at h
  split at h
  · cases h
    exact f
  · next c rest _ => exact exec_fits (s := { s with pending := rest }) f c h

/-- Settles O58: the fit holds after the step (`step_fits`), and it bounds the locks (`LocksFit.bound`). -/
theorem locksStayOnePerBlock : Obligations.LocksStayOnePerBlock :=
  fun _ _ f h => ⟨step_fits f h, fun u => (step_fits f h u).bound⟩

end Sys2Proof.Machine
end

section
/-! The channel controllers' shared facts (chapter 4): when a target is a spare, what the end of an entry leaves of the channel, how a
command that answers the attempt out is taken, and the slot of a posted event. -/

namespace Sys2Proof.Machine

variable {s : State} {u : UnitId} {e : QEntry} {target n : Nat} {second : Bool} {expiry : Tick} {data : Bytes} {poisoned : Bool}

/-! ### Targets (R82) -/

theorem isSpare_iff (target : Nat) : isSpare target = true ↔ 65536 ≤ target ∧ target < 66560 := by
  simp [isSpare, Config.spareBase, Config.spares]

/-- The indicator that the statements name by the spare area's bounds. -/
theorem eq_isSpare {onSpare : Bool} (h : onSpare = true ↔ 65536 ≤ target ∧ target < 66560) : onSpare = isSpare target :=
  Bool.eq_iff_iff.mpr (h.trans (isSpare_iff target).symm)

/-! ### The slot of an event (R181) -/

theorem askWrite_slots (w : WriteTarget) (content : Bytes) (s : State) : (askWrite w content s).ntu.slots = s.ntu.slots := by
  unfold askWrite
  split <;> rfl

theorem setRoute_slots (s : State) (r : RouteId) (v : Route) : (s.setRoute r v).ntu.slots = s.ntu.slots := by
  cases r <;> rfl

theorem sendRoute_slots (r : RouteId) (s : State) : (sendRoute r s).ntu.slots = s.ntu.slots := by
  unfold sendRoute askMessage
  split
  · exact setRoute_slots ..
  · exact setRoute_slots ..

theorem takeCause_slots (r : RouteId) (s : State) : (takeCause r s).ntu.slots = s.ntu.slots := by
  unfold takeCause holdRoute
  dsimp only
  (repeat' split) <;> first | exact sendRoute_slots r s | exact setRoute_slots s r _

theorem routeCause_slots (sel : RouteSel) (s : State) : (routeCause sel s).ntu.slots = s.ntu.slots := by
  unfold routeCause
  (repeat' split) <;> first | rfl | exact takeCause_slots _ s

/-- The slot of the kind holds the occurrence's detail. -/
theorem postEvent_detail (k : EventKind) (o : Occurrence) (s : State) :
    ((postEvent k o s).ntu.slots[k.slot]).detail = o.detail s.tick := by
  have slots : (postEvent k o s).ntu.slots = s.ntu.slots.set k.slot ((s.ntu.slots[k.slot]).occur (o.detail s.tick)) :=
    (routeCause_slots _ _).trans (askWrite_slots ..)
  rw [slots]
  simp [EventSlot.occur]

theorem NtuOnly.chan {t : State} (h : NtuOnly s t) (v : UnitId) : t.chan v = s.chan v := by
  obtain ⟨_, rfl⟩ := h
  rfl

/-! ### The end of an entry (R77, R83 to R87) -/

/-- The link falls idle, and a FOREGROUND entry departs. -/
theorem endEntry_eq (c : Channel) (e : QEntry) (tick : Tick) : c.endEntry e tick = { c with
    link := .idle
    queue := c.queue ++ (if e.isForeground then c.waiting.take 1 else [])
    waiting := if e.isForeground then c.waiting.drop 1 else c.waiting
    lastDeparture := if e.isForeground then some tick else c.lastDeparture } := by
  unfold Channel.endEntry
  split
  · rfl
  · simp

/-- What a read end notes does not hang on the link. -/
theorem noteReadEnd_link (c : Channel) (k : Link) (e : QEntry) (cls : ReadClass) (weak : Bool) (d : Bytes) :
    ({ c with link := k } : Channel).noteReadEnd e cls weak d = { c.noteReadEnd e cls weak d with link := k } := by
  unfold Channel.noteReadEnd
  (repeat' split) <;> rfl

theorem noteWriteEnd_link (c : Channel) (k : Link) (e : QEntry) (ok : Bool) :
    ({ c with link := k } : Channel).noteWriteEnd e ok = { c.noteWriteEnd e ok with link := k } := by
  unfold Channel.noteWriteEnd
  (repeat' split) <;> rfl

/-! ### The answer to the attempt out (R73) -/

theorem readAnswer_taken (link : (s.chan u).link = .performing e target second n expiry data poisoned) (cmd : e.cmd = .read)
    {answer : ReadAnswer} {cls : ReadClass} {weak : Bool} {d : Bytes}
    (h : classify s.patrol.cfg.weak answer = some (cls, weak, d)) :
    exec (.readAnswer u n answer) s = .next (runEvent (readEnds u e target cls weak d s)) := by
  show (.next _ : Res) = _
  rw [link, h]
  exact congrArg _ (if_pos ⟨rfl, cmd⟩)

theorem writeAnswered_taken (link : (s.chan u).link = .performing e target second n expiry data poisoned)
    (answer : ProgramAnswer) :
    writeAnswered e.cmd u n answer s = runEvent (writeEnds u e target (answer == .ok) poisoned s) := by
  unfold writeAnswered
  rw [link]
  exact if_pos ⟨rfl, rfl⟩

/-- A program's and a clear's answer are taken alike. -/
theorem writeAnswer_taken (link : (s.chan u).link = .performing e target second n expiry data poisoned)
    {answer : ProgramAnswer} {c : Instr}
    (h : (c = .programAnswer u n answer ∧ e.cmd = .program) ∨ (c = .clearAnswer u n answer ∧ e.cmd = .clear)) :
    exec c s = .next (runEvent (writeEnds u e target (answer == .ok) poisoned s)) := by
  have taken := writeAnswered_taken link answer
  rcases h with ⟨rfl, cmd⟩ | ⟨rfl, cmd⟩ <;> rw [cmd] at taken
  · show (.next (writeAnswered .program u n answer s) : Res) = _
    rw [taken]
  · show (.next (writeAnswered .clear u n answer s) : Res) = _
    rw [taken]

end Sys2Proof.Machine
end

section
/-! O44. Answers and expiries that the attempt out cannot take (R73; log entries 2 and 23): each command reads the channel's link, and
on a link of another kind, or for another attempt, it changes nothing. -/

namespace Sys2Proof.Machine

variable {u : UnitId} {m : Nat} {s : State}

/-! ### The commands by the link -/

theorem identifyAnswer_discarded (h : ∀ second expiry, (s.chan u).link ≠ .identify second m expiry) (a : IdentityAnswer) :
    exec (.identifyAnswer u m a) s = .next s := by
  show (.next _ : Res) = _
  split
  · next second n expiry size count link =>
    rw [if_neg]
    rintro rfl
    exact h _ _ link
  · rfl

theorem identifyAnswer_other : exec (.identifyAnswer u m .other) s = .next s := by
  show (.next _ : Res) = _
  split
  · next h => cases h
  · rfl

/-- No performance of attempt `m` and command `cmd` is out. -/
def NotPerforming (s : State) (u : UnitId) (m : Nat) (cmd : StepCmd) : Prop :=
  ∀ e target second expiry data poisoned, (s.chan u).link = .performing e target second m expiry data poisoned → e.cmd ≠ cmd

theorem readAnswer_discarded (h : NotPerforming s u m .read) (a : ReadAnswer) : exec (.readAnswer u m a) s = .next s := by
  show (.next _ : Res) = _
  split
  · next link _ =>
    rw [if_neg]
    rintro ⟨rfl, cmd⟩
    exact h _ _ _ _ _ _ link cmd
  · rfl

theorem readAnswer_unclassified {a : ReadAnswer} (h : classify s.patrol.cfg.weak a = none) :
    exec (.readAnswer u m a) s = .next s := by
  show (.next _ : Res) = _
  rw [h]
  split
  · next e => cases e
  · rfl

theorem writeAnswered_discarded {cmd : StepCmd} (h : NotPerforming s u m cmd) (a : ProgramAnswer) :
    writeAnswered cmd u m a s = s := by
  unfold writeAnswered
  split
  · next link =>
    rw [if_neg]
    rintro ⟨rfl, cmd⟩
    exact h _ _ _ _ _ _ link cmd
  · rfl

theorem programAnswer_discarded (h : NotPerforming s u m .program) (a : ProgramAnswer) :
    exec (.programAnswer u m a) s = .next s := congrArg _ (writeAnswered_discarded h a)

theorem clearAnswer_discarded (h : NotPerforming s u m .clear) (a : ProgramAnswer) :
    exec (.clearAnswer u m a) s = .next s := congrArg _ (writeAnswered_discarded h a)

theorem noResponse_discarded (h : attemptDue s u m = false) : exec (.noResponse u m) s = .next s := by
  show (.next _ : Res) = _
  rw [h]
  rfl

/-! ### The links that take no answer -/

theorem notPerforming_of_performing {e : QEntry} {target n : Nat} {second : Bool} {expiry : Tick} {data : Bytes} {poisoned : Bool}
    (link : (s.chan u).link = .performing e target second n expiry data poisoned) {cmd : StepCmd} (h : m ≠ n ∨ e.cmd ≠ cmd) :
    NotPerforming s u m cmd := by
  rintro _ _ _ _ _ _ other
  cases link.symm.trans other
  exact h.resolve_left (absurd rfl)

/-- The attempt whose timer runs, and that timer's expiry. -/
theorem attemptDue_eq_false {n : Nat} {expiry : Tick} (h : m ≠ n ∨ reached s.tick expiry = false)
    (link : (∃ second, (s.chan u).link = .identify second n expiry)
      ∨ ∃ e target second data poisoned, (s.chan u).link = .performing e target second n expiry data poisoned) :
    attemptDue s u m = false := by
  have late : (n == m && reached s.tick expiry) = false := by
    rcases h with h | h
    · simp [Ne.symm h]
    · simp [h]
  unfold attemptDue
  obtain ⟨_, link⟩ | ⟨_, _, _, _, _, link⟩ := link <;> rw [link] <;> exact late

/-- Settles O44: by the kind of the link. -/
theorem lateAnswersAreDiscarded : Obligations.LateAnswersAreDiscarded := by
  refine fun u m s => ⟨fun link => ?idle, fun second n expiry link => ?identify,
    fun e target second n expiry data poisoned link => ?performing⟩
  case idle =>
    have none : ∀ cmd, NotPerforming s u m cmd := by
      intro _ _ _ _ _ _ _ h
      rw [link] at h
      cases h
    refine ⟨identifyAnswer_discarded (fun _ _ h => by rw [link] at h; cases h), readAnswer_discarded (none _),
      programAnswer_discarded (none _), clearAnswer_discarded (none _), noResponse_discarded ?_⟩
    unfold attemptDue
    rw [link]
  case identify =>
    have none : ∀ cmd, NotPerforming s u m cmd := by
      intro _ _ _ _ _ _ _ h
      rw [link] at h
      cases h
    refine ⟨fun h => identifyAnswer_discarded (fun _ _ other => ?_), identifyAnswer_other, readAnswer_discarded (none _),
      programAnswer_discarded (none _), clearAnswer_discarded (none _),
      fun h => noResponse_discarded (attemptDue_eq_false h (.inl ⟨_, link⟩))⟩
    cases link.symm.trans other
    exact h rfl
  case performing =>
    refine ⟨identifyAnswer_discarded (fun _ _ h => by rw [link] at h; cases h),
      fun h => readAnswer_discarded (notPerforming_of_performing link h), fun k d hk => readAnswer_unclassified (if_neg ?_),
      fun h => programAnswer_discarded (notPerforming_of_performing link h),
      fun h => clearAnswer_discarded (notPerforming_of_performing link h),
      fun h => noResponse_discarded (attemptDue_eq_false h (.inr ⟨_, _, _, _, _, link⟩))⟩
    omega

end Sys2Proof.Machine
end

section
/-! O45. The expiry of the answer timer (R73, R74): the first sends the command again, the second is the unit's loss (R93), at the
channel and at its relocation table (R118). -/

namespace Sys2Proof.Machine

variable {s : State} {u : UnitId} {e : QEntry} {target n : Nat} {second : Bool} {expiry : Tick} {data : Bytes} {poisoned : Bool}

/-! ### The expiry of the attempt out -/

/-- An expiry that has been reached acts on the attempt out. -/
theorem noResponse_due (due : reached s.tick expiry = true)
    (link : (∃ second, (s.chan u).link = .identify second n expiry)
      ∨ ∃ e target second data poisoned, (s.chan u).link = .performing e target second n expiry data poisoned) :
    exec (.noResponse u n) s = .next (attemptExpires u s) := by
  have runs : attemptDue s u n = true := by
    obtain ⟨_, link⟩ | ⟨_, _, _, _, _, link⟩ := link <;> simp [attemptDue, link, due]
  show (.next _ : Res) = _
  rw [if_pos runs]

/-- What the expiry of a step's attempt does. -/
theorem attemptExpires_performing (link : (s.chan u).link = .performing e target second n expiry data poisoned) :
    attemptExpires u s = if second then runEvent (unitLoss u e target s)
      else sendAgain u (fun m t => .performing e target true m t data poisoned) (mediaCommand e.cmd target data) s := by
  rw [attemptExpires, link]

/-- What the expiry of an IDENTIFY's attempt does. -/
theorem attemptExpires_identify (link : (s.chan u).link = .identify second n expiry) :
    attemptExpires u s = if second then runEvent (identifyLost u s)
      else sendAgain u (fun m t => .identify true m t) .identify s := by
  rw [attemptExpires, link]

theorem answerExpiry_eq (s : State) : answerExpiry s = s.tick + 2000 := rfl

/-! ### The loss of the unit (R93) -/

/-- The lost unit's channel: OFFLINE and emptied, but for the last foreground departure. -/
theorem unitLoss_chan (u : UnitId) (e : QEntry) (target : Nat) (s : State) :
    ((unitLoss u e target s).1.chan u).state = .offline ∧ ((unitLoss u e target s).1.chan u).link = .idle
      ∧ ((unitLoss u e target s).1.chan u).queue = [] ∧ ((unitLoss u e target s).1.chan u).waiting = []
      ∧ ((unitLoss u e target s).1.chan u).locks = [] ∧ ((unitLoss u e target s).1.chan u).marks = []
      ∧ ((unitLoss u e target s).1.chan u).moveBuf = none
      ∧ ∀ v, v ≠ u → (unitLoss u e target s).1.chan v = s.chan v := by
  unfold unitLoss
  simp only [(postEvent_ntuOnly _ _ _).chan, chan_setChan_same, true_and]
  exact fun v hv => chan_setChan_other _ _ _ _ hv

theorem unitLoss_detail (u : UnitId) (e : QEntry) (target : Nat) (s : State) :
    ((unitLoss u e target s).1.ntu.slots[EventKind.unitOffline.slot]).detail
      = (s.blockOccurrence u e.block e.cmd.code s.cme.gen none).detail s.tick := postEvent_detail ..

/-- The reports of the loss, the table's told last. -/
theorem unitLoss_reports (u : UnitId) (e : QEntry) (target : Nat) (s : State) :
    List.Perm (unitLoss u e target s).2 ([.patrolLost u (e.isPatrol && isSpare target), .movesLost u (lostMoveOnSpare e target)]
      ++ lossOutcome u true (isSpare target) e ++ ((s.chan u).queue ++ (s.chan u).waiting).flatMap (lossOutcome u false false)
      ++ ((s.chan u).locks.flatMap Lock.held).map (fun h => .stepEnds h.1 h.2 .offline false)) := by
  show List.Perm (.patrolLost .. :: lossOutcome .. ++ _ ++ _ ++ [.movesLost ..]) _
  simp only [List.cons_append, List.nil_append]
  exact (List.perm_append_singleton _ _).cons _

theorem identifyLost_chan (u : UnitId) (s : State) :
    ((identifyLost u s).1.chan u) = { s.chan u with link := .idle, state := .offline, identified := some false }
      ∧ ∀ v, v ≠ u → (identifyLost u s).1.chan v = s.chan v := by
  unfold identifyLost
  simp only [(postEvent_ntuOnly _ _ _).chan, chan_setChan_same, true_and]
  exact fun v hv => chan_setChan_other _ _ _ _ hv

theorem lossOutcome_eq (u : UnitId) (sent onSpare : Bool) (e : QEntry) : lossOutcome u sent onSpare e
    = match e.source with
      | .foreground x j _ _ _ => [.stepEnds x j .offline onSpare]
      | .commit => [if e.cmd = .read then .loadReadEnds u none else .copyEnds u (.offline sent)]
      | .move _ | .patrol => [] := by
  obtain ⟨source, cmd, block⟩ := e
  cases source <;> rfl

/-! ### The answer to the second attempt (R74) -/

theorem readEnds_link (u : UnitId) (e : QEntry) (target : Nat) (cls : ReadClass) (weak : Bool) (d : Bytes) (k : Link) (s : State) :
    readEnds u e target cls weak d (s.setChan u { s.chan u with link := k }) = readEnds u e target cls weak d s := by
  unfold readEnds
  simp only [chan_setChan_same, setChan_setChan, setChan_tick, noteReadEnd_link, endEntry_eq]

theorem writeEnds_link (u : UnitId) (e : QEntry) (target : Nat) (ok poisoned : Bool) (k : Link) (s : State) :
    writeEnds u e target ok poisoned (s.setChan u { s.chan u with link := k }) = writeEnds u e target ok poisoned s := by
  unfold writeEnds
  simp only [chan_setChan_same, setChan_setChan, setChan_tick, noteWriteEnd_link, endEntry_eq]

/-- An answer ends the step alike on whichever attempt it comes. -/
theorem answer_on_attempt (second : Bool) {c : Instr}
    (h : (∃ answer, c = .readAnswer u n answer ∧ e.cmd = .read ∧ (classify s.patrol.cfg.weak answer).isSome = true)
      ∨ (∃ answer, c = .programAnswer u n answer ∧ e.cmd = .program)
      ∨ (∃ answer, c = .clearAnswer u n answer ∧ e.cmd = .clear)) :
    exec c (s.setChan u { s.chan u with link := .performing e target second n expiry data poisoned })
      = exec c (s.setChan u { s.chan u with link := .performing e target true n expiry data poisoned }) := by
  have out : ∀ b : Bool, ((s.setChan u { s.chan u with link := .performing e target b n expiry data poisoned }).chan u).link
      = .performing e target b n expiry data poisoned := fun _ => by rw [chan_setChan_same]
  rcases h with ⟨answer, rfl, cmd, some⟩ | ⟨answer, rfl, cmd⟩ | ⟨answer, rfl, cmd⟩
  · obtain ⟨⟨cls, weak, d⟩, hc⟩ := Option.isSome_iff_exists.mp some
    rw [readAnswer_taken (out second) cmd hc, readAnswer_taken (out true) cmd hc, readEnds_link, readEnds_link]
  · rw [writeAnswer_taken (out second) (.inl ⟨rfl, cmd⟩), writeAnswer_taken (out true) (.inl ⟨rfl, cmd⟩), writeEnds_link,
      writeEnds_link]
  · rw [writeAnswer_taken (out second) (.inr ⟨rfl, cmd⟩), writeAnswer_taken (out true) (.inr ⟨rfl, cmd⟩), writeEnds_link,
      writeEnds_link]

theorem identifyAnswer_taken (link : (s.chan u).link = .identify second n expiry) (size count : Word32) :
    exec (.identifyAnswer u n (.identity size count)) s
      = .next (runEvent (identifyEnds u (identityValid size count) s)) := by
  show (.next _ : Res) = _
  rw [link]
  exact congrArg _ (if_pos rfl)

theorem identifyEnds_link (u : UnitId) (valid : Bool) (k : Link) (s : State) :
    identifyEnds u valid (s.setChan u { s.chan u with link := k }) = identifyEnds u valid s := by
  simp only [identifyEnds, identified, chan_setChan_same, setChan_setChan]

/-! ### The relocation table of the lost unit (R118) -/

theorem movesLost_rlt (u : UnitId) (s : State) :
    (movesLost u s).1.rlt u
        = { s.rlt u with moves := (s.rlt u).moves.filter fun m => m.state == .batched, requests := [] }
      ∧ ∀ v, v ≠ u → (movesLost u s).1.rlt v = s.rlt v := by
  have kept : (fun m : Move => !m.unbatched) = fun m => m.state == .batched := by
    funext m
    simp [Move.unbatched, bne]
  unfold movesLost
  dsimp only
  rw [kept]
  refine ⟨by rw [setChan_rlt, rlt_setRlt_same], fun v hv => ?_⟩
  rw [setChan_rlt, rlt_setRlt_other _ _ _ _ hv]

theorem mem_waitersEnd {ws : List Waiter} {w : Waiter} (h : w ∈ ws) (res : Waiter → BlockResult) :
    .blockEnds w.ctx w.j (res w) ∈ waitersEnd ws res := List.mem_map_of_mem (f := fun w : Waiter => Msg.blockEnds w.ctx w.j (res w)) h

/-- An unbatched move ends for its waiters and its finding. -/
theorem mem_movesLost_of_move {m : Move} (hm : m ∈ (s.rlt u).moves) (hs : m.state ≠ .batched) {msg : Msg}
    (h : msg ∈ waitersEnd m.req.waiters (fun _ => .failed .unitOffline) ++ m.req.findingReport u .abandoned) :
    msg ∈ (movesLost u s).2 :=
  List.mem_append_left _ (List.mem_flatMap.mpr ⟨m, List.mem_filter.mpr ⟨hm, by simpa [Move.unbatched] using hs⟩, h⟩)

theorem mem_movesLost_of_request {q : MoveReq} (hq : q ∈ (s.rlt u).requests) {w : Waiter} (hw : w ∈ q.waiters) :
    .blockEnds w.ctx w.j (.failed .unitOffline) ∈ (movesLost u s).2 :=
  List.mem_append_right _ (List.mem_flatMap.mpr ⟨q, hq, mem_waitersEnd hw fun _ => .failed .unitOffline⟩)

theorem findingReport_some {q : MoveReq} {tag : FindingTag} (h : q.finding = some tag) (u : UnitId) (res : FindingEnd) :
    q.findingReport u res = [.findingEnded u q.src tag res] := by
  simp [MoveReq.findingReport, h]

/-- Settles O45: an expiry is `noResponse_performing` or `noResponse_identify`, the loss `unitLoss_chan` and `unitLoss_reports`. -/
theorem noResponseIsRetriedOnce : Obligations.NoResponseIsRetriedOnce := by
  refine ⟨fun u n expiry s due => ⟨fun e target data poisoned link => ?again, fun link => ?identifyAgain,
      fun e target data poisoned link => ?loss, fun link => ?identifyLost, fun size count => ?identity,
      fun e target data poisoned c h => (answer_on_attempt false h).symm⟩,
    lossOutcome_eq, fun u mark s => ?moves⟩
  case again =>
    rw [noResponse_due due (.inr ⟨_, _, _, _, _, link⟩), attemptExpires_performing link, if_neg Bool.false_ne_true, sendAgain,
      answerExpiry_eq]
  case identifyAgain =>
    rw [noResponse_due due (.inl ⟨_, link⟩), attemptExpires_identify link, if_neg Bool.false_ne_true, sendAgain,
      answerExpiry_eq]
  case loss =>
    obtain ⟨state, idle, queue, waiting, locks, marks, buf, others⟩ := unitLoss_chan u e target s
    have lost : exec (.noResponse u n) s = .next (runEvent (unitLoss u e target s)) := by
      rw [noResponse_due due (.inr ⟨_, _, _, _, _, link⟩), attemptExpires_performing link, if_pos rfl]
    refine ⟨(unitLoss u e target s).1, (unitLoss u e target s).2, lost, state, idle, queue, waiting, locks, marks, buf, others,
      fun onSpare h => ?_, ?_⟩
    · have reports := unitLoss_reports u e target s
      obtain rfl := eq_isSpare h
      unfold lostMoveOnSpare at reports
      cases hs : e.source <;> rw [hs] at reports <;> exact reports
    · have detail := unitLoss_detail u e target s
      cases hc : e.cmd <;> rw [hc] at detail <;> exact detail
  case identifyLost =>
    obtain ⟨chan, others⟩ := identifyLost_chan u s
    have lost : exec (.noResponse u n) s = .next (runEvent (identifyLost u s)) := by
      rw [noResponse_due due (.inl ⟨_, link⟩), attemptExpires_identify link, if_pos rfl]
    refine ⟨(identifyLost u s).1, lost, ?_, ?_, ?_, postEvent_detail .., others⟩ <;> rw [chan]
  case identity =>
    rw [identifyAnswer_taken (by rw [chan_setChan_same]), identifyAnswer_taken (by rw [chan_setChan_same]), identifyEnds_link,
      identifyEnds_link]
  case moves =>
    obtain ⟨table, others⟩ := movesLost_rlt u s
    refine ⟨(movesLost u s).1, (movesLost u s).2, rfl, ?_, ?_, ?_, others, fun m hm hs => ⟨fun w hw => ?_, fun tag ht => ?_⟩,
      fun q hq w hw => mem_movesLost_of_request hq hw⟩
    · rw [table]
    · rw [table]
    · rw [table]
    · exact mem_movesLost_of_move hm hs (List.mem_append_left _ (mem_waitersEnd hw fun _ => .failed .unitOffline))
    · exact mem_movesLost_of_move hm hs (List.mem_append_right _ (by simp [findingReport_some ht]))

end Sys2Proof.Machine
end

section
/-! O43. The end of a program or clear (R86), and what it does at a context (R43, R63, R65), at a move (R108, R109, R112) and at the
commit engine (R114). -/

namespace Sys2Proof.Machine

variable {s : State} {u : UnitId} {x : CtxId} {j : Nat} {m : Move}

/-! ### The channel (R83, R86) -/

theorem noteWriteEnd_eq (c : Channel) (e : QEntry) (ok : Bool) : c.noteWriteEnd e ok = { c with
    moveBuf := match e.source, c.moveBuf with
      | .move mid, some b => if ok ∧ b.mid = mid then none else some b
      | _, b => b } := by
  unfold Channel.noteWriteEnd
  cases e.source with
  | move mid =>
    cases hb : c.moveBuf with
    | none => cases c; cases hb; simp
    | some b => cases c; cases hb; by_cases h : b.mid = mid <;> cases ok <;> simp [h]
  | _ => rfl

/-! ### The context of a block that ends or waits (R43, R63, R65) -/

/-- Context `c` when block `j` ends, or goes on to wait for a commit: counted, failed or with a result as the case may be. -/
def Context.afterBlock (c : Context) (j : Nat) (ok wait : Bool) (fail : Option Status) (result : Option Nat) : Context :=
  { (if wait then c.setPhase j .awaitCommit else c.endBlock j) with
    blocksOk := if ok then c.blocksOk + 1 else c.blocksOk
    failure := match fail with | some st => lowerFailure c.failure j st | none => c.failure
    result := match result with
      | some k => if recKind c.record = .relocate then BitVec.ofNat 64 k else c.result
      | none => c.result }

theorem afterBlock_phase {c : Context} (h : c.phase j ≠ none) (ok wait : Bool) (fail : Option Status) (result : Option Nat) :
    (c.afterBlock j ok wait fail result).phase j = if wait then some .awaitCommit else none := by
  cases wait
  · exact endBlock_phase c j
  · exact setPhase_phase .awaitCommit h

theorem afterBlock_bufs (c : Context) (j : Nat) (ok : Bool) (fail : Option Status) (result : Option Nat) :
    (c.afterBlock j ok true fail result).bufs = c.bufs := rfl

theorem afterBlock_gone (ok : Bool) (fail : Option Status) (result : Option Nat) :
    BlockGone x j s (s.setCtx x ((s.ctx x).afterBlock j ok false fail result)) := blockGone_setCtx rfl rfl

/-- A message that ends block `j` of context `x`, or makes it wait for a commit; `ok`, `wait`, `fail` and `result` say how. -/
inductive BlockMsg (x : CtxId) (j : Nat) : Msg → Bool → Bool → Option Status → Option Nat → Prop
  | ok (sp : Bool) : BlockMsg x j (.stepEnds x j .programOk sp) true false none none
  | offline (sp : Bool) : BlockMsg x j (.stepEnds x j .offline sp) false false (some .unitOffline) none
  | withdrawn (sp : Bool) : BlockMsg x j (.stepEnds x j .withdrawn sp) false false none none
  | live (spare : Nat) : BlockMsg x j (.blockEnds x j (.live spare)) true false none (some spare)
  | failed (st : Status) : BlockMsg x j (.blockEnds x j (.failed st)) false false (some st) none
  | gone : BlockMsg x j (.blockEnds x j .gone) false false none none
  | poisoned (sp : Bool) : BlockMsg x j (.stepEnds x j .programPoisoned sp) false true none none
  | batched : BlockMsg x j (.moveBatched x j) false true none none

/-- Each of them makes the context the one of `afterBlock`, which then settles. -/
theorem handle_blockMsg (h : (s.ctx x).phase j ≠ none) {msg : Msg} {ok wait : Bool} {fail : Option Status} {result : Option Nat}
    (m : BlockMsg x j msg ok wait fail result) :
    handle msg s = (ctxUpdate x ((s.ctx x).afterBlock j ok wait fail result) s, []) := by
  have known : ((s.ctx x).phase j).isNone ≠ true := by simpa using h
  cases m with
  | ok | offline | withdrawn | poisoned => exact if_neg known
  | live | failed | gone => exact congrArg (·, []) (if_neg known)
  | batched => exact congrArg (·, []) (if_neg known)

theorem handle_programFail (h : (s.ctx x).phase j ≠ none) (sp : Bool) :
    handle (.stepEnds x j .programFail sp) s = (ctxUpdate x ((s.ctx x).setPhase j .awaitMove) s, []) := by
  exact if_neg (by simpa using h)

/-! ### The outcome at a move (R108, R109) -/

section
variable {mid : Nat} (h : (s.rlt u).move mid = some m)
include h

theorem moveWriteEnds_discarded (hs : m.state ≠ .writing) (out : MoveOutcome) : moveWriteEnds u mid out s = (s, []) := by
  simp [moveWriteEnds, h, hs]

theorem moveWriteEnds_ok (hs : m.state = .writing) :
    moveWriteEnds u mid .ok s = (s.setRlt u ((s.rlt u).putMove { m with state := .batched }),
      (m.req.waiters.map fun w => .moveBatched w.ctx w.j) ++ [.change (m.change u)]) := by
  simp [moveWriteEnds, h, hs]

theorem moveWriteEnds_offline (hs : m.state = .writing) :
    moveWriteEnds u mid .offline s = abandonMove u m .unitOffline s := by
  simp [moveWriteEnds, h, hs]

/-- The spare is FAILING when the next one is chosen (log entry 49). -/
theorem moveWriteEnds_programFail (hs : m.state = .writing) {t : State}
    (ht : t = s.setRlt u { s.rlt u with failing := (s.rlt u).failing ++ [m.spare] }) :
    moveWriteEnds u mid .programFail s = ((retryOn u m (t.rlt u).lowestChoosable t).1,
      .change (.dead u m.spare) :: (retryOn u m (t.rlt u).lowestChoosable t).2) := by
  subst ht
  simp [moveWriteEnds, h, hs]

end

theorem retryOn_last (h : 3 ≤ m.tries) (spare : Option Nat) (t : State) :
    retryOn u m spare t = abandonMove u m .writeFailed t := if_pos h

theorem retryOn_none (h : m.tries < 3) (t : State) : retryOn u m none t = abandonMove u m .noSpare t :=
  if_neg (Nat.not_le.mpr h)

theorem retryOn_some (h : m.tries < 3) (k : Nat) (t : State) :
    retryOn u m (some k) t = (t.setRlt u ((t.rlt u).putMove { m with spare := k, tries := m.tries + 1 }),
      [.moveEntryArrives u m.mid (if m.req.clears then .clear else .program) (65536 + k)]) := if_neg (Nat.not_le.mpr h)

/-! ### Abandonment (R112) -/

theorem leaveSlot_rlt (u : UnitId) (mid : Nat) (s : State) : (leaveSlot u mid s).1.rlt u = (s.rlt u).dropMove mid := by
  show ((s.setRlt u _).setChan u _).rlt u = _
  rw [setChan_rlt, rlt_setRlt_same]

/-! ### Poison clears (R114) -/

/-- A batch without a clear of the block takes no waiter. -/
theorem addClearWaiter_none {b : Nat} (w : CtxId × Nat) : ∀ {batch : List Change}, (∀ ws, .poisonClear u b ws ∉ batch) →
    addClearWaiter u b w batch = none
  | [], _ => rfl
  | .poisonClear v c ws :: rest, h => by
    have other : ¬ (v = u ∧ c = b) := by
      rintro ⟨rfl, rfl⟩
      exact h ws (List.mem_cons_self ..)
    simp [addClearWaiter, other, addClearWaiter_none w fun vs hv => h vs (List.mem_cons_of_mem _ hv)]
  | .entry .. :: rest, h | .dead .. :: rest, h | .region .. :: rest, h | .log .. :: rest, h | .config .. :: rest, h => by
    simp [addClearWaiter, addClearWaiter_none w fun vs hv => h vs (List.mem_cons_of_mem _ hv)]

/-- The first clear of the block takes the waiter. -/
theorem addClearWaiter_some {b : Nat} (w : CtxId × Nat) (ws : List (CtxId × Nat)) (after : List Change) :
    ∀ {before : List Change}, (∀ vs, .poisonClear u b vs ∉ before) →
      addClearWaiter u b w (before ++ .poisonClear u b ws :: after) = some (before ++ .poisonClear u b (ws ++ [w]) :: after)
  | [], _ => by simp [addClearWaiter]
  | .poisonClear v c vs :: rest, h => by
    have other : ¬ (v = u ∧ c = b) := by
      rintro ⟨rfl, rfl⟩
      exact h vs (List.mem_cons_self ..)
    simp [addClearWaiter, other, addClearWaiter_some w ws after fun vs hv => h vs (List.mem_cons_of_mem _ hv)]
  | .entry .. :: rest, h | .dead .. :: rest, h | .region .. :: rest, h | .log .. :: rest, h | .config .. :: rest, h => by
    simp [addClearWaiter, addClearWaiter_some w ws after fun vs hv => h vs (List.mem_cons_of_mem _ hv)]

/-- Settles O43: the answer ends the entry (`writeAnswer_taken`), and each outcome is read off the operation that takes it. -/
theorem writeAnswerIsHandedOn : Obligations.WriteAnswerIsHandedOn := by
  refine ⟨fun u e target n second expiry data poisoned s link answer c h onSpare ok hsp hok => ?answer,
    fun x j sp s hp => ⟨fun m ok wait fail result hm => ?block, ?programFail⟩,
    fun u mid m s h hmid => ⟨fun hs out => ?discarded, fun hs => ⟨?batched, ?offline, ?retried⟩⟩,
    fun u m code s => ?abandoned, fun u b x j s => ⟨fun h => ?newClear, fun before after ws he h => ?joinedClear⟩⟩
  case answer =>
    obtain rfl := eq_isSpare hsp
    obtain rfl : ok = (answer == .ok) := Bool.eq_iff_iff.mpr (hok.trans beq_iff_eq.symm)
    refine ⟨(writeEnds u e target (answer == .ok) poisoned s).1, writeOutcome u e target (answer == .ok) poisoned,
      writeAnswer_taken link h, ?_, ?_, fun v hv => chan_setChan_other _ _ _ _ hv, rfl, rfl, rfl, rfl, rfl, rfl⟩
    · obtain ⟨source, cmd, block⟩ := e
      cases source <;> rfl
    · rw [writeEnds, chan_setChan_same, noteWriteEnd_eq]
      refine (endEntry_eq _ _ _).trans ?_
      cases e.source <;> cases (s.chan u).moveBuf <;> rfl
  case block =>
    have msg : BlockMsg x j m ok wait fail result := by
      rcases hm with ⟨rfl, rfl, rfl, rfl, rfl⟩ | ⟨rfl, rfl, rfl, rfl, rfl⟩ | ⟨rfl, rfl, rfl, rfl, rfl⟩
        | ⟨spare, rfl, rfl, rfl, rfl, rfl⟩ | ⟨st, rfl, rfl, rfl, rfl, rfl⟩ | ⟨rfl, rfl, rfl, rfl, rfl⟩
        | ⟨rfl | rfl, rfl, rfl, rfl, rfl⟩ <;> constructor
    have only := setCtx_ctxOnly s x ((s.ctx x).afterBlock j ok wait fail result)
    refine ⟨_, handle_blockMsg hp msg, ?_, ?_, ?_, ?_, ?_, ?_, rfl, only.media, only.device, rfl, rfl, only.ctxs⟩
    · rw [ctx_setCtx_same, afterBlock_phase hp]
    · rintro rfl
      exact afterBlock_gone ..
    · rintro rfl
      rw [ctx_setCtx_same, afterBlock_bufs]
    all_goals rw [ctx_setCtx_same]
    · rfl
    · cases fail <;> rfl
    · cases result <;> rfl
  case programFail =>
    refine ⟨_, handle_programFail hp sp, ?_, ?_, ?_, ?_, rfl, (setCtx_ctxOnly ..).media⟩ <;> rw [ctx_setCtx_same]
    · exact setPhase_phase .awaitMove hp
    · rfl
    · rfl
    · rfl
  case discarded => exact moveWriteEnds_discarded h hs out
  case batched =>
    subst hmid
    refine ⟨_, moveWriteEnds_ok h hs, ?_⟩
    rw [rlt_setRlt_same]
    rfl
  case offline => exact moveWriteEnds_offline h hs
  case retried =>
    subst hmid
    refine ⟨_, _, moveWriteEnds_programFail h hs rfl, rfl, fun last => retryOn_last last _ _, fun more none => ?_,
      fun k more some => ?_⟩
    · rw [none]
      exact retryOn_none more _
    · rw [some, retryOn_some more]
      refine ⟨rfl, ?_, ?_⟩ <;> rw [rlt_setRlt_same]
      · rfl
      · rw [rlt_setRlt_same]
        rfl
  case abandoned =>
    refine ⟨_, _, rfl, rfl, congrArg Rlt.moves (leaveSlot_rlt u m.mid s), ?_, ?_⟩
    · exact (congrArg Rlt.table (leaveSlot_rlt u m.mid s)).trans rfl
    · unfold MoveReq.findingReport
      cases code <;> cases m.req.finding <;> rfl
  case newClear =>
    show takePoisonClear u b x j s = _
    rw [takePoisonClear, addClearWaiter_none _ h]
  case joinedClear =>
    show takePoisonClear u b x j s = _
    rw [takePoisonClear, he, addClearWaiter_some _ ws after h]

end Sys2Proof.Machine
end

section
/-! O42. The end of a read (R84, R85), and what it does at a context (R38, R42, R63) and at a move (R107). -/

namespace Sys2Proof.Machine

variable {s : State} {u : UnitId} {x : CtxId} {j : Nat} {c d : Context} {cls : ReadClass} {weak handed : Bool} {data : Bytes}

/-! ### The channel (R83, R87) -/

/-- An answer's class is never POISONED, and only a CORRECTED one is weak (R84). -/
theorem classify_range {threshold : Nat} {answer : ReadAnswer} (h : classify threshold answer = some (cls, weak, data)) :
    cls ≠ .poisoned ∧ (weak = true → cls = .corrected) := by
  unfold classify at h
  (repeat' split at h) <;> cases h <;> simp

/-- The read's data or its end reaches the bound move buffer, and a patrol read that found nothing drops its mark. -/
theorem noteReadEnd_eq (c : Channel) (e : QEntry) (data : Bytes) (hp : cls ≠ .poisoned) (hw : weak = true → cls = .corrected) :
    c.noteReadEnd e cls weak data = { c with
      moveBuf := match e.source, c.moveBuf with
        | .move mid, some b =>
          if b.mid = mid then (if cls = .uncorrectable then none else some ⟨mid, some data⟩) else some b
        | _, b => b
      marks := if e.source = .patrol ∧ cls ≠ .uncorrectable ∧ weak = false then c.marks.filter fun m => m.1 != e.block
        else c.marks } := by
  unfold Channel.noteReadEnd
  cases hs : e.source with
  | move mid =>
    cases hb : c.moveBuf with
    | none => cases c; cases hb; simp
    | some b =>
      cases c
      cases hb
      by_cases h : b.mid = mid
      · cases cls <;> simp_all
      · simp [h]
  | patrol =>
    cases cls with
    | poisoned => exact absurd rfl hp
    | corrected => cases weak <;> simp [Channel.dropMark]
    | clean | blank =>
      cases weak
      · simp [Channel.dropMark]
      · cases hw rfl
    | uncorrectable => simp
  | foreground | commit => simp

/-! ### The context of a read step (R38, R40, R63) -/

/-- What every read step that ends leaves, whatever its operation does with the block: the counts, and the rest of the device. -/
structure ReadCounted (x : CtxId) (cls : ReadClass) (weak handed : Bool) (s t : State) : Prop where
  corrected : (t.ctx x).corrected = if cls = .corrected then (s.ctx x).corrected + 1 else (s.ctx x).corrected
  weak : (t.ctx x).weak = if cls = .corrected ∧ weak = true then (s.ctx x).weak + 1 else (s.ctx x).weak
  moveReqs : (t.ctx x).moveReqs
    = if handed = true ∧ recKind (s.ctx x).record = .verify then (s.ctx x).moveReqs + 1 else (s.ctx x).moveReqs
  regions : t.regions = s.regions
  media : SameMedia s t
  device : SameDevice s t
  lanes : t.lanes = s.lanes
  others : ∀ y, y ≠ x → t.ctx y = s.ctx y

/-- Context `d` has the counts of `c`. -/
def Context.SameCounts (c d : Context) : Prop := d.corrected = c.corrected ∧ d.weak = c.weak ∧ d.moveReqs = c.moveReqs

theorem readCounted_setCtx (h : ((s.ctx x).countRead cls weak handed).SameCounts d) :
    ReadCounted x cls weak handed s (s.setCtx x d) := by
  obtain ⟨hc, hw, hm⟩ := h
  have only := setCtx_ctxOnly s x d
  refine ⟨?_, ?_, ?_, only.regions, only.media, only.device, only.lanes, only.ctxs⟩ <;> rw [ctx_setCtx_same]
  · exact hc
  · exact hw
  · exact hm

theorem ReadCounted.emit {t : State} (h : ReadCounted x cls weak handed s t) (os : List Output) :
    ReadCounted x cls weak handed s (t.emit os) :=
  ⟨h.corrected, h.weak, h.moveReqs, h.regions, h.media.emit os, h.device.emit os, h.lanes, h.others⟩

/-! ### What the operation does with the block (R23, R37, R39, R42, R46) -/

section
variable (hp : (s.ctx x).phase j ≠ none)
include hp

/-- A lost block fails (R38). -/
theorem stepEnds_lost (h : cls = .uncorrectable ∨ cls = .poisoned) :
    stepEnds x j (.read cls weak handed data) s
      = (ctxUpdate x (((s.ctx x).countRead cls weak handed).failBlock j .dataLost) s, []) := by
  rcases h with rfl | rfl <;> exact if_neg (by simpa using hp)

/-- A read with data goes on with the counted context. -/
theorem stepEnds_data (h : cls = .clean ∨ cls = .corrected ∨ cls = .blank) :
    stepEnds x j (.read cls weak handed data) s
      = readSucceeds x j data (s.setCtx x ((s.ctx x).countRead cls weak handed)) := by
  rcases h with rfl | rfl | rfl <;> exact if_neg (by simpa using hp)

end

theorem readSucceeds_read (hk : recKind c.record = .read) (hh : s.dev.state ≠ .halted) :
    readSucceeds x j data (s.setCtx x c)
      = ((s.setCtx x ((c.putData j data).setPhase j .bufferWrite)).emit (pieceWrites (c.pieces j) data), []) := by
  simp [readSucceeds, hk, State.halted, hh]

theorem readSucceeds_read_halted (hk : recKind c.record = .read) (hh : s.dev.state = .halted) :
    readSucceeds x j data (s.setCtx x c) = (ctxUpdate x (c.endBlock j) s, []) := by
  simp [readSucceeds, hk, State.halted, hh, ctxUpdate]

theorem readSucceeds_copy_aborted (hk : recKind c.record = .copy) (ha : c.abortMark = true) :
    readSucceeds x j data (s.setCtx x c) = (ctxUpdate x (c.endBlock j) s, []) := by
  simp [readSucceeds, hk, ha, ctxUpdate]

theorem readSucceeds_copy (hk : recKind c.record = .copy) (ha : c.abortMark = false) :
    readSucceeds x j data (s.setCtx x c) = issueProgram x j .program (s.setCtx x (c.putData j data)) := by
  simp [readSucceeds, hk, ha]

theorem writeRegion_copy {r : Bytes} (h : recKind r = .copy) : writeRegion r = argDstRegion r := by
  simp [writeRegion, h]

/-- A block of any other operation, of a VERIFY then, succeeds. -/
theorem readSucceeds_other (hr : recKind c.record ≠ .read) (hd : recKind c.record ≠ .digest) (hc : recKind c.record ≠ .copy) :
    readSucceeds x j data (s.setCtx x c) = (ctxUpdate x (c.succeed j) s, []) := by
  unfold readSucceeds
  simp only [ctx_setCtx_same, ctxUpdate, setCtx_setCtx]

/-! ### The digest (R42) -/

/-- A DIGEST's context with the data of block `j` in its buffer, the block counted and waiting to fold. -/
def Context.readToFold (c : Context) (j : Nat) (data : Bytes) : Context :=
  { (c.putData j data).setPhase j .fold with blocksOk := c.blocksOk + 1 }

/-- A DIGEST's context after a block is read: aborted or failed it folds no more. -/
def Context.digestRead (c : Context) (j : Nat) (data : Bytes) : Context :=
  if c.abortMark || c.failure.isSome then c.readToFold j data else foldBlocks 4 (c.readToFold j data)

theorem readSucceeds_digest (hk : recKind c.record = .digest) :
    readSucceeds x j data (s.setCtx x c) = (ctxUpdate x (c.digestRead j data) s, []) := by
  simp [readSucceeds, hk, ctxUpdate, Context.digestRead, Context.readToFold]

theorem readToFold_phase (hp : c.phase j ≠ none) (data : Bytes) : (c.readToFold j data).phase j = some .fold :=
  setPhase_phase (c := c.putData j data) .fold hp

theorem readToFold_phase_other (c : Context) (data : Bytes) {k : Nat} (h : k ≠ j) :
    (c.readToFold j data).phase k = c.phase k :=
  (setPhase_phase_other (c.putData j data) .fold h).trans rfl

theorem bufferData_eq {c d : Context} {b : Nat}
    (bound : ∀ i : Fin 4, (d.bufs[i]).bound = some b ↔ (c.bufs[i]).bound = some b)
    (same : ∀ i : Fin 4, (c.bufs[i]).bound = some b → d.bufs[i] = c.bufs[i]) : d.bufferData b = c.bufferData b := by
  have all : d.bufs.toList.map (fun v => if v.bound = some b then some v else none)
      = c.bufs.toList.map (fun v => if v.bound = some b then some v else none) := by
    refine List.ext_getElem (by simp) fun i h _ => ?_
    have hi : i < 4 := by simpa using h
    have hb := bound ⟨i, hi⟩
    have hs := same ⟨i, hi⟩
    simp only [Fin.getElem_fin] at hb hs
    simp only [List.getElem_map, Vector.getElem_toList]
    by_cases hc : (c.bufs[i]).bound = some b
    · rw [if_pos (hb.mpr hc), if_pos hc, hs hc]
    · rw [if_neg fun h => hc (hb.mp h), if_neg hc]
  have found : ∀ vs : List StagingBuf, vs.find? (fun v => v.bound == some b)
      = (vs.map fun v => if v.bound = some b then some v else none).findSome? id := by
    intro vs
    induction vs with
    | nil => rfl
    | cons v vs ih =>
      by_cases h : v.bound = some b
      · simp [h]
      · simp [h, ih]
  rw [Context.bufferData, Context.bufferData, found, found, all]

/-- The digest has taken `k` blocks from `c`'s next one on: they are gone, their buffers free. -/
structure Folded (k : Nat) (c d : Context) : Prop where
  next : d.foldNext = c.foldNext + k
  crc : d.crc = (List.range k).foldl (fun v i => crcFold v (c.bufferData (c.foldNext + i))) c.crc
  gone : ∀ b, c.foldNext ≤ b → b < c.foldNext + k → d.phase b = none
  freed : ∀ (i : Fin 4) (b : Nat), (c.bufs[i]).bound = some b → c.foldNext ≤ b → b < c.foldNext + k → d.bufs[i] = StagingBuf.free
  absent : ∀ b, c.phase b = none → d.phase b = none
  free : ∀ i : Fin 4, c.bufs[i] = StagingBuf.free → d.bufs[i] = StagingBuf.free

/-- The digest takes one block. -/
def Context.foldOne (c : Context) : Context :=
  { c.endBlock c.foldNext with crc := crcFold c.crc (c.bufferData c.foldNext), foldNext := c.foldNext + 1 }

theorem endBlock_phase_other (c : Context) {b : Nat} (h : b ≠ j) : (c.endBlock j).phase b = c.phase b := by
  unfold Context.phase
  rw [endBlock_blocks, List.find?_filter]
  congr 2
  funext e
  by_cases he : e.j = b
  · simp [he, h]
  · simp [he]

theorem foldOne_phase_other (c : Context) {b : Nat} (h : b ≠ c.foldNext) : c.foldOne.phase b = c.phase b :=
  (endBlock_phase_other c h).trans rfl

theorem foldOne_phase (c : Context) : c.foldOne.phase c.foldNext = none := endBlock_phase c c.foldNext

theorem foldOne_bufs (c : Context) (i : Fin 4) :
    c.foldOne.bufs[i] = if (c.bufs[i]).bound = some c.foldNext then StagingBuf.free else c.bufs[i] := endBlock_bufs c c.foldNext i

theorem foldOne_bufferData (c : Context) {b : Nat} (h : b ≠ c.foldNext) : c.foldOne.bufferData b = c.bufferData b := by
  refine bufferData_eq (fun i => ?_) fun i hi => ?_ <;> rw [foldOne_bufs]
  · split
    · next hb =>
      rw [hb]
      simp [StagingBuf.free, Ne.symm h]
    · rfl
  · rw [if_neg]
    rw [hi]
    simpa using h

theorem Folded.zero (c : Context) : Folded 0 c c :=
  ⟨rfl, rfl, fun b h1 h2 => absurd h1 (by omega), fun i b _ h1 h2 => absurd h1 (by omega), fun _ h => h, fun _ h => h⟩

theorem Folded.succ {k : Nat} (h : Folded k c.foldOne d) : Folded (k + 1) c d where
  next := h.next.trans (by simp only [Context.foldOne]; omega)
  crc := by
    rw [h.crc, List.range_succ_eq_map, List.foldl_cons, List.foldl_map]
    refine List.foldl_ext _ _ _ fun v i _ => ?_
    have e : c.foldOne.foldNext + i = c.foldNext + (i + 1) := by simp only [Context.foldOne]; omega
    rw [e, foldOne_bufferData c (by omega)]
  gone b h1 h2 := by
    rcases Nat.eq_or_lt_of_le h1 with rfl | h1
    · exact h.absent _ (foldOne_phase c)
    · exact h.gone b h1 (by simp only [Context.foldOne]; omega)
  freed i b hb h1 h2 := by
    rcases Nat.eq_or_lt_of_le h1 with rfl | h1
    · exact h.free i (by rw [foldOne_bufs, if_pos hb])
    · refine h.freed i b ?_ h1 (by simp only [Context.foldOne]; omega)
      rw [foldOne_bufs, if_neg (by rw [hb]; simp; omega), hb]
  absent b hb := by
    refine h.absent b ?_
    by_cases e : b = c.foldNext
    · rw [e, foldOne_phase]
    · rw [foldOne_phase_other c e, hb]
  free i hi := h.free i (by rw [foldOne_bufs, hi]; rfl)

theorem foldBlocks_stops (n : Nat) (h : c.phase c.foldNext ≠ some .fold) : foldBlocks n c = c := by
  cases n with
  | zero => rfl
  | succ n => exact if_neg h

theorem foldBlocks_takes (n : Nat) (h : c.phase c.foldNext = some .fold) : foldBlocks (n + 1) c = foldBlocks n c.foldOne :=
  if_pos h

/-- The digest takes the run of blocks read from the next one on, as far as its count goes. -/
theorem foldBlocks_folded (n : Nat) : ∀ (k : Nat) (c : Context), k ≤ n → (∀ i, i < k → c.phase (c.foldNext + i) = some .fold) →
    (k = n ∨ c.phase (c.foldNext + k) ≠ some .fold) → Folded k c (foldBlocks n c) := by
  induction n with
  | zero =>
    intro k c hk _ _
    obtain rfl : k = 0 := by omega
    exact .zero c
  | succ n ih =>
    intro k c hk run stop
    cases k with
    | zero =>
      rw [foldBlocks_stops _ (stop.resolve_left (by omega))]
      exact .zero c
    | succ k =>
      rw [foldBlocks_takes n (run 0 (by omega))]
      have shift : ∀ i, c.foldOne.foldNext + i = c.foldNext + (i + 1) := fun i => by simp only [Context.foldOne]; omega
      refine (ih k c.foldOne (by omega) (fun i hi => ?_) (stop.imp (by omega) fun stop => ?_)).succ
      · rw [shift, foldOne_phase_other c (by omega)]
        exact run (i + 1) (by omega)
      · rw [shift, foldOne_phase_other c (by omega)]
        exact stop

/-- Folding counts no block again. -/
theorem foldBlocks_counts (n : Nat) (c : Context) :
    c.SameCounts (foldBlocks n c) ∧ (foldBlocks n c).blocksOk = c.blocksOk := by
  induction n generalizing c with
  | zero => exact ⟨⟨rfl, rfl, rfl⟩, rfl⟩
  | succ n ih =>
    by_cases h : c.phase c.foldNext = some .fold
    · rw [foldBlocks_takes n h]
      exact ih c.foldOne
    · rw [foldBlocks_stops _ h]
      exact ⟨⟨rfl, rfl, rfl⟩, rfl⟩

theorem digestRead_counts (c : Context) (j : Nat) (data : Bytes) :
    c.SameCounts (c.digestRead j data) ∧ (c.digestRead j data).blocksOk = c.blocksOk + 1 := by
  unfold Context.digestRead
  split
  · exact ⟨⟨rfl, rfl, rfl⟩, rfl⟩
  · exact foldBlocks_counts 4 (c.readToFold j data)

/-- The block waits: the record is over, or a lower block has not been read. -/
theorem digestRead_waits (hp : c.phase j ≠ none) (data : Bytes)
    (h : c.abortMark = true ∨ c.failure ≠ none ∨ (j ≠ c.foldNext ∧ c.phase c.foldNext ≠ some .fold)) :
    (c.digestRead j data).phase j = some .fold ∧ (c.digestRead j data).crc = c.crc
      ∧ (c.digestRead j data).foldNext = c.foldNext := by
  have waits : c.digestRead j data = c.readToFold j data := by
    unfold Context.digestRead
    rcases h with h | h | ⟨hj, h⟩
    · exact if_pos (by simp [h])
    · exact if_pos (by simp [Option.isSome_iff_ne_none.mpr h])
    · split
      · rfl
      · refine foldBlocks_stops 4 ?_
        rw [show (c.readToFold j data).foldNext = c.foldNext from rfl, readToFold_phase_other c data (Ne.symm hj)]
        exact h
  rw [waits]
  exact ⟨readToFold_phase hp data, rfl, rfl⟩

/-- The block is the next one: the digest takes it and the `m` blocks behind it that have been read (R42). -/
theorem digestRead_folds (hp : c.phase j ≠ none) (data : Bytes) (ha : c.abortMark = false) (hf : c.failure = none)
    (hj : j = c.foldNext) {m : Nat} (hm : m ≤ 3) (run : ∀ i, i < m → c.phase (j + 1 + i) = some .fold)
    (stop : m = 3 ∨ c.phase (j + 1 + m) ≠ some .fold) : Folded (m + 1) (c.readToFold j data) (c.digestRead j data) := by
  have folds : c.digestRead j data = foldBlocks 4 (c.readToFold j data) := if_neg (by simp [ha, hf])
  have next : (c.readToFold j data).foldNext = j := hj.symm
  rw [folds]
  refine foldBlocks_folded 4 (m + 1) _ (by omega) (fun i hi => ?_) (stop.imp (by omega) fun stop => ?_) <;> rw [next]
  · cases i with
    | zero => exact readToFold_phase hp data
    | succ i =>
      rw [readToFold_phase_other c data (by omega), ← run i (by omega)]
      congr 1
      omega
  · rw [readToFold_phase_other c data (by omega)]
    rwa [show j + (m + 1) = j + 1 + m by omega]

theorem readToFold_bound (c : Context) (j : Nat) (data : Bytes) (i : Fin 4) :
    ((c.readToFold j data).bufs[i]).bound = (c.bufs[i]).bound := putData_bound c j data i

/-- The checksum takes the new block's data and then that of the blocks waiting behind it. -/
theorem readToFold_crc {i : Fin 4} (bound : (c.bufs[i]).bound = some j) (data : Bytes) (m : Nat) (v : Word32) :
    (List.range (m + 1)).foldl (fun v i => crcFold v ((c.readToFold j data).bufferData (j + i))) v
      = (List.range m).foldl (fun v i => crcFold v (c.bufferData (j + 1 + i))) (crcFold v data) := by
  have first : (c.readToFold j data).bufferData j = data := putData_bufferData data bound
  rw [List.range_succ_eq_map, List.foldl_cons, List.foldl_map, Nat.add_zero, first]
  refine List.foldl_ext _ _ _ fun v i _ => ?_
  have other : (c.readToFold j data).bufferData (j + 1 + i) = c.bufferData (j + 1 + i) := by
    refine bufferData_eq (fun k => by rw [readToFold_bound]) fun k hk => putData_other c j data k ?_
    rw [hk]
    simp only [ne_eq, Option.some.injEq]
    omega
  rw [← other, show j + i.succ = j + 1 + i by omega]

/-! ### A read step that ends, by the operation of its record -/

section
variable (hp : (s.ctx x).phase j ≠ none)
include hp

/-- UNCORRECTABLE and POISONED fail the block (R38). -/
theorem lostStep (h : cls = .uncorrectable ∨ cls = .poisoned) :
    ∃ t, stepEnds x j (.read cls weak handed data) s = (ctxSettle x t, []) ∧ ReadCounted x cls weak handed s t
      ∧ t.out = s.out ∧ BlockGone x j s t ∧ (t.ctx x).blocksOk = (s.ctx x).blocksOk
      ∧ (t.ctx x).failure = lowerFailure (s.ctx x).failure j .dataLost := by
  refine ⟨_, stepEnds_lost hp h, readCounted_setCtx ⟨rfl, rfl, rfl⟩, rfl, blockGone_setCtx rfl rfl, ?_, ?_⟩ <;>
    rw [ctx_setCtx_same] <;> rfl

variable (h : cls = .clean ∨ cls = .corrected ∨ cls = .blank)
include h

/-- The data of a READ goes to its buffer and out to the host (R37). -/
theorem readStep (hk : recKind (s.ctx x).record = .read) (hh : s.dev.state ≠ .halted) :
    ∃ t, stepEnds x j (.read cls weak handed data) s = (t, []) ∧ ReadCounted x cls weak handed s t
      ∧ (t.ctx x).phase j = some .bufferWrite
      ∧ (∀ i : Fin 4, ((s.ctx x).bufs[i]).bound = some j → (t.ctx x).bufs[i] = ⟨some j, some data⟩)
      ∧ t.out = s.out ++ pieceWrites ((s.ctx x).pieces j) data ∧ (t.ctx x).blocksOk = (s.ctx x).blocksOk := by
  have ends := (stepEnds_data hp h).trans (readSucceeds_read (j := j) (data := data)
    (c := (s.ctx x).countRead cls weak handed) hk hh)
  have counted : ReadCounted x cls weak handed s (s.setCtx x
      ((((s.ctx x).countRead cls weak handed).putData j data).setPhase j .bufferWrite)) :=
    readCounted_setCtx ⟨rfl, rfl, rfl⟩
  refine ⟨_, ends, counted.emit _, ?_, fun i hi => ?_, rfl, ?_⟩ <;> rw [emit_ctx, ctx_setCtx_same]
  · exact setPhase_phase (c := ((s.ctx x).countRead cls weak handed).putData j data) .bufferWrite hp
  · exact putData_self (c := (s.ctx x).countRead cls weak handed) data hi
  · rfl

/-- In HALTED a READ's block ends, as one of an aborted COPY does (log entry 14). -/
theorem endedStep (hk : (recKind (s.ctx x).record = .read ∧ s.dev.state = .halted)
      ∨ (recKind (s.ctx x).record = .copy ∧ (s.ctx x).abortMark = true)) :
    ∃ t, stepEnds x j (.read cls weak handed data) s = (ctxSettle x t, []) ∧ ReadCounted x cls weak handed s t
      ∧ t.out = s.out ∧ BlockGone x j s t ∧ (t.ctx x).blocksOk = (s.ctx x).blocksOk
      ∧ (t.ctx x).failure = (s.ctx x).failure := by
  have ends : stepEnds x j (.read cls weak handed data) s
      = (ctxUpdate x (((s.ctx x).countRead cls weak handed).endBlock j) s, []) := by
    rw [stepEnds_data hp h]
    rcases hk with ⟨hk, hh⟩ | ⟨hk, ha⟩
    · exact readSucceeds_read_halted hk hh
    · exact readSucceeds_copy_aborted hk ha
  refine ⟨_, ends, readCounted_setCtx ⟨rfl, rfl, rfl⟩, rfl, blockGone_setCtx rfl rfl, ?_, ?_⟩ <;>
    rw [ctx_setCtx_same] <;> rfl

/-- The block of a VERIFY succeeds (R39). -/
theorem verifyStep (hr : recKind (s.ctx x).record ≠ .read) (hd : recKind (s.ctx x).record ≠ .digest)
    (hc : recKind (s.ctx x).record ≠ .copy) :
    ∃ t, stepEnds x j (.read cls weak handed data) s = (ctxSettle x t, []) ∧ ReadCounted x cls weak handed s t
      ∧ t.out = s.out ∧ BlockGone x j s t ∧ (t.ctx x).blocksOk = (s.ctx x).blocksOk + 1
      ∧ (t.ctx x).failure = (s.ctx x).failure := by
  have ends := (stepEnds_data (data := data) hp h).trans
    (readSucceeds_other (c := (s.ctx x).countRead cls weak handed) hr hd hc)
  refine ⟨_, ends, readCounted_setCtx ⟨rfl, rfl, rfl⟩, rfl, blockGone_setCtx rfl rfl, ?_, ?_⟩ <;>
    rw [ctx_setCtx_same] <;> rfl

section
variable (hk : recKind (s.ctx x).record = .copy) (ha : (s.ctx x).abortMark = false)
include hk ha

/-- A COPY's block goes on to its program (R46). -/
theorem copyStep (hw : (s.region (argDstRegion (s.ctx x).record)).writable = true) (hr : (s.ctx x).stepRefused = false) :
    ∃ t, stepEnds x j (.read cls weak handed data) s = (t, [.foregroundArrives x j .program])
      ∧ ReadCounted x cls weak handed s t ∧ (t.ctx x).phase j = some (.outstanding .program)
      ∧ ∀ i : Fin 4, ((s.ctx x).bufs[i]).bound = some j → (t.ctx x).bufs[i] = ⟨some j, some data⟩ := by
  have ends := ((stepEnds_data hp h).trans (readSucceeds_copy (c := (s.ctx x).countRead cls weak handed) hk ha)).trans
    (issueProgram_issues (c := ((s.ctx x).countRead cls weak handed).putData j data)
      ((writeRegion_copy hk).symm ▸ hw) hr)
  refine ⟨_, ends, readCounted_setCtx ⟨rfl, rfl, rfl⟩, ?_, fun i hi => ?_⟩ <;> rw [ctx_setCtx_same]
  · exact setPhase_phase (c := ((s.ctx x).countRead cls weak handed).putData j data) (.outstanding .program) hp
  · exact putData_self (c := (s.ctx x).countRead cls weak handed) data hi

/-- Its destination is not writable, or a step was refused before: the block fails PROTECTED (R23, log entry 39). -/
theorem copyStep_refused
    (hw : (s.region (argDstRegion (s.ctx x).record)).writable = false ∨ (s.ctx x).stepRefused = true) :
    ∃ t, stepEnds x j (.read cls weak handed data) s = (ctxSettle x t, []) ∧ ReadCounted x cls weak handed s t
      ∧ BlockGone x j s t ∧ (t.ctx x).stepRefused = true
      ∧ (t.ctx x).failure = lowerFailure (s.ctx x).failure j .isProtected := by
  have ends := ((stepEnds_data hp h).trans (readSucceeds_copy (c := (s.ctx x).countRead cls weak handed) hk ha)).trans
    (issueProgram_refuses (c := ((s.ctx x).countRead cls weak handed).putData j data)
      (hw.imp_left fun hw => (writeRegion_copy hk).symm ▸ hw))
  refine ⟨_, ends, readCounted_setCtx ⟨rfl, rfl, rfl⟩, ?_, ?_, ?_⟩
  · exact .of_endBlock (((s.ctx x).countRead cls weak handed).putData j data) (by rw [ctx_setCtx_same]; rfl)
      (by rw [ctx_setCtx_same]; rfl) (putData_bound _ j data) (putData_other _ j data)
  · rw [ctx_setCtx_same]
  · rw [ctx_setCtx_same]
    rfl

end

/-- A DIGEST's block counts and waits to fold, or is folded with those behind it (R42). -/
theorem digestStep (hk : recKind (s.ctx x).record = .digest) :
    ∃ t, stepEnds x j (.read cls weak handed data) s = (ctxSettle x t, []) ∧ ReadCounted x cls weak handed s t
      ∧ t.out = s.out ∧ (t.ctx x).blocksOk = (s.ctx x).blocksOk + 1
      ∧ t.ctx x = ((s.ctx x).countRead cls weak handed).digestRead j data := by
  have ends := (stepEnds_data hp h).trans (readSucceeds_digest (j := j) (data := data)
    (c := (s.ctx x).countRead cls weak handed) hk)
  obtain ⟨same, ok⟩ := digestRead_counts ((s.ctx x).countRead cls weak handed) j data
  exact ⟨_, ends, readCounted_setCtx same, rfl, by rw [ctx_setCtx_same, ok]; rfl, ctx_setCtx_same ..⟩

end

/-! ### The outcome at a move (R107) -/

section
variable {mid : Nat} {m : Move} (h : (s.rlt u).move mid = some m)

theorem moveReadEnds_discarded (h : (s.rlt u).move mid = none ∨ ∃ m, (s.rlt u).move mid = some m ∧ m.state ≠ .reading)
    (out : MoveOutcome) : moveReadEnds u mid out s = (s, []) := by
  obtain h | ⟨m, h, hs⟩ := h
  · simp [moveReadEnds, h]
  · simp [moveReadEnds, h, hs]

variable (hs : m.state = .reading)
include h hs

theorem moveReadEnds_data : moveReadEnds u mid .data s
    = (s.setRlt u ((s.rlt u).putMove { m with state := .writing }), [Move.fill { m with state := .writing } u]) := by
  simp [moveReadEnds, h, hs]

/-- The move goes on as a poison move (R107). -/
theorem moveReadEnds_uncorrectable {n : Move} (hn : n = { m with
      state := .writing
      req := { m.req with cause := .readLost, waiters := m.req.waiters.filter fun w => !w.directed } }) :
    moveReadEnds u mid .uncorrectable s
      = ((postDataLost u m.req.src 3 m.req.lane s).setRlt u ((s.rlt u).putMove n),
        waitersEnd (m.req.waiters.filter fun w => w.directed) (fun _ => .failed .dataLost) ++ [n.fill u]) := by
  have rlt : (postDataLost u m.req.src 3 m.req.lane s).rlt u = s.rlt u := by
    obtain ⟨n, e⟩ := postDataLost_ntuOnly u m.req.src 3 m.req.lane s
    rw [e, setNtu_rlt]
  subst hn
  simp [moveReadEnds, h, hs, rlt]

theorem moveReadEnds_poisoned : moveReadEnds u mid .poisoned s
    = ((leaveSlot u mid s).1, (leaveSlot u mid s).2
        ++ m.req.waiters.map (fun w => .blockEnds w.ctx w.j (.failed .dataLost)) ++ m.req.findingReport u .abandoned
        ++ [.slotFreed u]) := by
  simp [moveReadEnds, h, hs, waitersEnd]

theorem moveReadEnds_offline : moveReadEnds u mid .offline s = abandonMove u m .unitOffline s := by
  simp [moveReadEnds, h, hs]

end

/-- Settles O42: the answer ends the entry (`readAnswer_taken`), and each outcome is read off the operation that takes it. -/
theorem readAnswerIsClassified : Obligations.ReadAnswerIsClassified := by
  refine ⟨fun u e target n second expiry data poisoned s link cmd answer cls weak d ha onSpare hsp => ?answer,
    fun u b s => ?deferred, fun x j out sp s hp => if_pos (by simpa using hp),
    fun x j cls weak handed sp data s hp => ?step, fun u mid out sp s h => moveReadEnds_discarded h out,
    fun u mid sp m s h hs hmid => ⟨?data, ?uncorrectable, moveReadEnds_poisoned h hs, moveReadEnds_offline h hs⟩⟩
  case answer =>
    obtain rfl := eq_isSpare hsp
    have classified : classify s.patrol.cfg.weak answer = some (cls, weak, d) := by
      rcases ha with ⟨v, rfl, rfl, rfl, rfl⟩ | ⟨k, v, rfl, low, high, rfl, rfl, rfl⟩ | ⟨rfl, rfl, rfl, rfl⟩ | ⟨rfl, rfl, rfl, rfl⟩
      · rfl
      · exact if_pos ⟨low, high⟩
      · rfl
      · rfl
    obtain ⟨hp, hw⟩ := classify_range classified
    refine ⟨(readEnds u e target cls weak d s).1, readOutcome u e target cls weak d, readAnswer_taken link cmd classified, ?_, ?_,
      fun v hv => chan_setChan_other _ _ _ _ hv, rfl, rfl, rfl, rfl, rfl, rfl⟩
    · obtain ⟨source, cmd', block⟩ := e
      cases source <;> rfl
    · rw [readEnds, chan_setChan_same, noteReadEnd_eq _ _ _ hp hw]
      refine (endEntry_eq _ _ _).trans ?_
      cases e.source <;> cases (s.chan u).moveBuf <;> rfl
  case deferred =>
    show takeDeferred u b s = _
    rw [takeDeferred, List.map_map]
    rfl
  case step =>
    by_cases lost : cls = .uncorrectable ∨ cls = .poisoned
    case pos =>
      have noData : ¬ (cls = .clean ∨ cls = .corrected ∨ cls = .blank) := by rcases lost with rfl | rfl <;> simp
      obtain ⟨t, ends, ⟨hc, hw, hm, hr, media, device, lanes, others⟩, out, gone, ok, failure⟩ := lostStep hp lost
      exact ⟨t, [], true, ⟨nofun, fun h => absurd h.1 noData⟩, ends, hc, hw, hm, hr, media, device, lanes, others,
        fun _ => ⟨rfl, out, gone, ok, failure⟩, fun h => absurd h noData⟩
    case neg =>
    have withData : cls = .clean ∨ cls = .corrected ∨ cls = .blank := by cases cls <;> simp_all
    by_cases hread : recKind (s.ctx x).record = .read
    case pos =>
      by_cases hh : s.dev.state = .halted
      case pos =>
        obtain ⟨t, ends, ⟨hc, hw, hm, hr, media, device, lanes, others⟩, out, gone, ok, failure⟩ :=
          endedStep hp withData (.inl ⟨hread, hh⟩)
        refine ⟨t, [], true, by simp [hread, hh], ends, hc, hw, hm, hr, media, device, lanes, others, fun h => absurd h lost,
          fun _ => ?_⟩
        rw [hread]
        exact ⟨nofun, fun _ h => absurd hh h, fun _ _ => ⟨rfl, gone, out, ok, failure⟩, nofun, nofun, nofun⟩
      case neg =>
        obtain ⟨t, ends, ⟨hc, hw, hm, hr, media, device, lanes, others⟩, phase, bufs, out, ok⟩ := readStep hp withData hread hh
        refine ⟨t, [], false, by simp [hread, hh, withData], ends, hc, hw, hm, hr, media, device, lanes, others,
          fun h => absurd h lost, fun _ => ?_⟩
        rw [hread]
        exact ⟨nofun, fun _ _ => ⟨rfl, phase, bufs, out, ok⟩, fun _ h => absurd h hh, nofun, nofun, nofun⟩
    case neg =>
    by_cases hdigest : recKind (s.ctx x).record = .digest
    case pos =>
      obtain ⟨t, ends, ⟨hc, hw, hm, hr, media, device, lanes, others⟩, out, ok, ctx⟩ := digestStep hp withData hdigest
      refine ⟨t, [], true, by simp [hdigest], ends, hc, hw, hm, hr, media, device, lanes, others, fun h => absurd h lost,
        fun _ => ?_⟩
      rw [hdigest]
      refine ⟨nofun, nofun, nofun, nofun, nofun, fun _ => ⟨rfl, ok, out, fun h => ?_, fun ha hf hj ⟨i, hi⟩ m hm run stop => ?_⟩⟩ <;>
        rw [ctx]
      · exact digestRead_waits (c := (s.ctx x).countRead cls weak handed) hp data h
      · have folded := digestRead_folds (c := (s.ctx x).countRead cls weak handed) hp data ha hf hj hm run stop
        have next : (((s.ctx x).countRead cls weak handed).readToFold j data).foldNext = j := hj.symm
        have crc := folded.crc
        rw [next, readToFold_crc (c := (s.ctx x).countRead cls weak handed) hi] at crc
        refine ⟨folded.next.trans (by rw [next]; omega), fun b h1 h2 => ⟨folded.gone b (by omega) (by omega), fun k hk => ?_⟩, crc⟩
        exact folded.freed k b ((readToFold_bound ..).trans hk) (by omega) (by omega)
    case neg =>
    by_cases hcopy : recKind (s.ctx x).record = .copy
    case pos =>
      by_cases ha : (s.ctx x).abortMark = true
      case pos =>
        obtain ⟨t, ends, ⟨hc, hw, hm, hr, media, device, lanes, others⟩, out, gone, ok, failure⟩ :=
          endedStep hp withData (.inr ⟨hcopy, ha⟩)
        refine ⟨t, [], true, by simp [hcopy, ha], ends, hc, hw, hm, hr, media, device, lanes, others, fun h => absurd h lost,
          fun _ => ?_⟩
        rw [hcopy, ha]
        exact ⟨nofun, nofun, nofun, fun _ _ => ⟨rfl, gone, failure, ok⟩, nofun, nofun⟩
      case neg =>
      rw [Bool.not_eq_true] at ha
      by_cases issues : (s.region (argDstRegion (s.ctx x).record)).writable = true ∧ (s.ctx x).stepRefused = false
      case pos =>
        obtain ⟨writable, unrefused⟩ := issues
        obtain ⟨t, ends, ⟨hc, hw, hm, hr, media, device, lanes, others⟩, phase, bufs⟩ :=
          copyStep hp withData hcopy ha writable unrefused
        refine ⟨t, [.foregroundArrives x j .program], false, by simp [hcopy, ha, withData, writable, unrefused], ends, hc, hw, hm,
          hr, media, device, lanes, others, fun h => absurd h lost, fun _ => ?_⟩
        rw [hcopy, ha, writable, unrefused]
        exact ⟨nofun, nofun, nofun, nofun, fun _ _ => ⟨fun _ _ => ⟨rfl, phase, bufs⟩, nofun⟩, nofun⟩
      case neg =>
        have refuses : (s.region (argDstRegion (s.ctx x).record)).writable = false ∨ (s.ctx x).stepRefused = true := by
          simpa [Decidable.or_iff_not_imp_left] using issues
        obtain ⟨t, ends, ⟨hc, hw, hm, hr, media, device, lanes, others⟩, gone, refused, failure⟩ :=
          copyStep_refused hp withData hcopy ha refuses
        refine ⟨t, [], true, ⟨nofun, fun h => ?_⟩, ends, hc, hw, hm, hr, media, device, lanes, others, fun h => absurd h lost,
          fun _ => ?_⟩
        · rcases h.2 with ⟨h, -⟩ | ⟨-, -, h⟩
          · exact absurd h hread
          · exact absurd h issues
        · rw [hcopy, ha]
          exact ⟨nofun, nofun, nofun, nofun,
            fun _ _ => ⟨fun h1 h2 => absurd ⟨h1, h2⟩ issues, fun _ => ⟨rfl, gone, refused, failure⟩⟩, nofun⟩
    case neg =>
      obtain ⟨t, ends, ⟨hc, hw, hm, hr, media, device, lanes, others⟩, out, gone, ok, failure⟩ :=
        verifyStep hp withData hread hdigest hcopy
      exact ⟨t, [], true, by simp [hread, hcopy], ends, hc, hw, hm, hr, media, device, lanes, others, fun h => absurd h lost,
        fun _ => ⟨fun _ => ⟨rfl, out, gone, ok, failure⟩, fun h => absurd h hread, fun h => absurd h hread,
          fun h => absurd h hcopy, fun h => absurd h hcopy, fun h => absurd h hdigest⟩⟩
  case data =>
    subst hmid
    refine ⟨_, moveReadEnds_data h hs, ?_⟩
    rw [rlt_setRlt_same]
    rfl
  case uncorrectable =>
    subst hmid
    refine ⟨_, _, moveReadEnds_uncorrectable h hs rfl, rfl, rfl, ?_⟩
    rw [rlt_setRlt_same]
    rfl

end Sys2Proof.Machine
end

section
/-! O41. The probe (R91, R140, R153, R154, R192, R193): the IDENTIFY answer, the start-up reads and their judging, the choice
among the valid copies, and the state the probe ends in. -/

namespace Sys2Proof.Machine

variable {s : State} {u : UnitId} {sl : Slot} {second : Bool} {n : Nat} {expiry : Tick}

/-! ### The IDENTIFY answer (R73, R91) -/

theorem identityAnswer_taken (link : (s.chan u).link = .identify second n expiry) (size count : Word32) :
    exec (.identifyAnswer u n (.identity size count)) s
      = .next (runEvent (identifyEnds u (decide (size = 4096#32 ∧ count = 66592#32)) s)) := by
  have valid : identityValid size count = decide (size = 4096#32 ∧ count = 66592#32) := by
    rw [Bool.decide_and]
    rfl
  rw [identifyAnswer_taken link, valid]

/-! ### The tests on a copy (R140) -/

theorem Slot.code_eq (sl : Slot) : sl.code = match sl with | .a => 1 | .b => 2 := by cases sl <;> rfl

/-- The counts of the units by the header. -/
theorem headerCounts_iff (b : Bytes) :
    [0, 1, 2, 3].all (fun k => decide (hdrEntries b k ≤ 1024) && (decide (k < hdrWidth b) || hdrEntries b k == 0)) = true
      ↔ ∀ k, k < 4 → field b (36 + 2 * k) 2 ≤ 1024 ∧ ((byteAt b 16).toNat ≤ k → field b (36 + 2 * k) 2 = 0) := by
  rw [show [0, 1, 2, 3] = List.range 4 from rfl, List.all_eq_true]
  simp only [List.mem_range, Bool.and_eq_true, decide_eq_true_eq, Bool.or_eq_true, beq_iff_eq, ← not_le (a := hdrWidth b),
    ← imp_iff_not_or]
  rfl

theorem headerOk_iff (u : UnitId) (sl : Slot) (b : Bytes) : headerOk u sl b = true ↔ HeaderValid u sl b := by
  unfold headerOk
  rw [Bool.and_eq_true, Bool.and_eq_true, headerCounts_iff, Bool.and_eq_true, isMirrorUnder_iff, Slot.code_eq]
  simp only [Bool.and_eq_true, Bool.or_eq_true, decide_eq_true_eq, beq_iff_eq, and_assoc, or_assoc]
  refine ⟨fun ⟨format, width, low, high, pointer, auto, weak, weak', pace, settle, settle', copyUnit, copySlot, mirror, counts,
    content⟩ => ?_, fun h => ?_⟩
  · exact ⟨format, width, ⟨low, high⟩, pointer, ⟨auto, weak, weak', pace, settle, settle'⟩, copyUnit, copySlot, mirror, counts,
      content⟩
  · obtain ⟨auto, weak, weak', pace, settle, settle'⟩ := h.settings
    exact ⟨h.format, h.width, h.blocks.1, h.blocks.2, h.pointer, auto, weak, weak', pace, settle, settle', h.copyUnit,
      h.copySlot, h.mirror, h.counts, h.content⟩

/-- Strictly ascending is what neighbours show. -/
theorem ascending_iff (xs : List Nat) : ascending xs = true ↔ xs.Pairwise (· < ·) := by
  rw [← List.isChain_iff_pairwise]
  induction xs with
  | nil => simp [ascending]
  | cons a rest ih =>
    cases rest with
    | nil => simp [ascending]
    | cons b rest => simp [ascending, ih]

theorem distinct_iff (xs : List Nat) : distinct xs = true ↔ xs.Nodup := by
  induction xs with
  | nil => simp [distinct]
  | cons a rest ih => simp [distinct, ih]

theorem tableLaws_iff (t : UnitTable) (gen : Nat) : tableLaws t gen = true ↔
    (t.entries.map RelEntry.src).Pairwise (· < ·) ∧ (t.entries.map RelEntry.spare).Nodup
      ∧ ∀ e ∈ t.entries, e.spare ∉ t.dead ∧ e.spare < 1024 ∧ 1 ≤ e.gen ∧ e.gen ≤ gen := by
  simp [tableLaws, ascending_iff, distinct_iff, Config.spares, and_assoc]

/-- A law on the first entries of a table, as a test walks over their indices. -/
theorem all_range_iff {α : Type} {m n : Nat} (v : Vector (Option α) n) (p : Nat → Bool) {q : Nat → α → Prop} (le : m ≤ n)
    (none : ∀ i, (v[i]?).join = none → p i = true) (some : ∀ i a, (v[i]?).join = some a → (p i = true ↔ q i a)) :
    (List.range m).all p = true ↔ ∀ (i : Fin n) (a : α), i.val < m → v[i] = .some a → q i.val a := by
  have entry (i : Fin n) : (v[i.val]?).join = v[i] := by rw [Vector.getElem?_eq_getElem i.isLt]; rfl
  rw [List.all_eq_true]
  refine ⟨fun h i a lt e => (some i a ((entry i).trans e)).mp (h i (List.mem_range.mpr lt)), fun h i hi => ?_⟩
  have lt := List.mem_range.mp hi
  cases e : v[(⟨i, lt.trans_le le⟩ : Fin n)] with
  | none => exact none i ((entry ⟨i, _⟩).trans e)
  | some a => exact (some i a ((entry ⟨i, _⟩).trans e)).mpr (h ⟨i, _⟩ a lt e)

/-- The laws of the regions, by the region they are tested on. -/
theorem regionLaws_iff (b : Bytes) (im : Image) : regionLaws b im = true ↔
    ∀ (i : Fin 32) (d : RegionDef), im.tables.regions[i] = some d →
      ((byteAt ((b.drop (512 + 32 * i.val)).take 32) 2).toNat ≤ 2
        ∧ (byteAt ((b.drop (512 + 32 * i.val)).take 32) 2 ≠ 2 → field ((b.drop (512 + 32 * i.val)).take 32) 16 8 = 0))
      ∧ (1 ≤ d.length ∧ d.base + d.length ≤ im.width * 65536)
      ∧ ∀ (k : Fin 32) (e : RegionDef), k < i → im.tables.regions[k] = some e →
          d.base + d.length ≤ e.base ∨ e.base + e.length ≤ d.base := by
  unfold regionLaws
  rw [all_range_iff im.tables.regions _ le_rfl (fun i h => by simp only [h]) (fun i d h => by simp only [h]; exact Iff.rfl)]
  refine forall_congr' fun i => forall_congr' fun d => ?_
  rw [forall_prop_of_true i.isLt, Bool.and_eq_true,
    all_range_iff im.tables.regions _ i.isLt.le (fun k h => by simp only [h]) (fun k e h => by simp only [h]; exact Iff.rfl)]
  simp only [Bool.and_eq_true, Bool.or_eq_true, decide_eq_true_eq, beq_iff_eq, Config.dataBlocks, and_assoc, ne_eq,
    imp_iff_not_or, not_not, Bool.not_eq_true', windowsMeet_eq_false_iff, Fin.lt_def]

theorem causeLaws_iff (b : Bytes) : causeLaws b = true ↔ ∀ k, k < field b 36 2 + field b 38 2 + field b 40 2 + field b 42 2 →
    1 ≤ (byteAt b (3072 + 14 * k + 4)).toNat ∧ (byteAt b (3072 + 14 * k + 4)).toNat ≤ 5 := by
  simp [causeLaws, hdrTotal, hdrEntries]

theorem logLaws_iff (b : Bytes) (im : Image) : logLaws b im = true ↔
    ∀ (i : Fin 16) (e : LogEntry), im.tables.log.slots[i] = some e →
      1 ≤ e.endGen ∧ e.endGen ≤ im.gen
        ∧ 1 ≤ (byteAt b (1536 + 64 * i.val + 4)).toNat ∧ (byteAt b (1536 + 64 * i.val + 4)).toNat ≤ 3 := by
  unfold logLaws
  rw [all_range_iff im.tables.log.slots _ le_rfl (fun i h => by simp only [h]) (fun i e h => by simp only [h]; exact Iff.rfl)]
  simp only [Fin.is_lt, forall_true_left, Bool.and_eq_true, decide_eq_true_eq, and_assoc]

theorem copyOk_iff (b : Bytes) : copyOk b = true ↔ CopyValid b := by
  have units (p : UnitTable → Bool) : (imageOfBytes b).tables.units.toList.all p = true
      ↔ ∀ u : Fin 4, p (imageOfBytes b).tables.units[u] = true := by
    simp [Fin.forall_iff]
  unfold copyOk
  dsimp only
  rw [Bool.and_eq_true, Bool.and_eq_true, Bool.and_eq_true, Bool.and_eq_true, Bool.and_eq_true, logLaws_iff, causeLaws_iff, units,
    regionLaws_iff, decide_eq_true_eq, beq_iff_eq]
  simp only [tableLaws_iff]
  refine ⟨fun ⟨⟨⟨⟨⟨check, gen⟩, regions⟩, tables⟩, causes⟩, log⟩ => ?_, fun h => ?_⟩
  · exact ⟨check, gen, fun i d e => (regions i d e).2.1, fun i k d e lt hd he => (regions i d hd).2.2 k e lt he,
      fun i d raw e hr => hr ▸ (regions i d e).1, fun u t ht => ht ▸ tables u, causes, log⟩
  · exact ⟨⟨⟨⟨⟨h.check, h.gen⟩, fun i d e => ⟨h.states i d _ e rfl, h.windows i d e, fun k d' lt e' => h.apart i k d d' lt e e'⟩⟩,
      fun u => h.entries u _ rfl⟩, h.causes⟩, h.log⟩

/-! ### A start-up read that ends (R153) -/

theorem loadRead_eq (u : UnitId) (sl : Slot) (k : Nat) :
    loadRead u sl k = .commitEntryArrives u .read ((match sl with | .a => 66560 | .b => 66576) + k) := by
  cases sl <;> rfl

theorem judgeCopy_valid {blocks : List Bytes} (h : CopyValid blocks.flatten) :
    judgeCopy blocks = some (imageOfBytes blocks.flatten) := if_pos ((copyOk_iff _).mpr h)

theorem judgeCopy_invalid {blocks : List Bytes} (h : ¬ CopyValid blocks.flatten) : judgeCopy blocks = none :=
  if_neg fun ok => h ((copyOk_iff _).mp ok)

section
variable (slot : (s.load u).slot = some sl)
include slot

/-- A lost unit has no valid copy and reads no more. -/
theorem loadReadEnds_offline (h : (s.chan u).state = .offline) (data : Option Bytes) :
    loadReadEnds u data s = (s.setLoad u ⟨none, [], none, none⟩, [.probeCheck]) := by
  unfold loadReadEnds
  simp only [slot, h, if_true]

variable (live : (s.chan u).state ≠ .offline)
include live

theorem loadReadEnds_noData : loadReadEnds u none s = slotJudged u sl none s := by
  unfold loadReadEnds
  simp only [slot, live, if_false]

/-- Block 0 of a slot that does not pass the header's tests ends the slot. -/
theorem loadReadEnds_refused {d : Bytes} (first : (s.load u).blocks = []) (bad : ¬ HeaderValid u sl d) :
    loadReadEnds u (some d) s = slotJudged u sl none s := by
  rw [← headerOk_iff] at bad
  have refused : (!headerOk u sl d) = true := by simpa using bad
  unfold loadReadEnds
  simp only [slot, live, if_false, first, List.isEmpty_nil, Bool.true_and, refused, if_true]

/-- Any other block is kept until the header's number of blocks is read. -/
theorem loadReadEnds_taken {d : Bytes} (ok : (s.load u).blocks = [] → HeaderValid u sl d) : loadReadEnds u (some d) s
    = if ((s.load u).blocks ++ [d]).length < hdrBlocks (((s.load u).blocks ++ [d]).headD []) then
        (s.setLoad u { s.load u with blocks := (s.load u).blocks ++ [d] }, [loadRead u sl ((s.load u).blocks ++ [d]).length])
      else slotJudged u sl (judgeCopy ((s.load u).blocks ++ [d])) s := by
  have passed : ¬ ((s.load u).blocks.isEmpty && !headerOk u sl d) = true := by
    simpa [headerOk_iff] using ok
  unfold loadReadEnds
  simp only [slot, live, if_false, passed, Bool.false_eq_true]

end

/-! ### The valid copies and the choice among them (R154) -/

theorem mem_validCopies (s : State) (k : Image) :
    k ∈ validCopies s ↔ ∃ u, (s.load u).copyA = some k ∨ (s.load u).copyB = some k := by
  simp [validCopies, mem_four]

theorem validCopies_eq_nil (s : State) :
    validCopies s = [] ↔ ∀ u, (s.load u).copyA = none ∧ (s.load u).copyB = none := by
  simp [validCopies, mem_four]

theorem below_iff (a b : Image) : a.below b = true ↔ a.gen < b.gen ∨ (a.gen = b.gen ∧ a.wseq < b.wseq) := by
  simp [Image.below]

theorem chooseImage_eq_none (cs : List Image) : chooseImage cs = none ↔ cs = [] := by
  cases cs with
  | nil => simp [chooseImage]
  | cons a rest =>
    unfold chooseImage
    (repeat' split) <;> simp

/-- The chosen copy is the first that none exceeds. -/
theorem chooseImage_first {cs : List Image} {im : Image} (h : chooseImage cs = some im) :
    ∃ before after, cs = before ++ im :: after
      ∧ (∀ k ∈ before, k.gen < im.gen ∨ (k.gen = im.gen ∧ k.wseq < im.wseq))
      ∧ ∀ k ∈ after, k.gen < im.gen ∨ (k.gen = im.gen ∧ k.wseq ≤ im.wseq) := by
  induction cs generalizing im with
  | nil => simp [chooseImage] at h
  | cons a rest ih =>
    unfold chooseImage at h
    split at h
    · next b best =>
      obtain ⟨before, after, rfl, lower, upper⟩ := ih best
      split at h
      · next lt =>
        obtain rfl := Option.some.inj h
        exact ⟨a :: before, after, rfl, List.forall_mem_cons.mpr ⟨(below_iff _ _).mp lt, lower⟩, upper⟩
      · next ge =>
        obtain rfl := Option.some.inj h
        rw [below_iff] at ge
        refine ⟨[], _, rfl, by simp, fun k hk => ?_⟩
        rcases List.mem_append.mp hk with hk | hk
        · have := lower k hk; omega
        · rcases List.mem_cons.mp hk with rfl | hk
          · omega
          · have := upper k hk; omega
    · next none =>
      obtain rfl := (chooseImage_eq_none rest).mp none
      obtain rfl := Option.some.inj h
      exact ⟨[], [], rfl, by simp, by simp⟩

/-! ### The layout of a fresh start (R193) -/

theorem freshWidth_eq_some (s : State) (n : Nat) : freshWidth s = some n ↔
    (n = 1 ∨ n = 2 ∨ n = 4) ∧ ∀ u : UnitId, (s.chan u).identified = some true ↔ u.val < n := by
  have fits (n : Nat) : (four.all fun u => present s u == decide (u.val < n)) = true
      ↔ ∀ u : UnitId, (s.chan u).identified = some true ↔ u.val < n := by
    rw [List.all_eq_true]
    refine ⟨fun h u => ?_, fun h u _ => ?_⟩
    · have fit := h u (mem_four u)
      rwa [beq_iff_eq, present, Bool.eq_iff_iff, beq_iff_eq, decide_eq_true_eq] at fit
    · rw [beq_iff_eq, present, Bool.eq_iff_iff, beq_iff_eq, decide_eq_true_eq]
      exact h u
  -- two widths that fit the same units are the same
  have unique {m : Nat} (hm : m ≤ 4) (hn : n ≤ 4) (fm : ∀ u : UnitId, (s.chan u).identified = some true ↔ u.val < m)
      (fn : ∀ u : UnitId, (s.chan u).identified = some true ↔ u.val < n) : m = n := by
    have same : ∀ u : UnitId, u.val < m ↔ u.val < n := fun u => (fm u).symm.trans (fn u)
    have h0 := same 0
    have h1 := same 1
    have h2 := same 2
    have h3 := same 3
    simp at h0 h1 h2 h3
    omega
  unfold freshWidth
  constructor
  · intro h
    have mem := List.mem_of_find?_eq_some h
    have passed := List.find?_some h
    exact ⟨by simpa using mem, (fits n).mp passed⟩
  · rintro ⟨width, fn⟩
    have mem : n ∈ [1, 2, 4] := by simpa using width
    cases found : [1, 2, 4].find? fun n => four.all fun u => present s u == decide (u.val < n) with
    | none => exact absurd ((fits n).mpr fn) (List.find?_eq_none.mp found n mem)
    | some m =>
      have width' : m ∈ [1, 2, 4] := List.mem_of_find?_eq_some found
      have passed := List.find?_some found
      have bounded : ∀ k ∈ [1, 2, 4], k ≤ 4 := by decide
      rw [unique (bounded m width') (bounded n mem) ((fits m).mp passed) fn]

/-! ### The copy that is loaded (R154) -/

theorem loadImage_region (im : Image) (s : State) (i : Fin 32) :
    (loadImage im s).region i.val = { RegionEntry.undefined with live := im.tables.regions[i] } := by
  have regions : (loadImage im s).regions = mapVec (fun live => { RegionEntry.undefined with live := live }) im.tables.regions :=
    rfl
  rw [State.region, regions, Vector.getElem?_eq_getElem i.isLt, getElem_mapVec]
  rfl

/-- The image of a fresh start defines no region. -/
theorem fresh_regions (i : Fin 32) : Image.fresh.tables.regions[i] = none := Vector.getElem_replicate ..

theorem slotRecordOf_eq (best : Image) (copy : Option Image) : slotRecordOf best copy
    = match copy with
      | none => none
      | some k => if k.gen = best.gen ∧ k.wseq < best.wseq then none else some (k.gen, k.wseq) := by
  cases copy <;> rfl

/-- The two mirrors' slots have records, by the valid copies found in them. -/
theorem loadImage_slotRecord (im : Image) (s : State) (u : UnitId) (sl : Slot) (h : u.val < 2) :
    (loadImage im s).cme.slotRecord u sl
      = slotRecordOf im (match sl with | .a => (s.load u).copyA | .b => (s.load u).copyB) := by
  rcases (by omega : u.val = 0 ∨ u.val = 1) with e | e
  · obtain rfl : u = 0 := Fin.ext e
    cases sl <;> rfl
  · obtain rfl : u = 1 := Fin.ext e
    cases sl <;> rfl

theorem slotRecord_of_ge (c : Cme) (u : UnitId) (sl : Slot) (h : 2 ≤ u.val) : c.slotRecord u sl = none := by
  unfold Cme.slotRecord
  rw [Vector.getElem?_eq_none (by omega)]
  rfl

/-- The greatest of a list of numbers, and none below `a`. -/
theorem foldl_max_greatest (xs : List Nat) (a : Nat) :
    (∀ x ∈ xs, x ≤ xs.foldl max a) ∧ a ≤ xs.foldl max a ∧ (xs.foldl max a = a ∨ xs.foldl max a ∈ xs) := by
  induction xs generalizing a with
  | nil => simp
  | cons b xs ih =>
    obtain ⟨upper, start, attained⟩ := ih (max a b)
    refine ⟨List.forall_mem_cons.mpr ⟨(le_max_right a b).trans start, upper⟩, (le_max_left a b).trans start, ?_⟩
    rcases attained with e | mem
    · rcases max_choice a b with ea | eb
      · exact .inl (e.trans ea)
      · exact .inr (by rw [List.foldl_cons, e, eb]; exact List.mem_cons_self)
    · exact .inr (List.mem_cons_of_mem _ mem)

/-- The write sequence is the highest of the valid copies (R154). -/
theorem loadImage_wseq (im : Image) (s : State) (h : validCopies s ≠ []) :
    (∀ k ∈ validCopies s, k.wseq ≤ (loadImage im s).cme.wseq) ∧ ∃ k ∈ validCopies s, (loadImage im s).cme.wseq = k.wseq := by
  obtain ⟨upper, -, attained⟩ := foldl_max_greatest ((validCopies s).map Image.wseq) 0
  have bound : ∀ k ∈ validCopies s, k.wseq ≤ (loadImage im s).cme.wseq := fun k hk => upper _ (List.mem_map_of_mem hk)
  refine ⟨bound, ?_⟩
  rcases attained with zero | mem
  · obtain ⟨k, hk⟩ := List.exists_mem_of_ne_nil _ h
    have low := bound k hk
    rw [show (loadImage im s).cme.wseq = 0 from zero] at low ⊢
    exact ⟨k, hk, (Nat.le_zero.mp low).symm⟩
  · obtain ⟨k, hk, e⟩ := List.mem_map.mp mem
    exact ⟨k, hk, e.symm⟩

/-! ### The probe passes (R192) -/

/-- A channel of each unit of a list is renewed from what a change to another channel leaves as it is. -/
theorem forEach_setChan (f : UnitId → State → Channel) (apart : ∀ u v c t, v ≠ u → f u (t.setChan v c) = f u t)
    (xs : List UnitId) (hn : xs.Nodup) (s : State) :
    forEach xs (fun u t => t.setChan u (f u t)) s = { s with chans := (forEach xs (fun u t => t.setChan u (f u t)) s).chans }
      ∧ (∀ u ∉ xs, (forEach xs (fun u t => t.setChan u (f u t)) s).chan u = s.chan u)
      ∧ ∀ u ∈ xs, (forEach xs (fun u t => t.setChan u (f u t)) s).chan u = f u s := by
  induction xs generalizing s with
  | nil => exact ⟨rfl, fun _ _ => rfl, by simp⟩
  | cons a xs ih =>
    obtain ⟨ha, hn⟩ := List.nodup_cons.mp hn
    obtain ⟨rest, other, mem⟩ := ih hn (s.setChan a (f a s))
    refine ⟨rest, fun u hu => ?_, fun u hu => ?_⟩
    · obtain ⟨ne, hu⟩ := not_or.mp (mt List.mem_cons.mpr hu)
      exact (other u hu).trans (chan_setChan_other _ _ _ _ ne)
    · rcases List.mem_cons.mp hu with rfl | hu
      · exact (other _ ha).trans (chan_setChan_same ..)
      · exact (mem u hu).trans (apart _ _ _ _ fun e => ha (e ▸ hu))

/-- A unit's state by the table of R91. -/
theorem settledState_eq (s : State) (u : UnitId) : settledState s u
    = if (s.chan u).identified = some true then
        if (s.chan u).state = .offline then .offline
        else if u.val < s.width ∧ (s.rlt u).table.freeCount = 0 then .degraded else .online
      else if u.val < s.width then .offline else .absent := by
  simp [settledState, State.isMember]

/-- A probe that has passed at `s` with width `n`: width, device state, engine and channels change, and nothing else here. -/
structure ProbePassed (n : Nat) (s t : State) : Prop where
  width : t.width = n
  dev : t.dev = { s.dev with state := .stopped }
  cme : t.cme = { s.cme with state := .idle, loads := Vector.replicate 4 UnitLoad.cold }
  regions : t.regions = s.regions
  rlts : t.rlts = s.rlts
  log : t.log = s.log
  patrol : t.patrol = s.patrol
  out : t.out = s.out
  lif : t.lif = s.lif
  lanes : t.lanes = s.lanes
  ctxs : t.ctxs = s.ctxs
  member : ∀ u : UnitId, (t.chan u).member = decide (u.val < n)
  state : ∀ u : UnitId, (t.chan u).state
    = if (s.chan u).identified = some true then
        if (s.chan u).state = .offline then .offline
        else if u.val < n ∧ (s.rlt u).table.freeCount = 0 then .degraded else .online
      else if u.val < n then .offline else .absent

theorem probePasses_passed (n : Nat) (s : State) : ProbePassed n s (probePasses n s) := by
  have settle := forEach_setChan
    (fun u t => { t.chan u with state := settledState t u, member := t.isMember u })
    (fun u v c t ne => by
      simp only [settledState_eq, State.isMember, chan_setChan_other _ _ _ _ ne.symm]
      rfl) four (by decide) { s with width := n }
  obtain ⟨rest, -, chans⟩ := settle
  have passes : probePasses n s = { s with
      width := n
      chans := (probePasses n s).chans
      dev := { s.dev with state := .stopped }
      cme := { s.cme with state := .idle, loads := Vector.replicate 4 UnitLoad.cold } } :=
    congrArg (fun t : State => (loadsOver t).setDev { t.dev with state := .stopped }) rest
  have chan (u : UnitId) : (probePasses n s).chan u
      = { s.chan u with state := settledState { s with width := n } u, member := decide (u.val < n) } := chans u (mem_four u)
  exact ⟨(congrArg State.width passes :), (congrArg State.dev passes :), (congrArg State.cme passes :),
    (congrArg State.regions passes :), (congrArg State.rlts passes :), (congrArg State.log passes :),
    (congrArg State.patrol passes :), (congrArg State.out passes :), (congrArg State.lif passes :),
    (congrArg State.lanes passes :), (congrArg State.ctxs passes :), fun u => congrArg Channel.member (chan u),
    fun u => (congrArg Channel.state (chan u)).trans (settledState_eq { s with width := n } u)⟩

/-! ### The layout check fails (R193, R198) -/

/-- What of a state the entry to HALTED leaves but for device state and host link. -/
def haltView (s : State) : Device × Nat × List Output × Lif × Vector Rlt 4 × PatrolLog × Patrol × Cme
    × (UnitId → UnitState × Bool × Link) :=
  (s.dev, s.width, s.out, s.lif, s.rlts, s.log, s.patrol, s.cme, fun u => ((s.chan u).state, (s.chan u).member, (s.chan u).link))

theorem ctxSettle_haltView (x : CtxId) (s : State) : haltView (ctxSettle x s) = haltView s := by
  rcases ctxSettle_cases x s with e | ⟨e, -⟩ | ⟨e, -⟩ | e
  · rw [e]
  · rw [e]
    show haltView (lowerUsers (s.ctx x).raised s) = _
    unfold lowerUsers
    refine forEach_frame (p := haltView) _ ?_ _ s
    exact fun _ _ => rfl
  · rw [e]
    rfl
  · rw [e]
    rfl

theorem ctxHalt_haltView (x : CtxId) (s : State) : haltView (ctxHalt x s) = haltView s := by
  have forgotten : haltView (forgetHeld x s) = haltView s := by
    simp only [haltView, forgetHeld_chan]
    rfl
  unfold ctxHalt
  split
  · rfl
  · exact (ctxSettle_haltView x _).trans forgotten

theorem haltEntry_haltView (cause : FaultCode) (s : State) : haltView (haltEntry cause s)
    = haltView ((s.setDev { s.dev with state := .halted, fault := cause, runPending := false }).setLif s.lif.cutOff) := by
  unfold haltEntry
  rw [forEach_frame _ ctxHalt_haltView, forEach_frame (p := haltView) laneHalt (fun _ _ => rfl)]
  rfl

/-! ### The test of the probe (R192) -/

theorem probeDone_iff (s : State) : probeDone s = true ↔
    ∀ u, (s.chan u).identified = some false ∨ ((s.chan u).identified = some true ∧ (s.load u).slot = none) := by
  have unit (u : UnitId) : (match (s.chan u).identified with
        | none => false
        | some true => (s.load u).slot.isNone
        | some false => true) = true
      ↔ (s.chan u).identified = some false ∨ ((s.chan u).identified = some true ∧ (s.load u).slot = none) := by
    rcases (s.chan u).identified with - | - | - <;> simp
  unfold probeDone
  rw [List.all_eq_true]
  exact ⟨fun h u => (unit u).mp (h u (mem_four u)), fun h u _ => (unit u).mpr (h u)⟩

/-- While an IDENTIFY step or a slot is open, or outside PROBING, the test does nothing. -/
theorem probeCheck_waits (h : s.dev.state ≠ .probing ∨ ∃ u, (s.chan u).identified = none
    ∨ ((s.chan u).identified = some true ∧ (s.load u).slot ≠ none)) : probeCheck s = s := by
  unfold probeCheck
  refine if_neg fun ⟨probing, done⟩ => ?_
  obtain outside | ⟨u, waits⟩ := h
  · exact outside probing
  · rcases (probeDone_iff s).mp done u with e | ⟨e, slot⟩ <;> rcases waits with w | ⟨w, read⟩
    · rw [e] at w; cases w
    · rw [e] at w; cases w
    · rw [e] at w; cases w
    · exact read slot

section
variable (probing : s.dev.state = .probing)
  (done : ∀ u, (s.chan u).identified = some false ∨ ((s.chan u).identified = some true ∧ (s.load u).slot = none))
include probing done

theorem probeCheck_chosen {im : Image} (h : chooseImage (validCopies s) = some im) :
    probeCheck s = probePasses im.width (loadImage im s) := by
  unfold probeCheck
  rw [if_pos ⟨probing, (probeDone_iff s).mpr done⟩, h]

theorem probeCheck_fresh (empty : validCopies s = []) (h : freshWidth s = some n) :
    probeCheck s = probePasses n (freshStart s) := by
  unfold probeCheck
  rw [if_pos ⟨probing, (probeDone_iff s).mpr done⟩, (chooseImage_eq_none _).mpr empty, h]

theorem probeCheck_fails (empty : validCopies s = []) (h : freshWidth s = none) : probeCheck s = probeFails (freshStart s) := by
  unfold probeCheck
  rw [if_pos ⟨probing, (probeDone_iff s).mpr done⟩, (chooseImage_eq_none _).mpr empty, h]

end

/-! ### What the probe ends with (R91, R154, R193) -/

theorem loadImage_chan (im : Image) (s : State) (u : UnitId) : (loadImage im s).chan u = s.chan u := by
  unfold State.chan
  rw [loadImage_chans]

/-- On STOPPED the units settle and nothing goes out. -/
theorem ProbePassed.settles {n : Nat} {im : Image} {s t : State} (h : ProbePassed n (loadImage im s) t) :
    t.out = s.out ∧ t.lif = s.lif ∧ t.lanes = s.lanes ∧ t.ctxs = s.ctxs
      ∧ ∀ u : UnitId, (t.chan u).member = decide (u.val < t.width)
        ∧ (t.chan u).state
          = if (s.chan u).identified = some true then
              if (s.chan u).state = .offline then .offline
              else if u.val < t.width ∧ (t.rlt u).table.freeCount = 0 then .degraded else .online
            else if u.val < t.width then .offline else .absent := by
  refine ⟨h.out.trans (loadImage_out im s), h.lif.trans (loadImage_lif im s), h.lanes.trans (loadImage_lanes im s),
    h.ctxs.trans (loadImage_ctxs im s), fun u => ⟨?_, ?_⟩⟩
  · rw [h.member, h.width]
  · have table : t.rlt u = (loadImage im s).rlt u := congrArg (fun v => v[u]) h.rlts
    rw [h.state, h.width, table, loadImage_chan]

/-- A fresh start has nothing in its tables, slots and settings (R120, R154). -/
theorem freshStart_tables {s t : State} (empty : validCopies s = []) (rlts : t.rlts = (freshStart s).rlts)
    (log : t.log = (freshStart s).log) (patrol : t.patrol = (freshStart s).patrol)
    (cme : t.cme = { (freshStart s).cme with state := .idle, loads := Vector.replicate 4 UnitLoad.cold }) :
    (∀ u, t.rlt u = { s.rlt u with table := ⟨[], []⟩ }) ∧ t.log = ⟨Vector.replicate 16 none, 0⟩
      ∧ t.patrol = { s.patrol with cfg := ⟨0, 2000, 4, false⟩, passNumber := 0 }
      ∧ t.cme.gen = 0 ∧ t.cme.wseq = 0 ∧ ∀ u sl, t.cme.slotRecord u sl = none := by
  refine ⟨fun u => ?_, log, patrol, by rw [cme]; rfl, ?_, fun u sl => ?_⟩
  · have table : t.rlt u = (loadImage Image.fresh s).rlt u := by unfold State.rlt; rw [rlts]; rfl
    rw [table, loadImage_rlt]
    exact congrArg (fun tables : UnitTable => { s.rlt u with table := tables }) (if_neg (Nat.not_lt_zero _))
  · rw [cme]
    show ((validCopies s).map Image.wseq).foldl max 0 = 0
    rw [empty]
    rfl
  · by_cases mirror : u.val < 2
    · obtain ⟨a, b⟩ := (validCopies_eq_nil s).mp empty u
      have record : t.cme.slotRecord u sl = (loadImage Image.fresh s).cme.slotRecord u sl := by rw [cme]; rfl
      rw [record, loadImage_slotRecord _ _ _ _ mirror]
      cases sl
      · exact congrArg _ a
      · exact congrArg _ b
    · exact slotRecord_of_ge _ _ _ (by omega)

/-- The layout check has failed: HALTED with a new epoch, the units' states left as they are (R193, R198). -/
theorem probeFails_halts {s t : State} (h : t = probeFails (freshStart s)) :
    (t.dev = { s.dev with state := .halted, fault := .probeLayout, runPending := false } ∧ t.width = s.width
      ∧ t.out = s.out ∧ t.lif = ⟨s.lif.settingsReads, s.lif.epoch + 1⟩
      ∧ ∀ u, (t.chan u).state = (s.chan u).state ∧ (t.chan u).member = (s.chan u).member ∧ (t.chan u).link = (s.chan u).link)
    ∧ t.rlts = (freshStart s).rlts ∧ t.log = (freshStart s).log ∧ t.patrol = (freshStart s).patrol
    ∧ t.cme = { (freshStart s).cme with state := .idle, loads := Vector.replicate 4 UnitLoad.cold } := by
  have view := haltEntry_haltView .probeLayout (loadsOver (freshStart s))
  rw [show haltEntry .probeLayout (loadsOver (freshStart s)) = t from h.symm] at view
  simp only [haltView, Prod.mk.injEq] at view
  obtain ⟨dev, width, out, lif, rlts, log, patrol, cme, chans⟩ := view
  refine ⟨⟨dev, width, out, lif, fun u => ?_⟩, rlts, log, patrol, cme⟩
  have chan := congrFun chans u
  rw [Prod.mk.injEq, Prod.mk.injEq] at chan
  have same : ((((loadsOver (freshStart s)).setDev { (loadsOver (freshStart s)).dev with
      state := .halted, fault := .probeLayout, runPending := false }).setLif (loadsOver (freshStart s)).lif.cutOff).chan u)
      = s.chan u := loadImage_chan Image.fresh s u
  rwa [same] at chan

/-- The copy that is loaded, on STOPPED (R154). -/
theorem ProbePassed.loads {im : Image} {s t : State} (h : ProbePassed im.width (loadImage im s) t) (copies : validCopies s ≠ []) :
    t.width = im.width ∧ t.dev = { s.dev with state := .stopped }
      ∧ (∀ i : Fin 32, t.region i.val = { RegionEntry.undefined with live := im.tables.regions[i] })
      ∧ (∀ u : UnitId, t.rlt u = { s.rlt u with table := if u.val < im.width then im.tables.units[u] else ⟨[], []⟩ })
      ∧ t.log = im.tables.log ∧ t.patrol = { s.patrol with cfg := im.patrol, passNumber := im.passNumber }
      ∧ t.cme.gen = im.gen ∧ t.cme.curWseq = im.wseq
      ∧ (∀ (u : UnitId) (sl : Slot), u.val < 2 → t.cme.slotRecord u sl
        = match (match sl with | .a => (s.load u).copyA | .b => (s.load u).copyB) with
          | none => none
          | some k => if k.gen = im.gen ∧ k.wseq < im.wseq then none else some (k.gen, k.wseq))
      ∧ (∀ k ∈ validCopies s, k.wseq ≤ t.cme.wseq) ∧ ∃ k ∈ validCopies s, t.cme.wseq = k.wseq := by
  have wseq : t.cme.wseq = (loadImage im s).cme.wseq := (congrArg Cme.wseq h.cme :)
  have record (u : UnitId) (sl : Slot) : t.cme.slotRecord u sl = (loadImage im s).cme.slotRecord u sl :=
    (congrArg (fun c => c.slotRecord u sl) h.cme :)
  refine ⟨h.width, h.dev, fun i => (region_same h.regions i).trans (loadImage_region im s i), fun u => ?_, h.log, h.patrol,
    (congrArg Cme.gen h.cme :), (congrArg Cme.curWseq h.cme :), fun u sl hu => ?_, ?_⟩
  · exact ((congrArg (fun v => v[u]) h.rlts :)).trans (loadImage_rlt im s u)
  · exact (record u sl).trans ((loadImage_slotRecord im s u sl hu).trans (slotRecordOf_eq im _))
  · rw [wseq]
    exact loadImage_wseq im s copies

/-- Settles O41: the answer is `identityAnswer_taken`, a read's end `loadReadEnds_taken`, and the probe ends by
`ProbePassed.loads`, by `freshStart_tables` on STOPPED, or by `probeFails_halts`. -/
theorem identifyAnswerIsJudged : Obligations.IdentifyAnswerIsJudged := by
  refine ⟨fun u second n expiry s link => ⟨fun size count => ?answer, identifyAnswer_other,
      fun m answer ne => identifyAnswer_discarded (fun _ _ other => ?stale) answer⟩,
    fun u sl b => ⟨headerOk_iff u sl b, copyOk_iff b⟩,
    fun u data s v hv => ⟨fun none => ?noSlot, fun sl judged slot hj => ?read⟩,
    mem_validCopies, fun cs => ⟨chooseImage_eq_none cs, fun im => chooseImage_first⟩, freshWidth_eq_some,
    fun s waits => ?waits, fun s probing done => ?ends⟩
  case stale =>
    cases link.symm.trans other
    exact ne rfl
  case answer =>
    refine ⟨identified u (decide (size = 4096#32 ∧ count = 66592#32)) s, ?_, ?_, ?_,
      fun v hv => chan_setChan_other _ _ _ _ hv, rfl, rfl, rfl⟩
    · rw [identityAnswer_taken link, identifyEnds]
      by_cases valid : size = 4096#32 ∧ count = 66592#32
      · rw [if_pos (decide_eq_true valid), if_pos valid]
        rfl
      · rw [if_neg (by simpa using valid), if_neg valid]
    · rw [identified, chan_setChan_same]
    · rw [identified, chan_setChan_same]
  case noSlot =>
    subst hv
    show loadReadEnds u data s = _
    simp only [loadReadEnds, none]
  case read =>
    subst hv
    have judges (copy : Option Image) : slotJudged u sl copy s = judged copy := by
      rw [hj]
      cases sl <;> rfl
    refine ⟨fun off => loadReadEnds_offline slot off data, fun live => ⟨?_, ?_⟩⟩
    · rintro rfl
      exact (loadReadEnds_noData slot live).trans (judges none)
    · rintro d rfl
      refine ⟨fun first bad => (loadReadEnds_refused slot live first bad).trans (judges none), ?_⟩
      rintro blocks first rfl head ok
      have count : hdrBlocks (((s.load u).blocks ++ [d]).headD []) = (byteAt first 17).toNat := by
        rw [List.headD_eq_head?_getD, head]
        rfl
      have taken := loadReadEnds_taken slot live ok
      rw [count] at taken
      refine ⟨fun more => ?_, fun whole => ⟨fun valid => ?_, fun invalid => ?_⟩⟩
      · rw [if_pos more, loadRead_eq] at taken
        exact taken
      · rw [if_neg (Nat.not_lt.mpr whole), judgeCopy_valid valid, judges] at taken
        exact taken
      · rw [if_neg (Nat.not_lt.mpr whole), judgeCopy_invalid invalid, judges] at taken
        exact taken
  case waits =>
    show (probeCheck s, []) = _
    rw [probeCheck_waits waits]
  case ends =>
    refine ⟨probeCheck s, rfl, ?_⟩
    cases chosen : chooseImage (validCopies s) with
    | some im =>
      have copies : validCopies s ≠ [] := fun e => by rw [(chooseImage_eq_none _).mpr e] at chosen; cases chosen
      have passed : ProbePassed im.width (loadImage im s) (probeCheck s) :=
        probeCheck_chosen probing done chosen ▸ probePasses_passed _ _
      refine ⟨fun im' e => ?_, fun n e => absurd e copies, fun e => absurd e copies, congrArg Cme.state passed.cme,
        fun _ => passed.settles, fun e => absurd e copies⟩
      obtain rfl := Option.some.inj e
      exact passed.loads copies
    | none =>
      have empty := (chooseImage_eq_none _).mp chosen
      cases width : freshWidth s with
      | some n =>
        have passed : ProbePassed n (freshStart s) (probeCheck s) :=
          probeCheck_fresh probing done empty width ▸ probePasses_passed _ _
        refine ⟨nofun, fun n' _ e => ?_, fun _ => freshStart_tables empty passed.rlts passed.log passed.patrol passed.cme,
          congrArg Cme.state passed.cme, fun _ => passed.settles, nofun⟩
        obtain rfl := Option.some.inj e
        refine ⟨passed.width, passed.dev, fun i => ?_⟩
        have entry := (region_same passed.regions i).trans (loadImage_region Image.fresh s i)
        rwa [fresh_regions] at entry
      | none =>
        obtain ⟨halted, rlts, log, patrol, cme⟩ := probeFails_halts (probeCheck_fails probing done empty width)
        refine ⟨nofun, nofun, fun _ => freshStart_tables empty rlts log patrol cme, congrArg Cme.state cme,
          fun h => ?_, fun _ _ => halted⟩
        exact absurd h (by simp [empty])

end Sys2Proof.Machine
end

section
/-! O40, the queue of a channel: arrivals (R77, R78), the choice of an entry (R80), the data of a program (R72, R76) and the start of
the chosen entry (R82, R83). -/

namespace Sys2Proof.Machine

variable {s : State} {u : UnitId} {x : CtxId} {j : Nat} {cmd : StepCmd} {e : QEntry} {c : Channel}

/-! ### Arrivals (R77, R78) -/

theorem stepLogical_eq (c : Context) (j : Nat) (cmd : StepCmd) :
    stepLogical c j cmd = if cmd = .read then c.srcBase + j else c.dstBase + j := by
  cases cmd <;> rfl

theorem holdStep_kept (h : (s.ctx x).abortMark = false) :
    holdStep x j cmd s = s.setCtx x ((s.ctx x).setPhase j (.held cmd)) := by
  simp [holdStep, h]

theorem holdStep_withdrawn (h : (s.ctx x).abortMark = true) : holdStep x j cmd s = ctxUpdate x ((s.ctx x).endBlock j) s := by
  simp [holdStep, h]

section
variable (hu : u = s.unitOf (stepLogical (s.ctx x) j cmd))
include hu

theorem foregroundArrives_offline (h : (s.chan u).state = .offline) :
    foregroundArrives x j cmd s = (s, [.stepEnds x j .offline false]) := by
  subst hu
  exact if_pos h

variable (he : e = stepEntry s x j cmd) (live : (s.chan u).state ≠ .offline)
include he live

/-- A lock stands on the block. -/
theorem foregroundArrives_held (h : ((s.chan u).lockOn e.block).isSome = true) : foregroundArrives x j cmd s
    = (holdStep x j cmd (s.setChan u ((s.chan u).addHeld e.block (keptHeld s [(x, j)]))), []) := by
  subst hu he
  exact (if_neg live).trans (if_pos h)

variable (free : (s.chan u).lockOn e.block = none)
include free

theorem foregroundArrives_queued (room : (s.chan u).foregroundCount < 3) (first : (s.chan u).waiting = []) :
    foregroundArrives x j cmd s = (s.setChan u { s.chan u with queue := (s.chan u).queue ++ [e] }, [.select u]) := by
  subst hu he
  exact (if_neg live).trans ((if_neg (by simp [free])).trans (if_pos ⟨room, first⟩))

theorem foregroundArrives_waits (h : 3 ≤ (s.chan u).foregroundCount ∨ (s.chan u).waiting ≠ []) :
    foregroundArrives x j cmd s = (s.setChan u { s.chan u with waiting := (s.chan u).waiting ++ [e] }, []) := by
  subst hu he
  refine (if_neg live).trans ((if_neg (by simp [free])).trans (if_neg ?_))
  rintro ⟨room, first⟩
  exact h.elim (Nat.not_le.mpr room) (fun ne => ne first)

end

/-! ### What a step's entry carries (R76) -/

theorem moveOnWeak_iff (r : Bytes) : moveOnWeak r = true ↔ recKind r = .read ∨ recKind r = .digest ∨ recKind r = .copy
    ∨ (recKind r = .verify ∧ recRelocateWeak r = true) := by
  unfold moveOnWeak
  cases recKind r <;> simp

theorem programData_program (h : e.cmd = .program) : programData s u e
    = match e.source with
      | .commit => commitData s u e.block
      | .move mid => moveData s u mid
      | .foreground x j _ _ _ => (s.ctx x).bufferData j
      | .patrol => [] := if_pos h

theorem commitData_inFlight {f : InFlight} (b : Nat) {k : Copy} (inFlight : s.cme.inFlight = some f)
    (copy : f.copies.find? (fun c => c.media == u) = some k) : commitData s u b
      = copyBlock f.image u k.slot (b - (match k.slot with | .a => 66560 | .b => 66576)) := by
  have first : k.slot.firstBlock = match k.slot with | .a => 66560 | .b => 66576 := by cases k.slot <;> rfl
  rw [← first]
  simp only [commitData, inFlight, copy]

theorem moveData_staged {mid : Nat} {m : Move} (h : (s.rlt u).move mid = some m) (hd : m.req.dataFrom = some (x, j)) :
    moveData s u mid = (s.ctx x).bufferData j := by
  simp [moveData, h, hd]

theorem moveData_read {mid : Nat} {m : Move} {b : Nat} {d : Bytes} (h : (s.rlt u).move mid = some m)
    (hd : m.req.dataFrom = none) (hb : (s.chan u).moveBuf = some ⟨b, some d⟩) : moveData s u mid = d := by
  simp [moveData, h, hd, hb]

/-! ### The entry to perform next (R80) -/

theorem moveReady_iff (c : Channel) (e : QEntry) :
    c.moveReady e = true ↔ e.isMove = true ∧ (e.cmd = .read → c.moveBuf = none) := by
  simp [Channel.moveReady, imp_iff_not_or]

/-- COMMIT goes before MOVE, MOVE before FOREGROUND, and among the entries of one class the oldest. -/
theorem choose_some (h : c.choose = some e) : ∃ older newer, c.queue = older ++ e :: newer
    ∧ ((e.isCommit = true ∧ ∀ p ∈ older, p.isCommit = false)
      ∨ ((∀ p ∈ c.queue, p.isCommit = false) ∧ c.moveReady e = true ∧ ∀ p ∈ older, c.moveReady p = false)
      ∨ ((∀ p ∈ c.queue, p.isCommit = false ∧ c.moveReady p = false) ∧ e.isForeground = true
        ∧ ∀ p ∈ older, p.isForeground = false)) := by
  have oldest {q : QEntry → Bool} (f : c.queue.find? q = some e) :
      ∃ older newer, c.queue = older ++ e :: newer ∧ q e = true ∧ ∀ p ∈ older, q p = false := by
    obtain ⟨is, older, newer, queue, passed⟩ := List.find?_eq_some_iff_append.mp f
    exact ⟨older, newer, queue, is, fun p hp => by simpa using passed p hp⟩
  have nothing {q : QEntry → Bool} (f : c.queue.find? q = none) : ∀ p ∈ c.queue, q p = false := by
    simpa using f
  unfold Channel.choose at h
  split at h
  · next commit =>
    obtain rfl := Option.some.inj h
    obtain ⟨older, newer, queue, is, passed⟩ := oldest commit
    exact ⟨older, newer, queue, .inl ⟨is, passed⟩⟩
  · next noCommit =>
    split at h
    · next move =>
      obtain rfl := Option.some.inj h
      obtain ⟨older, newer, queue, is, passed⟩ := oldest move
      exact ⟨older, newer, queue, .inr (.inl ⟨nothing noCommit, is, passed⟩)⟩
    · next noMove =>
      obtain ⟨older, newer, queue, is, passed⟩ := oldest h
      exact ⟨older, newer, queue, .inr (.inr ⟨fun p hp => ⟨nothing noCommit p hp, nothing noMove p hp⟩, is, passed⟩)⟩

theorem choose_none (c : Channel) :
    c.choose = none ↔ ∀ p ∈ c.queue, p.isCommit = false ∧ c.moveReady p = false ∧ p.isForeground = false := by
  have none_iff (q : QEntry → Bool) : c.queue.find? q = none ↔ ∀ p ∈ c.queue, q p = false := by simp
  unfold Channel.choose
  split
  · next e commit =>
    refine iff_of_false nofun fun h => ?_
    have is := List.find?_some commit
    rw [(h e (List.mem_of_find?_eq_some commit)).1] at is
    cases is
  · next noCommit =>
    split
    · next e move =>
      refine iff_of_false nofun fun h => ?_
      have is := List.find?_some move
      rw [(h e (List.mem_of_find?_eq_some move)).2.1] at is
      cases is
    · next noMove =>
      rw [none_iff] at noCommit noMove ⊢
      exact ⟨fun h p hp => ⟨noCommit p hp, noMove p hp, h p hp⟩, fun h p hp => (h p hp).2.2⟩

/-! ### Selection (R80, R82, R83) -/

theorem selectEntry_stays (h : (s.chan u).link ≠ .idle ∨ (s.chan u).choose = none) : selectEntry u s = (s, []) := by
  unfold selectEntry
  by_cases busy : (s.chan u).link = .idle
  · simp only [h.resolve_left (not_not.mpr busy), busy, ne_eq, not_true_eq_false, if_false]
  · exact if_pos busy

theorem selectEntry_starts (idle : (s.chan u).link = .idle) (h : (s.chan u).choose = some e) :
    selectEntry u s = startEntry u e (s.setChan u { s.chan u with queue := (s.chan u).queue.erase e }) := by
  simp only [selectEntry, idle, h, ne_eq, not_true_eq_false, if_false]

/-- The unit block a command is sent to. -/
theorem targetOf_eq (s : State) (u : UnitId) (e : QEntry) : targetOf s u e
    = if e.isCommit = true ∨ (e.isMove = true ∧ e.cmd ≠ .read) then e.block else (s.rlt u).table.target e.block := by
  obtain ⟨source, cmd, block⟩ := e
  cases source <;> simp [targetOf, QEntry.isCommit, QEntry.isMove]

/-- An entry out of the queue still finds its data. -/
theorem programData_dequeued (s : State) (u : UnitId) (e : QEntry) (q : List QEntry) :
    programData (s.setChan u { s.chan u with queue := q }) u e = programData s u e := by
  have move (mid : Nat) : moveData (s.setChan u { s.chan u with queue := q }) u mid = moveData s u mid := by
    simp only [moveData, chan_setChan_same, setChan_rlt, setChan_ctx]
  obtain ⟨source, cmd, block⟩ := e
  cases source with
  | move mid => simp only [programData, move]
  | _ => rfl

/-- An entry that does not end at once is sent to its unit. -/
theorem startEntry_sends (h : e.isCommit = true ∨ e.cmd ≠ .read ∨ (s.rlt u).table.poisoned e.block = false) :
    startEntry u e s = (sendEntry u e (targetOf s u e) (programData s u e) (e.isForeground && (s.rlt u).table.poisoned e.block)
      (s.setChan u (noteStart (s.chan u) e)), []) := by
  have sound (notCommit : e.isCommit = false) : ¬ (e.cmd = .read ∧ (s.rlt u).table.poisoned e.block = true) := by
    rintro ⟨read, poisoned⟩
    simp [notCommit, read, poisoned] at h
  obtain ⟨source, cmd, block⟩ := e
  cases source with
  | foreground => exact if_neg (sound rfl)
  | move => exact if_neg (sound rfl)
  | commit => rfl
  | patrol => rfl

/-- What the start of an entry notes at its channel, and what it does not touch. -/
theorem noteStart_eq (c : Channel) (e : QEntry) : ∃ buf marks, noteStart c e = { c with moveBuf := buf, marks := marks }
    ∧ (∀ mid, e.source = .move mid → e.cmd = .read → buf = some ⟨mid, none⟩)
    ∧ (e.isPatrol = false → marks = if e.isForeground = true ∧ e.cmd ≠ .read then
        c.marks.map fun k => if k.1 = e.block then (e.block, .rewritten) else k
      else c.marks) := by
  obtain ⟨source, cmd, block⟩ := e
  cases source with
  | foreground =>
    cases cmd with
    | read => exact ⟨_, _, rfl, nofun, fun _ => rfl⟩
    | program => exact ⟨_, _, rfl, nofun, fun _ => rfl⟩
    | clear => exact ⟨_, _, rfl, nofun, fun _ => rfl⟩
  | move mid =>
    cases cmd with
    | read =>
      refine ⟨_, _, rfl, fun k hk _ => ?_, fun _ => rfl⟩
      obtain rfl := Source.move.inj hk
      rfl
    | program => exact ⟨_, _, rfl, nofun, fun _ => rfl⟩
    | clear => exact ⟨_, _, rfl, nofun, fun _ => rfl⟩
  | commit => exact ⟨_, _, rfl, nofun, fun _ => rfl⟩
  | patrol => exact ⟨_, _, rfl, nofun, nofun⟩

/-- The channel that performs an entry just sent. -/
theorem sendEntry_chan (u : UnitId) (e : QEntry) (target : Nat) (data : Bytes) (poisoned : Bool) (s : State) :
    (sendEntry u e target data poisoned s).chan u = { s.chan u with
      link := .performing e target false ((s.chan u).sent + 1) (s.tick + 2000) data poisoned
      sent := (s.chan u).sent + 1 } := by
  unfold sendEntry
  rw [emit_chan, chan_setChan_same]
  rfl

theorem sendEntry_chan_other {v : UnitId} (u : UnitId) (e : QEntry) (target : Nat) (data : Bytes) (poisoned : Bool) (s : State)
    (h : v ≠ u) : (sendEntry u e target data poisoned s).chan v = s.chan v := chan_setChan_other _ _ _ _ h

/-- A selected entry that its unit is to perform goes out (R80, R82, R83). -/
theorem select_sends (idle : (s.chan u).link = .idle) (chosen : (s.chan u).choose = some e)
    (h : e.isCommit = true ∨ e.cmd ≠ .read ∨ (s.rlt u).table.poisoned e.block = false) (notPatrol : e.isPatrol = false) :
    ∃ t target, handle (.select u) s = (t, [])
      ∧ target = (if e.isCommit = true ∨ (e.isMove = true ∧ e.cmd ≠ .read) then e.block else (s.rlt u).table.target e.block)
      ∧ (t.chan u).performing = some e ∧ (t.chan u).queue = (s.chan u).queue.erase e
      ∧ (t.chan u).sent = (s.chan u).sent + 1
      ∧ (t.chan u).link = .performing e target false ((s.chan u).sent + 1) (s.tick + 2000) (programData s u e)
          (e.isForeground && (s.rlt u).table.poisoned e.block)
      ∧ t.out = s.out ++ [.media u ((s.chan u).sent + 1) (mediaCommand e.cmd target (programData s u e))]
      ∧ (∀ mid, e.source = .move mid → e.cmd = .read → (t.chan u).moveBuf = some ⟨mid, none⟩)
      ∧ (t.chan u).marks = (if e.isForeground = true ∧ e.cmd ≠ .read then
          (s.chan u).marks.map fun k => if k.1 = e.block then (e.block, .rewritten) else k
        else (s.chan u).marks)
      ∧ ∀ v, v ≠ u → t.chan v = s.chan v := by
  obtain ⟨buf, marks, noted, moveBuf, settled⟩ := noteStart_eq { s.chan u with queue := (s.chan u).queue.erase e } e
  have starts := (selectEntry_starts idle chosen).trans (startEntry_sends (by simpa only [setChan_rlt] using h))
  rw [chan_setChan_same, setChan_rlt, programData_dequeued, noted, setChan_setChan] at starts
  have target : targetOf (s.setChan u { s.chan u with queue := (s.chan u).queue.erase e }) u e = targetOf s u e := by
    rw [targetOf_eq, targetOf_eq, setChan_rlt]
  rw [target] at starts
  refine ⟨_, targetOf s u e, starts, targetOf_eq s u e, ?_⟩
  rw [sendEntry_chan, chan_setChan_same]
  refine ⟨rfl, rfl, rfl, rfl, ?_, moveBuf, settled notPatrol, fun v hv => ?_⟩
  · simp only [sendEntry, emit_out, setChan_out, chan_setChan_same]
  · rw [sendEntry_chan_other _ _ _ _ _ _ hv, chan_setChan_other _ _ _ _ hv]

section
variable (idle : (s.chan u).link = .idle) (chosen : (s.chan u).choose = some e) (read : e.cmd = .read)
  (poisoned : (s.rlt u).table.poisoned e.block = true)
include idle chosen read poisoned

/-- A chosen foreground read of a poisoned block ends at once, and departs. -/
theorem select_poisoned_foreground {lane : LaneId} {region : Nat} {weak : Bool} (h : e.source = .foreground x j lane region weak) :
    ∃ t, handle (.select u) s = (t, [.stepEnds x j (.read .poisoned false false []) false, .select u, .quiet u])
      ∧ (t.chan u).link = .idle ∧ t.out = s.out ∧ (t.chan u).lastDeparture = some s.tick
      ∧ (t.chan u).queue = (s.chan u).queue.erase e ++ (s.chan u).waiting.take 1
      ∧ (t.chan u).waiting = (s.chan u).waiting.drop 1 := by
  have starts := selectEntry_starts idle chosen
  simp only [startEntry, h, setChan_rlt, read, poisoned, and_self, if_true, chan_setChan_same, setChan_setChan] at starts
  exact ⟨_, starts, by rw [chan_setChan_same]; exact idle, rfl, by rw [chan_setChan_same]; rfl, by rw [chan_setChan_same]; rfl,
    by rw [chan_setChan_same]; rfl⟩

/-- A chosen move read of a poisoned block ends at once. -/
theorem select_poisoned_move {mid : Nat} (h : e.source = .move mid) :
    ∃ t, handle (.select u) s = (t, [.select u, .quiet u, .moveReadEnds u mid .poisoned false])
      ∧ (t.chan u).link = .idle ∧ t.out = s.out ∧ (t.chan u).queue = (s.chan u).queue.erase e := by
  have starts := selectEntry_starts idle chosen
  simp only [startEntry, h, setChan_rlt, read, poisoned, and_self, if_true] at starts
  exact ⟨_, starts, by rw [chan_setChan_same]; exact idle, rfl, by rw [chan_setChan_same]⟩

end

end Sys2Proof.Machine
end

section
/-! O40, the moves at a channel: the start of a move with its lock (R87, R88, R106), its end (R89) and the steps held under it
(R64). -/

namespace Sys2Proof.Machine

variable {s t : State} {u : UnitId} {x : CtxId} {j : Nat} {cmd : StepCmd} {m : Move} {mid : Nat} {c : Channel}

/-! ### An event posted on two states (R181)

The notification unit reads no channel, context, region or relocation table. -/

/-- Two states in which the notification unit does the same. -/
structure SameNotice (s t : State) : Prop where
  device : SameDevice s t
  ntu : t.ntu = s.ntu

namespace SameNotice

theorem ite {p q : Prop} [Decidable p] [Decidable q] (e : q ↔ p) {a b c d : State} (yes : SameNotice a c) (no : SameNotice b d) :
    SameNotice (if p then a else b) (if q then c else d) := by
  by_cases hp : p
  · rwa [if_pos hp, if_pos (e.mpr hp)]
  · rwa [if_neg hp, if_neg (mt e.mp hp)]

variable (h : SameNotice s t)
include h

theorem setNtu (n : Ntu) : SameNotice (s.setNtu n) (t.setNtu n) :=
  ⟨⟨h.device.pending, h.device.dev, h.device.lif, h.device.width, h.device.tick, h.device.anchor, h.device.anchorHigh,
    h.device.settings, h.device.messagesEnabled, h.device.unitPresent, h.device.lockdown⟩, rfl⟩

theorem setRoute (r : RouteId) (v : Route) : SameNotice (s.setRoute r v) (t.setRoute r v) := by
  cases r <;> simp only [State.setRoute, h.ntu] <;> exact h.setNtu _

theorem route (r : RouteId) : t.route r = s.route r := by
  cases r <;> simp only [State.route, h.ntu]

theorem routeCfg (r : RouteId) : t.routeCfg r = s.routeCfg r := by
  cases r <;> simp only [State.routeCfg, h.device.settings]

/-- Both place writes, or neither does (R178, R180). -/
theorem silent : (t.anchor = 0 ∨ t.halted) ↔ (s.anchor = 0 ∨ s.halted) := by
  rw [State.halted, State.halted, h.device.anchor, h.device.dev]

theorem askWrite (w : WriteTarget) (content : Bytes) : SameNotice (askWrite w content s) (askWrite w content t) := by
  unfold Machine.askWrite
  refine .ite h.silent h ?_
  rw [h.ntu]
  exact h.setNtu _

theorem askMessage (r : RouteId) : SameNotice (askMessage r s) (askMessage r t) := by
  unfold Machine.askMessage
  refine .ite ?_ h ?_
  · rw [← or_assoc, ← or_assoc, h.silent, h.device.messagesEnabled]
  · rw [h.ntu]
    exact h.setNtu _

theorem sendRoute (r : RouteId) : SameNotice (sendRoute r s) (sendRoute r t) := by
  simp only [Machine.sendRoute, h.route]
  exact (h.setRoute r _).askMessage r

theorem holdRoute (r : RouteId) (v : Route) : SameNotice (holdRoute r v s) (holdRoute r v t) := by
  simp only [Machine.holdRoute, h.routeCfg, h.device.tick]
  exact h.setRoute r _

theorem takeCause (r : RouteId) : SameNotice (takeCause r s) (takeCause r t) := by
  unfold Machine.takeCause
  rw [h.route, h.routeCfg]
  dsimp only
  cases (s.route r).state with
  | idle =>
    dsimp only
    split
    · exact h.sendRoute r
    · exact h.holdRoute r _
  | holding =>
    dsimp only
    split
    · exact h.sendRoute r
    · exact h.setRoute r _
  | signalled => exact h.setRoute r _

theorem routeCause (sel : RouteSel) : SameNotice (routeCause sel s) (routeCause sel t) := by
  unfold Machine.routeCause
  refine .ite h.silent h ?_
  cases sel with
  | none => exact h
  | a => exact h.takeCause .a
  | b => exact h.takeCause .b

theorem postEvent (k : EventKind) (o : Occurrence) : SameNotice (postEvent k o s) (postEvent k o t) := by
  have asked := (h.setNtu { s.ntu with slots := s.ntu.slots.set k.slot ((s.ntu.slots[k.slot]).occur (o.detail s.tick)) }).askWrite
    (.slot k.slot) ((s.ntu.slots[k.slot]).occur (o.detail s.tick)).bytes
  have routes := congrArg (fun settings : Settings => settings.eventRoutes[k.slot]) asked.device.settings
  simp only [Machine.postEvent, h.ntu, h.device.tick]
  rw [routes]
  exact asked.routeCause _

end SameNotice

/-! ### Steps returned HELD (R64, R88) -/

/-- `t` is `s` but for the contexts and the users counts of the regions. -/
structure RecordsKept (s t : State) : Prop extends RecordsOnly s t where
  live : ∀ i, (t.region i).live = (s.region i).live

namespace RecordsKept

theorem refl (s : State) : RecordsKept s s := ⟨.refl s, fun _ => rfl⟩

theorem trans {w : State} (h : RecordsKept s t) (g : RecordsKept t w) : RecordsKept s w :=
  ⟨h.toRecordsOnly.trans g.toRecordsOnly, fun i => (g.live i).trans (h.live i)⟩

theorem setCtx (s : State) (x : CtxId) (c : Context) : RecordsKept s (s.setCtx x c) :=
  ⟨(setCtx_ctxOnly s x c).toRecordsOnly, fun _ => rfl⟩

theorem forEach {β : Type} {f : β → State → State} (hf : ∀ b t, RecordsKept t (f b t)) (bs : List β) (s : State) :
    RecordsKept s (forEach bs f s) := by
  induction bs generalizing s with
  | nil => exact .refl s
  | cons b bs ih => exact (hf b s).trans (ih (f b s))

theorem setUsers (s : State) (i n : Nat) : RecordsKept s (s.setRegion i { s.region i with users := n }) := by
  refine ⟨setRegion_recordsOnly .., fun k => ?_⟩
  by_cases e : k = i
  · subst e
    rcases lt_or_ge k 32 with hk | hk
    · rw [region_setRegion_same _ _ _ hk]
    · rw [region_of_ge _ hk, region_of_ge _ hk]
  · rw [region_setRegion_other _ _ _ _ e]

theorem settle (x : CtxId) (s : State) : RecordsKept s (ctxSettle x s) := by
  rcases ctxSettle_cases x s with e | ⟨e, -⟩ | ⟨e, -⟩ | e <;> rw [e]
  · exact .refl s
  · exact (RecordsKept.forEach (fun i t => .setUsers t i _) _ s).trans (.setCtx _ x _)
  · exact .setCtx s x _
  · exact .setCtx s x _

theorem holdStep (x : CtxId) (j : Nat) (cmd : StepCmd) (s : State) : RecordsKept s (holdStep x j cmd s) := by
  cases h : (s.ctx x).abortMark with
  | false => rw [holdStep_kept h]; exact .setCtx s x _
  | true => rw [holdStep_withdrawn h]; exact (RecordsKept.setCtx s x _).trans (.settle x _)

theorem chan (h : RecordsKept s t) (v : UnitId) : t.chan v = s.chan v := congrArg (fun cs => cs[v]) h.media.chans

/-- A block of a unit lies in the same region. -/
theorem blockOccurrence (h : RecordsKept s t) (u : UnitId) (b code gen : Nat) (lane : Option LaneId) :
    t.blockOccurrence u b code gen lane = s.blockOccurrence u b code gen lane := by
  have logical : t.logicalOf u b = s.logicalOf u b := by simp only [State.logicalOf, h.device.width]
  have regionAt : t.regionAt = s.regionAt := funext fun L => by simp only [State.regionAt, h.live]
  simp only [State.blockOccurrence, State.regionOfBlock, logical, regionAt]

end RecordsKept

/-! ### The lock of a started move (R87, R88) -/

theorem performing_any_iff (c : Channel) (b : Nat) : c.performing.any (fun e => e.foregroundOn b) = true
    ↔ ∃ e, c.performing = some e ∧ e.isForeground = true ∧ e.block = b := by
  cases c.performing <;> simp [QEntry.foregroundOn]

/-- Departures move entries from the waiting list to the queue, and touch no mark. -/
theorem departs_order {α : Type} (xs : List α) (c : Channel) (tick : Tick) :
    (xs.foldl (fun d _ => d.depart tick) c).queue ++ (xs.foldl (fun d _ => d.depart tick) c).waiting = c.queue ++ c.waiting
      ∧ (xs.foldl (fun d _ => d.depart tick) c).marks = c.marks := by
  induction xs generalizing c with
  | nil => exact ⟨rfl, rfl⟩
  | cons a xs ih =>
    obtain ⟨order, marks⟩ := ih (c.depart tick)
    refine ⟨order.trans ?_, marks⟩
    show (c.queue ++ c.waiting.take 1) ++ c.waiting.drop 1 = _
    rw [List.append_assoc, List.take_append_drop]

theorem giveBack_order (c : Channel) (b : Nat) (tick : Tick) :
    (c.giveBack b tick).queue ++ (c.giveBack b tick).waiting = (c.queue ++ c.waiting).filter (fun e => !e.foregroundOn b)
      ∧ (c.giveBack b tick).marks = c.marks := by
  obtain ⟨order, marks⟩ := departs_order (c.queue.filter fun e => e.foregroundOn b)
    { c with queue := c.queue.filter (fun e => !e.foregroundOn b), waiting := c.waiting.filter fun e => !e.foregroundOn b } tick
  exact ⟨order.trans (List.filter_append ..).symm, marks⟩

/-- The starting move's mark: a finding's goes, any other is REWRITTEN. -/
theorem settleMark_eq (c : Channel) (m : Move) : c.settleMark m = { c with
    marks := if m.req.finding = none then c.marks.map fun k => if k.1 = m.req.src then (m.req.src, .rewritten) else k
      else c.marks.filter fun k => k.1 != m.req.src } := by
  unfold Channel.settleMark
  cases m.req.finding <;> rfl

/-- The channel once it has set the lock of a move. -/
def lockedChan (u : UnitId) (m : Move) (s : State) : Channel :=
  { ((s.chan u).settleMark m).giveBack m.req.src s.tick with
    locks := (s.chan u).locks
      ++ [⟨m.req.src, m.mid, keptHeld s (((s.chan u).stepsOn m.req.src).map fun h => (h.1, h.2.1))⟩] }

/-- Beside the channel the lock changes contexts alone. -/
theorem setLock_kept (u : UnitId) (m : Move) (s : State) : RecordsKept (s.setChan u (lockedChan u m s)) (setLock u m s) := by
  have locks : (((s.chan u).settleMark m).giveBack m.req.src s.tick).locks = (s.chan u).locks :=
    (giveBack_spec _ _ _).1.trans (settleMark_view _ _).1
  unfold setLock lockedChan
  rw [← locks]
  exact .forEach (fun (h : CtxId × Nat × StepCmd) t => .holdStep h.1 h.2.1 h.2.2 t) _ _

theorem lockedChan_order (u : UnitId) (m : Move) (s : State) : (lockedChan u m s).queue ++ (lockedChan u m s).waiting
    = ((s.chan u).queue ++ (s.chan u).waiting).filter (fun e => !e.foregroundOn m.req.src) := by
  have order := (giveBack_order ((s.chan u).settleMark m) m.req.src s.tick).1
  rw [settleMark_eq] at order
  unfold lockedChan
  rw [settleMark_eq]
  exact order

theorem lockedChan_marks (u : UnitId) (m : Move) (s : State) : (lockedChan u m s).marks
    = if m.req.finding = none then
        (s.chan u).marks.map fun k => if k.1 = m.req.src then (m.req.src, .rewritten) else k
      else (s.chan u).marks.filter fun k => k.1 != m.req.src := by
  unfold lockedChan
  rw [settleMark_eq]
  exact (giveBack_order _ _ _).2

/-- The channel's locks, contexts and table do not enter the DATA_LOST of a lost finding. -/
theorem postDataLost_setLock (u : UnitId) (m : Move) (s : State) (b code : Nat) (lane : Option LaneId) :
    (postDataLost u b code lane (setLock u m s)).ntu = (postDataLost u b code lane s).ntu := by
  have kept := setLock_kept u m s
  have chan : SameDevice s (s.setChan u (lockedChan u m s)) := ⟨rfl, rfl, rfl, rfl, rfl, rfl, rfl, rfl, rfl, rfl, rfl⟩
  have same : SameNotice s (setLock u m s) := ⟨chan.trans kept.device, kept.ntu⟩
  have occurrence : (setLock u m s).blockOccurrence u b code (setLock u m s).cme.gen lane
      = s.blockOccurrence u b code s.cme.gen lane := by
    rw [kept.blockOccurrence, kept.media.cme]
    rfl
  unfold postDataLost
  rw [occurrence]
  exact (same.postEvent _ _).ntu

/-! ### The start of a move (R88, R106) -/

/-- The first entry of a move that its channel has taken. -/
theorem startAccepted_eq (u : UnitId) (m : Move) (s : State) : startAccepted u m s
    = let w := if m.req.finding.any (fun tag => tag.lost) then postDataLost u m.req.src 2 none s else s
      (w.setRlt u ((w.rlt u).putMove
          { m with state := if m.req.cause = .programFail ∨ m.req.cause = .readLost then .writing else .reading }),
        [if m.req.cause = .readLost ∨ (m.req.cause = .programFail ∧ m.req.blank = true) then
            .moveEntryArrives u m.mid .clear (65536 + m.spare)
          else if m.req.cause = .programFail then .moveEntryArrives u m.mid .program (65536 + m.spare)
          else .moveEntryArrives u m.mid .read m.req.src]) := by
  unfold startAccepted Move.fill MoveReq.fillCommand MoveReq.clears
  cases m.req.cause <;> cases m.req.blank <;> rfl

section
variable (found : (s.rlt u).move mid = some m) (starting : m.state = .starting)
include found starting

theorem moveStart_offline (h : (s.chan u).state = .offline) : moveStart u mid s = abandonMove u m .unitOffline s := by
  simp only [moveStart, found, starting, h, ne_eq, not_true_eq_false, if_false, if_true]

variable (live : (s.chan u).state ≠ .offline)
include live

/-- A finding whose mark is REWRITTEN is dropped. -/
theorem moveStart_dropped (finding : m.req.finding ≠ none) (h : (s.chan u).markOn m.req.src = some .rewritten) :
    moveStart u mid s = startDropped u m (s.setChan u ((s.chan u).dropMark m.req.src)) := by
  have dropped : m.req.finding.isSome = true := Option.isSome_iff_ne_none.mpr finding
  simp only [moveStart, found, starting, live, dropped, h, ne_eq, not_true_eq_false, if_false, and_self, if_true]

variable (goes : m.req.finding = none ∨ (s.chan u).markOn m.req.src ≠ some .rewritten)
include goes

/-- Behind a foreground performance on the block the start waits. -/
theorem moveStart_deferred (h : (s.chan u).performing.any (fun e => e.foregroundOn m.req.src) = true) : moveStart u mid s
    = (s.setChan u (if m.req.finding.isSome then (s.chan u).dropMark m.req.src else s.chan u), []) := by
  have kept : ¬ (m.req.finding.isSome = true ∧ (s.chan u).markOn m.req.src = some .rewritten) := fun ⟨hf, mark⟩ =>
    goes.elim (Option.isSome_iff_ne_none.mp hf) (fun ne => ne mark)
  simp only [moveStart, found, starting, live, kept, h, ne_eq, not_true_eq_false, if_false, if_true]

theorem moveStart_accepted (h : ¬ (s.chan u).performing.any (fun e => e.foregroundOn m.req.src) = true) :
    moveStart u mid s = startAccepted u m (setLock u m s) := by
  have kept : ¬ (m.req.finding.isSome = true ∧ (s.chan u).markOn m.req.src = some .rewritten) := fun ⟨hf, mark⟩ =>
    goes.elim (Option.isSome_iff_ne_none.mp hf) (fun ne => ne mark)
  simp only [moveStart, found, starting, live, kept, h, ne_eq, not_true_eq_false, if_false, Bool.false_eq_true]

end

/-! ### The end of a move (R83, R89) -/

theorem endMove_eq (c : Channel) (mid : Nat) : c.endMove mid = withoutMoves [mid] c := by
  have locks : (fun k : Lock => k.mid != mid) = fun k => !([mid].contains k.mid) := by
    funext k
    simp [bne, beq_eq_decide]
  have queue : (fun e : QEntry => !e.ofMove mid) = fun e => [mid].all fun mid => e.source != .move mid := by
    funext e
    simp [QEntry.ofMove, bne]
  have moveBuf : (if c.moveBuf.any (fun b => b.mid == mid) then none else c.moveBuf)
      = c.moveBuf.filter fun b => !([mid].contains b.mid) := by
    cases c.moveBuf with
    | none => rfl
    | some b => by_cases h : b.mid = mid <;> simp [Option.filter, h]
  unfold Channel.endMove withoutMoves
  rw [locks, queue, moveBuf]

/-- The channel's reports as a move leaves its slot. -/
theorem leaveSlot_reports (u : UnitId) (mid : Nat) (s : State) : (leaveSlot u mid s).2
    = .select u :: (if ((s.chan u).endMove mid).quiet = true ∧ (s.chan u).quiet = false then [.quiet u] else [])
      ++ (((s.chan u).locks.filter fun k => k.mid == mid).flatMap Lock.held).map (fun h => .reissue h.1 h.2) := by
  show Msg.select u :: (if (((s.chan u).endMove mid).quiet && !(s.chan u).quiet) = true then [Msg.quiet u] else [])
    ++ ((s.chan u).heldUnder mid).map _ = _
  simp only [Bool.and_eq_true, Bool.not_eq_true', Channel.heldUnder]

/-! ### A released step (R64) -/

theorem reissueStep_read (h : (s.ctx x).phase j = some (.held .read)) : reissueStep x j s
    = (s.setCtx x ((s.ctx x).setPhase j (.outstanding .read)), [.foregroundArrives x j .read]) := by
  simp only [reissueStep, h, issueStep]

/-- A program or clear is issued again after the test of R23. -/
theorem reissueStep_write (ne : cmd ≠ .read) (h : (s.ctx x).phase j = some (.held cmd)) :
    reissueStep x j s = issueProgram x j cmd (s.setCtx x (s.ctx x)) := by
  rw [setCtx_self]
  cases cmd with
  | read => exact absurd rfl ne
  | program => simp only [reissueStep, h]
  | clear => simp only [reissueStep, h]

/-! ### The statement's parts -/

/-- A step that arrives at a locked block joins the lock's held list, or is withdrawn with an aborted record (R64, R77). -/
theorem foregroundArrives_locked {u : UnitId} {e : QEntry} (hu : u = s.unitOf (stepLogical (s.ctx x) j cmd))
    (he : e = stepEntry s x j cmd) (live : (s.chan u).state ≠ .offline) (lock : ((s.chan u).lockOn e.block).isSome = true) :
    ((s.ctx x).abortMark = false → (s.ctx x).phase j ≠ none → ∃ t, handle (.foregroundArrives x j cmd) s = (t, [])
      ∧ (t.ctx x).phase j = some (.held cmd)
      ∧ (t.chan u).locks = (s.chan u).locks.map (fun k =>
          if k.block = e.block then { k with held := k.held ++ [(x, j)] } else k)
      ∧ (t.chan u).queue = (s.chan u).queue ∧ (t.chan u).waiting = (s.chan u).waiting)
    ∧ ((s.ctx x).abortMark = true → ∃ t, handle (.foregroundArrives x j cmd) s = (ctxSettle x t, [])
      ∧ BlockGone x j s t ∧ (t.ctx x).failure = (s.ctx x).failure ∧ (t.ctx x).blocksOk = (s.ctx x).blocksOk
      ∧ (t.chan u).locks.map Lock.held = (s.chan u).locks.map Lock.held) := by
  have held := foregroundArrives_held hu he live lock
  constructor
  · intro mark phase
    have kept : keptHeld s [(x, j)] = [(x, j)] := by simp [keptHeld, mark]
    rw [kept, holdStep_kept (by exact mark)] at held
    refine ⟨_, held, ?_, ?_, ?_, ?_⟩
    · rw [ctx_setCtx_same]
      exact setPhase_phase _ phase
    all_goals rw [setCtx_chan, chan_setChan_same]; rfl
  · intro mark
    have kept : keptHeld s [(x, j)] = [] := by simp [keptHeld, mark]
    rw [kept, holdStep_withdrawn (by exact mark)] at held
    refine ⟨_, held, .of_end (by rw [ctx_setCtx_same]; rfl) (by rw [ctx_setCtx_same]; rfl), by rw [ctx_setCtx_same]; rfl,
      by rw [ctx_setCtx_same]; rfl, ?_⟩
    rw [setCtx_chan, chan_setChan_same]
    simp only [Channel.addHeld, List.map_map, List.append_nil]
    refine List.map_congr_left fun k _ => ?_
    rw [Function.comp_apply, ite_self]

/-- The start of a move is taken: the lock stands, the steps on its block are held, and its first entry arrives (R88, R106). -/
theorem moveStart_taken (found : (s.rlt u).move mid = some m) (starting : m.state = .starting) (number : m.mid = mid)
    (live : (s.chan u).state ≠ .offline) (goes : m.req.finding = none ∨ (s.chan u).markOn m.req.src ≠ some .rewritten)
    (free : ∀ e, (s.chan u).performing = some e → e.isForeground = true → e.block ≠ m.req.src) :
    ∃ t steps lock, handle (.moveStart u mid) s
        = (t, [if m.req.cause = .readLost ∨ (m.req.cause = .programFail ∧ m.req.blank = true) then
            .moveEntryArrives u mid .clear (65536 + m.spare)
          else if m.req.cause = .programFail then .moveEntryArrives u mid .program (65536 + m.spare)
          else .moveEntryArrives u mid .read m.req.src])
      ∧ steps = (((s.chan u).queue ++ (s.chan u).waiting).filter fun e => e.foregroundOn m.req.src).filterMap QEntry.step?
      ∧ (t.chan u).locks = (s.chan u).locks ++ [lock] ∧ lock.block = m.req.src ∧ lock.mid = mid
      ∧ lock.held = (steps.map fun h => (h.1, h.2.1)).filter (fun h => !(s.ctx h.1).abortMark)
      ∧ (t.chan u).queue ++ (t.chan u).waiting
        = ((s.chan u).queue ++ (s.chan u).waiting).filter (fun e => !e.foregroundOn m.req.src)
      ∧ (t.chan u).marks = (if m.req.finding = none then
          (s.chan u).marks.map fun k => if k.1 = m.req.src then (m.req.src, .rewritten) else k
        else (s.chan u).marks.filter fun k => k.1 != m.req.src)
      ∧ t.ntu = (if m.req.finding.any (fun tag => tag.lost) then postDataLost u m.req.src 2 none s else s).ntu
      ∧ (t.rlt u).moves = (s.rlt u).moves.map (fun k => if k.mid = mid then
          { m with state := if m.req.cause = .programFail ∨ m.req.cause = .readLost then .writing else .reading }
        else k) := by
  have notPerformed : ¬ (s.chan u).performing.any (fun e => e.foregroundOn m.req.src) = true := by
    rw [performing_any_iff]
    rintro ⟨e, performing, foreground, block⟩
    exact free e performing foreground block
  have kept := setLock_kept u m s
  have taken := (moveStart_accepted found starting live goes notPerformed).trans (startAccepted_eq u m _)
  generalize hw : (if m.req.finding.any (fun tag => tag.lost) then postDataLost u m.req.src 2 none (setLock u m s)
    else setLock u m s) = w at taken
  have posted : NtuOnly (setLock u m s) w := by
    subst hw
    split
    · exact postDataLost_ntuOnly ..
    · exact .refl _
  have chan : w.chan u = lockedChan u m s := (posted.chan u).trans ((kept.chan u).trans (chan_setChan_same ..))
  have table : w.rlt u = s.rlt u := by
    obtain ⟨n, rfl⟩ := posted
    exact congrArg (fun v => v[u]) kept.media.rlts
  subst number
  refine ⟨_, (s.chan u).stepsOn m.req.src, ⟨m.req.src, m.mid, _⟩, taken, rfl, ?_, rfl, rfl, rfl, ?_, ?_, ?_, ?_⟩
  · rw [setRlt_chan, chan]
    rfl
  · rw [setRlt_chan, chan]
    exact lockedChan_order u m s
  · rw [setRlt_chan, chan]
    exact lockedChan_marks u m s
  · rw [setRlt_ntu, ← hw]
    split
    · exact postDataLost_setLock ..
    · exact kept.ntu
  · rw [rlt_setRlt_same, table]
    rfl

/-- Settles O40: arrivals are `foregroundArrives_locked` and its neighbours, the choice `choose_some`, the start of an entry
`select_sends`, the start of a move `moveStart_taken`, its end `endMove_eq`, a released step `reissueStep_write`. -/
theorem commitAndMoveEntriesJoinOrEnd : Obligations.CommitAndMoveEntriesJoinOrEnd := by
  refine ⟨fun u mid b cmd s => ⟨fun off => ⟨if_pos off, if_pos off⟩, fun live => ⟨if_neg live, if_neg live⟩⟩,
    fun x j L cmd s u e hL hu he => ?foreground, moveOnWeak_iff, fun u e s => ?data, fun c e => choose_some, choose_none,
    moveReady_iff, fun u s => ⟨selectEntry_stays, fun e idle chosen => ⟨select_sends idle chosen, fun read poisoned =>
      ⟨fun x j lane region weak => select_poisoned_foreground idle chosen read poisoned,
        fun mid => select_poisoned_move idle chosen read poisoned⟩⟩⟩,
    fun u mid s m found starting number => ⟨moveStart_offline found starting, fun live =>
      ⟨moveStart_dropped found starting live, fun goes => ⟨?deferred, moveStart_taken found starting number live goes⟩⟩⟩,
    fun u mid s => ?leaves, fun x j s => ⟨reissueStep_read, fun cmd ne phase => ⟨fun writable go => ?issued, fun h => ?refused⟩⟩⟩
  case foreground =>
    rw [← stepLogical_eq] at hL
    subst hL
    have entry : e = stepEntry s x j cmd := he
    exact ⟨foregroundArrives_offline hu, foregroundArrives_locked hu entry, fun live free =>
      ⟨foregroundArrives_queued hu entry live free, foregroundArrives_waits hu entry live free⟩⟩
  case data =>
    refine ⟨fun ne => if_neg ne, fun x j lane region weak program source => ?_,
      fun f k program source inFlight copy => ?_, fun mid m program source found => ⟨fun x j staged => ?_, fun b d own read => ?_⟩⟩
    all_goals rw [programData_program program, source]
    · exact commitData_inFlight _ inFlight copy
    · exact moveData_staged found staged
    · exact moveData_read found own read
  case deferred =>
    intro performed
    have deferred := moveStart_deferred found starting live goes ((performing_any_iff _ _).mpr performed)
    refine ⟨_, deferred, ?_, rfl, ?_, ?_⟩
    all_goals
      rw [chan_setChan_same]
      cases m.req.finding <;> rfl
  case leaves =>
    have chan : (leaveSlot u mid s).1.chan u = withoutMoves [mid] (s.chan u) := (chan_setChan_same ..).trans (endMove_eq ..)
    refine ⟨(leaveSlot u mid s).1, ?_, chan, leaveSlot_rlt u mid s, fun v hv => ⟨chan_setChan_other _ _ _ _ hv, ?_⟩, rfl, rfl,
      rfl⟩
    · rw [chan, ← endMove_eq, ← leaveSlot_reports]
    · exact rlt_setRlt_other _ _ _ _ hv
  case issued => exact (reissueStep_write ne phase).trans (issueProgram_issues writable go)
  case refused =>
    exact ⟨_, (reissueStep_write ne phase).trans (issueProgram_refuses h), blockGone_setCtx rfl rfl,
      by rw [ctx_setCtx_same]; rfl, by rw [ctx_setCtx_same]⟩

end Sys2Proof.Machine
end

section
/-! The patrol unit's own operations (R123 to R127): what the becoming READY, the offer, the answers and the passing of a block
make of the unit's items. -/

namespace Sys2Proof.Machine

variable {s t : State} {u : UnitId} {b : Nat} {cls : ReadClass}

/-! ### A unit's items -/

theorem patrolUnit_same (h : t.patrol = s.patrol) (v : UnitId) : t.patrolUnit v = s.patrolUnit v := by
  simp only [State.patrolUnit, h]

theorem setSub_eq (u : UnitId) (sub : SubState) (s : State) :
    setSub u sub s = s.setPatrolUnit u { s.patrolUnit u with sub := sub } := rfl

theorem stopUnit_eq (u : UnitId) (s : State) :
    stopUnit u s
      = s.setPatrolUnit u { s.patrolUnit u with sub := .stoppedUnit, paceTimer := none, settleTimer := none } := rfl

theorem advanceCursor_eq (u : UnitId) (s : State) :
    advanceCursor u s = s.setPatrolUnit u { s.patrolUnit u with cursor := (s.patrolUnit u).cursor + 1 } := rfl

theorem offerTaken_eq (u : UnitId) (s : State) :
    offerTaken u s = s.setPatrolUnit u { s.patrolUnit u with
      sub := .readOut
      paceTimer := some (s.tick + BitVec.ofNat 64 (1000000 / s.patrol.cfg.pace))
      settleTimer := none } := rfl

theorem PatrolUnit.over_iff (p : PatrolUnit) : p.over = true ↔ 65536 ≤ p.cursor := decide_eq_true_iff

/-! ### The channel's answer to an offer (R79, R82) -/

/-- The items of the units play no part in the answer. -/
theorem offerAnswer_setPatrolUnit (s : State) (u v : UnitId) (p : PatrolUnit) (b : Nat) :
    offerAnswer (s.setPatrolUnit u p) v b = offerAnswer s v b := rfl

theorem Channel.quiet_iff {c : Channel} : c.quiet = true ↔ c.link = .idle ∧ c.queue = [] := by
  simp [Channel.quiet]

theorem offerAnswer_offline (h : (s.chan u).state.inService = false) : offerAnswer s u b = .offline := by
  simp [offerAnswer, h]

section
variable (hs : (s.chan u).state.inService = true)
include hs

theorem offerAnswer_busy (h : (s.chan u).link ≠ .idle ∨ (s.chan u).queue ≠ [] ∨ (s.chan u).waiting ≠ []) :
    offerAnswer s u b = .busy := by
  have taken : (s.chan u).quiet = false ∨ (s.chan u).waiting ≠ [] := by
    rw [← Bool.not_eq_true, Channel.quiet_iff]
    tauto
  simp [offerAnswer, hs, taken]

variable (hl : (s.chan u).link = .idle) (hq : (s.chan u).queue = []) (hw : (s.chan u).waiting = [])
include hl hq hw

theorem offerAnswer_settling {d : Tick} (h : (s.chan u).lastDeparture = some d)
    (hd : reached s.tick (d + BitVec.ofNat 64 s.patrol.cfg.settle) = false) : offerAnswer s u b = .settling d := by
  simp [offerAnswer, hs, Channel.quiet_iff.mpr ⟨hl, hq⟩, hw, h, settleEnd, hd]

/-- A settled channel with nothing to do judges the block. -/
theorem offerAnswer_judged
    (h : ∀ d, (s.chan u).lastDeparture = some d → reached s.tick (d + BitVec.ofNat 64 s.patrol.cfg.settle) = true) :
    offerAnswer s u b = if ((s.chan u).lockOn b).isSome then .moving
      else if (s.rlt u).table.poisoned b then .poisoned else .accepted := by
  simp only [offerAnswer, hs, Channel.quiet_iff.mpr ⟨hl, hq⟩, hw]
  cases hd : (s.chan u).lastDeparture with
  | none => rfl
  | some d => simp [settleEnd, h d hd]

end

/-! ### Becoming READY (R124, R135) -/

theorem becomeReady_waits (h : s.patrol.running = false ∨ s.dev.state ≠ .running ∨ s.patrol.stopMark = true) :
    becomeReady u s = (s.setPatrolUnit u { s.patrolUnit u with sub := .ready }, []) := by
  have waits : (!s.patrol.running || s.dev.state != .running || s.patrol.stopMark) = true := by
    simpa [or_assoc] using h
  exact if_pos waits

section
variable (hr : s.patrol.running = true) (hd : s.dev.state = .running) (hm : s.patrol.stopMark = false)
include hr hd hm

theorem becomeReady_unpaced (h : s.patrol.cfg.pace = 0) :
    becomeReady u s = (s.setPatrolUnit u { s.patrolUnit u with sub := .paceWait, paceTimer := none }, []) := by
  simp [becomeReady, setSub_eq, modPatrolUnit, hr, hd, hm, h]

theorem becomeReady_offers (h : 0 < s.patrol.cfg.pace) :
    becomeReady u s = offerBlock u (s.setPatrolUnit u { s.patrolUnit u with sub := .ready }) := by
  simp [becomeReady, setSub_eq, hr, hd, hm, Nat.ne_of_gt h]

end

/-! ### The offer (R79, R124, R125)

The unit's items after each answer, and what the answer sets off. -/

theorem offerBlock_moving (h : offerAnswer s u (s.patrolUnit u).cursor = .moving) :
    offerBlock u s
      = (s.setPatrolUnit u { s.patrolUnit u with
          cursor := (s.patrolUnit u).cursor + 1
          sub := if 65536 ≤ (s.patrolUnit u).cursor + 1 then .finished else (s.patrolUnit u).sub },
        if 65536 ≤ (s.patrolUnit u).cursor + 1 then [.passCheck] else [.patrolReady u]) := by
  simp only [offerBlock, h, advanceCursor_eq, setSub_eq, patrolUnit_setPatrolUnit_same, PatrolUnit.over_iff,
    setPatrolUnit_setPatrolUnit]
  split <;> rfl

theorem offerBlock_poisoned (h : offerAnswer s u (s.patrolUnit u).cursor = .poisoned) :
    offerBlock u s = (offerTaken u s, [.patrolReadEnds u .poisoned false false]) := by
  simp only [offerBlock, h]

theorem offerBlock_busy (h : offerAnswer s u (s.patrolUnit u).cursor = .busy) :
    offerBlock u s = (s.setPatrolUnit u { s.patrolUnit u with sub := .suspended, settleTimer := none }, []) := by
  simp only [offerBlock, h, modPatrolUnit]

theorem offerBlock_settling {d : Tick} (h : offerAnswer s u (s.patrolUnit u).cursor = .settling d) :
    offerBlock u s
      = (s.setPatrolUnit u { s.patrolUnit u with
          sub := .suspended, settleTimer := some (d + BitVec.ofNat 64 s.patrol.cfg.settle) }, []) := by
  simp only [offerBlock, h, modPatrolUnit, settleEnd]

theorem offerBlock_offline (h : offerAnswer s u (s.patrolUnit u).cursor = .offline) :
    offerBlock u s = (stopUnit u s, [.passCheck]) := by
  simp only [offerBlock, h]

/-- An accepted read is sent at once (R79). -/
theorem offerBlock_accepted {e : QEntry} (h : offerAnswer s u (s.patrolUnit u).cursor = .accepted)
    (he : e = ⟨.patrol, .read, (s.patrolUnit u).cursor⟩) :
    offerBlock u s = (sendEntry u e ((s.rlt u).table.target (s.patrolUnit u).cursor) [] false
      ((offerTaken u s).setChan u ((s.chan u).setMark (s.patrolUnit u).cursor .cleanSinceRead)), []) := by
  subst he
  simp only [offerBlock, h]
  rfl

/-! ### A block dealt with (R123, R125, R127) -/

/-- The items of a unit that has passed the block at its cursor. -/
def PatrolUnit.passed (p : PatrolUnit) : PatrolUnit :=
  { p with
    cursor := p.cursor + 1
    sub := if 65536 ≤ p.cursor + 1 then .finished else if p.paceTimer.isSome then .paceWait else .ready }

theorem PatrolUnit.passed_of_last {p : PatrolUnit} (h : 65536 ≤ p.cursor + 1) : p.passed.sub = .finished := if_pos h

section
variable {p : PatrolUnit} (h : p.cursor + 1 < 65536)
include h

theorem PatrolUnit.passed_of_waits (ht : p.paceTimer ≠ none) : p.passed.sub = .paceWait :=
  (if_neg h.not_ge).trans (if_pos (Option.isSome_iff_ne_none.mpr ht))

theorem PatrolUnit.passed_of_ready (ht : p.paceTimer = none) : p.passed.sub = .ready :=
  (if_neg h.not_ge).trans (if_neg (by simp [ht]))

end

theorem blockDone_eq (u : UnitId) (cls : ReadClass) (s : State) :
    blockDone u cls s = ((addTally cls s).setPatrolUnit u (s.patrolUnit u).passed,
      if (s.patrolUnit u).passed.sub = .ready then [.patrolReady u, .passCheck] else [.passCheck]) := by
  have items : (addTally cls s).patrolUnit u = s.patrolUnit u := rfl
  simp only [blockDone, advanceCursor_eq, setSub_eq, patrolUnit_setPatrolUnit_same, PatrolUnit.over_iff,
    setPatrolUnit_setPatrolUnit, items, PatrolUnit.passed]
  by_cases last : 65536 ≤ (s.patrolUnit u).cursor + 1
  · simp [last]
  · by_cases runs : (s.patrolUnit u).paceTimer.isSome = true <;> simp [last, runs]

theorem Tallies.add_eq (t : Tallies) (cls : ReadClass) : t.add cls = { t with
    read := t.read + 1
    corrected := t.corrected + (if cls = .corrected then 1 else 0)
    blankSkipped := t.blankSkipped + (if cls = .blank then 1 else 0)
    lostFound := t.lostFound + (if cls = .uncorrectable ∨ cls = .poisoned then 1 else 0) } := by
  cases cls <;> rfl

end Sys2Proof.Machine
end

section
/-! O48 and O49. The timers, the offer with its answers, the ends of reads and findings, and the reports to the unit (R79, R87,
R124 to R129, R135, R136). -/

namespace Sys2Proof.Machine

variable {s t : State} {u : UnitId} {b : Nat} {cls : ReadClass} {tag : FindingTag}

/-! ### Read ends and findings (R127 to R129) -/

/-- `t` is `s` but for unit `u`'s sub-state, settle timer and findings and for the channels: patrol passes the block at the
cursor of both alike. -/
structure SameCursor (u : UnitId) (s t : State) : Prop where
  cursor : (t.patrolUnit u).cursor = (s.patrolUnit u).cursor
  timer : (t.patrolUnit u).paceTimer = (s.patrolUnit u).paceTimer
  tallies : t.patrol.tallies = s.patrol.tallies
  others : ∀ v, v ≠ u → t.patrolUnit v = s.patrolUnit v
  device : SameDevice s t ∧ t.out = s.out ∧ t.ctxs = s.ctxs ∧ t.rlts = s.rlts ∧ t.cme = s.cme

theorem SameCursor.refl (u : UnitId) (s : State) : SameCursor u s s :=
  ⟨rfl, rfl, rfl, fun _ _ => rfl, .refl s, rfl, rfl, rfl, rfl⟩

theorem blockDone_passed (h : SameCursor u s t) : BlockPassed u cls s (blockDone u cls t).1 (blockDone u cls t).2 := by
  have items : (blockDone u cls t).1.patrolUnit u = (t.patrolUnit u).passed := by
    rw [blockDone_eq, patrolUnit_setPatrolUnit_same]
  obtain ⟨device, out, ctxs, rlts, cme⟩ := h.device
  have passed : SameDevice t (blockDone u cls t).1 := by
    rw [blockDone_eq]
    exact ⟨rfl, rfl, rfl, rfl, rfl, rfl, rfl, rfl, rfl, rfl, rfl⟩
  refine ⟨?_, ?_, fun last => ?_, fun more runs => ?_, fun more stopped => ?_, ?_, fun v hv => ?_,
    device.trans passed, ?_, ?_, ?_, ?_⟩
  · rw [items, ← h.cursor]
    rfl
  · rw [blockDone_eq, ← h.tallies]
    exact Tallies.add_eq ..
  · simp [blockDone_eq, PatrolUnit.passed_of_last (h.cursor ▸ last)]
  · simp [blockDone_eq, PatrolUnit.passed_of_waits (h.cursor ▸ more) (h.timer ▸ runs)]
  · simp [blockDone_eq, PatrolUnit.passed_of_ready (h.cursor ▸ more) (h.timer ▸ stopped)]
  · rw [items, ← h.timer]
    rfl
  · rw [blockDone_eq, patrolUnit_setPatrolUnit_other _ _ _ _ hv, ← h.others v hv]
    rfl
  all_goals rw [blockDone_eq]; assumption

theorem blockDone_chans (u : UnitId) (cls : ReadClass) (s : State) : (blockDone u cls s).1.chans = s.chans := by
  rw [blockDone_eq]
  rfl

theorem blockDone_findings (u : UnitId) (cls : ReadClass) (s : State) :
    ((blockDone u cls s).1.patrolUnit u).findings = (s.patrolUnit u).findings := by
  rw [blockDone_eq, patrolUnit_setPatrolUnit_same]
  rfl

theorem patrolReadEnds_stale (h : s.patrol.running = false ∨ (s.patrolUnit u).sub ≠ .readOut) (cls : ReadClass)
    (weak : Bool) : patrolReadEnds u cls weak s = (s, []) := by
  refine if_neg fun taken => ?_
  simp only [Bool.and_eq_true, beq_iff_eq] at taken
  simp [taken] at h

section
variable (hr : s.patrol.running = true) (ho : (s.patrolUnit u).sub = .readOut)
include hr ho

theorem patrolReadEnds_passes {weak : Bool}
    (h : cls = .clean ∨ cls = .blank ∨ cls = .poisoned ∨ (cls = .corrected ∧ weak = false)) :
    patrolReadEnds u cls weak s = blockDone u cls s := by
  rcases h with rfl | rfl | rfl | ⟨rfl, rfl⟩ <;> simp [patrolReadEnds, hr, ho]

theorem patrolReadEnds_finding {weak : Bool} (h : (cls = .corrected ∧ weak = true) ∨ cls = .uncorrectable) :
    patrolReadEnds u cls weak s = (s, [.moveRequest u (findingRequest s u (decide (cls = .uncorrectable)))]) := by
  rcases h with ⟨rfl, rfl⟩ | rfl <;> simp [patrolReadEnds, hr, ho]

end

/-- A report on a finding is for the open pass and a unit that holds its cursor for it (R128). -/
theorem findingAnswered_stale
    (h : s.patrol.running = false ∨ tag.pass ≠ s.patrol.passNumber ∨ (s.patrolUnit u).sub ≠ .readOut)
    (b : Nat) (answer : FindingAnswer) : findingAnswered u b tag answer s = (s, []) := by
  refine if_neg fun taken => ?_
  simp only [Bool.and_eq_true, beq_iff_eq, and_assoc] at taken
  obtain ⟨running, pass, sub⟩ := taken
  simp [running, pass, sub] at h

section
variable (hr : s.patrol.running = true) (hp : tag.pass = s.patrol.passNumber) (ho : (s.patrolUnit u).sub = .readOut)
include hr hp ho

theorem findingAnswered_taken (b : Nat) :
    findingAnswered u b tag .taken s = blockDone u tag.cls
      (s.setPatrolUnit u { s.patrolUnit u with findings := (s.patrolUnit u).findings ++ [b] }) := by
  simp [findingAnswered, hr, hp, ho, modPatrolUnit]

theorem findingAnswered_settled (b : Nat) {answer : FindingAnswer} (h : answer = .absorbed ∨ answer = .ended) :
    findingAnswered u b tag answer s = blockDone u tag.cls (settleFinding u b s) := by
  rcases h with rfl | rfl <;> simp [findingAnswered, hr, hp, ho]

theorem findingAnswered_full (b : Nat) :
    findingAnswered u b tag .full s = (setSub u .moveWait (settleFinding u b s), [.passCheck]) := by
  simp [findingAnswered, hr, hp, ho]

end

theorem settleFinding_sameCursor (u : UnitId) (b : Nat) (s : State) : SameCursor u s (settleFinding u b s) :=
  ⟨rfl, rfl, rfl, fun _ _ => rfl, ⟨rfl, rfl, rfl, rfl, rfl, rfl, rfl, rfl, rfl, rfl, rfl⟩, rfl, rfl, rfl, rfl⟩

theorem settleFinding_marks (u : UnitId) (b : Nat) (s : State) :
    ((settleFinding u b s).chan u).marks = (s.chan u).marks.filter fun m => m.1 != b := by
  rw [settleFinding, chan_setChan_same]
  rfl

/-- A unit whose findings alone have changed. -/
theorem setFindings_sameCursor (u : UnitId) (bs : List Nat) (s : State) :
    SameCursor u s (s.setPatrolUnit u { s.patrolUnit u with findings := bs }) :=
  ⟨by rw [patrolUnit_setPatrolUnit_same], by rw [patrolUnit_setPatrolUnit_same], rfl,
    fun _ hv => patrolUnit_setPatrolUnit_other _ _ _ _ hv,
    ⟨rfl, rfl, rfl, rfl, rfl, rfl, rfl, rfl, rfl, rfl, rfl⟩, rfl, rfl, rfl, rfl⟩

theorem chan_same (h : t.chans = s.chans) (v : UnitId) : t.chan v = s.chan v := by
  simp only [State.chan, h]

theorem findingAnswered_reported (hr : s.patrol.running = true) (hp : tag.pass = s.patrol.passNumber)
    (ho : (s.patrolUnit u).sub = .readOut) (b : Nat) (answer : FindingAnswer) :
    ∃ t ms, handle (.findingAnswered u b tag answer) s = (t, ms)
      ∧ (answer ≠ .full → BlockPassed u (if tag.lost then .uncorrectable else .corrected) s t ms)
      ∧ (t.patrolUnit u).findings
        = (if answer = .taken then (s.patrolUnit u).findings ++ [b] else (s.patrolUnit u).findings)
      ∧ (t.chan u).marks
        = (if answer = .taken then (s.chan u).marks else (s.chan u).marks.filter fun m => m.1 != b)
      ∧ (answer = .full → (t.patrolUnit u).sub = .moveWait ∧ (t.patrolUnit u).cursor = (s.patrolUnit u).cursor
        ∧ t.patrol.tallies = s.patrol.tallies ∧ ms = [.passCheck]) := by
  have settled (h : answer = .absorbed ∨ answer = .ended) :
      handle (.findingAnswered u b tag answer) s = blockDone u tag.cls (settleFinding u b s)
        ∧ ((blockDone u tag.cls (settleFinding u b s)).1.patrolUnit u).findings = (s.patrolUnit u).findings
        ∧ ((blockDone u tag.cls (settleFinding u b s)).1.chan u).marks = (s.chan u).marks.filter fun m => m.1 != b :=
    ⟨findingAnswered_settled hr hp ho b h, blockDone_findings ..,
      by rw [chan_same (blockDone_chans ..), settleFinding_marks]⟩
  cases answer with
  | taken =>
    let noted := s.setPatrolUnit u { s.patrolUnit u with findings := (s.patrolUnit u).findings ++ [b] }
    refine ⟨(blockDone u tag.cls noted).1, (blockDone u tag.cls noted).2, findingAnswered_taken hr hp ho b,
      fun _ => blockDone_passed (setFindings_sameCursor ..), ?_, ?_, nofun⟩
    · rw [blockDone_findings, patrolUnit_setPatrolUnit_same]
      rfl
    · rw [chan_same (blockDone_chans ..)]
      rfl
  | absorbed =>
    obtain ⟨reported, findings, marks⟩ := settled (.inl rfl)
    exact ⟨_, _, reported, fun _ => blockDone_passed (settleFinding_sameCursor ..), findings, marks, nofun⟩
  | ended =>
    obtain ⟨reported, findings, marks⟩ := settled (.inr rfl)
    exact ⟨_, _, reported, fun _ => blockDone_passed (settleFinding_sameCursor ..), findings, marks, nofun⟩
  | full =>
    have items : (setSub u .moveWait (settleFinding u b s)).patrolUnit u = { s.patrolUnit u with sub := .moveWait } :=
      patrolUnit_setPatrolUnit_same ..
    refine ⟨_, _, findingAnswered_full hr hp ho b, fun h => absurd rfl h, by rw [items]; rfl, settleFinding_marks u b s,
      fun _ => ⟨?_, ?_, rfl, rfl⟩⟩
    · rw [items]
    · rw [items]

theorem findingEnded_stale (h : s.patrol.running = false ∨ tag.pass ≠ s.patrol.passNumber) (b : Nat) (res : FindingEnd) :
    findingEnded u b tag res s = (s, []) := by
  refine if_neg fun taken => ?_
  simp only [Bool.and_eq_true, beq_iff_eq] at taken
  simp [taken] at h

theorem findingEnded_leaves (hr : s.patrol.running = true) (hp : tag.pass = s.patrol.passNumber) (b : Nat) (res : FindingEnd) :
    ∃ t, handle (.findingEnded u b tag res) s = (t, [.passCheck])
      ∧ t.patrolUnit u = { s.patrolUnit u with findings := (s.patrolUnit u).findings.erase b }
      ∧ t.patrol.tallies = { s.patrol.tallies with
          weakMoved := s.patrol.tallies.weakMoved + (if res = .moved ∧ tag.lost = false then 1 else 0) } := by
  have own : (s.patrol.running && tag.pass == s.patrol.passNumber) = true := by simp [hr, hp]
  let left := s.setPatrolUnit u { s.patrolUnit u with findings := (s.patrolUnit u).findings.erase b }
  refine ⟨left.setPatrol { left.patrol with tallies := { s.patrol.tallies with
    weakMoved := s.patrol.tallies.weakMoved + (if res = .moved ∧ tag.lost = false then 1 else 0) } },
    (if_pos own).trans ?_, patrolUnit_setPatrolUnit_same s u _, rfl⟩
  by_cases moved : res = .moved ∧ tag.lost = false
  · simp only [moved, Bool.false_eq_true, not_false_eq_true, and_self, if_true]
    rfl
  · rw [if_neg (by simpa using moved), if_neg moved]
    rfl

/-! ### Reports to the unit (R79, R126, R128, R136) -/

theorem quietReport_disregarded
    (h : (s.chan u).link ≠ .idle ∨ (s.chan u).queue ≠ [] ∨ s.patrol.running = false
      ∨ (s.patrolUnit u).sub ≠ .suspended) : quietReport u s = (s, []) := by
  refine if_neg fun waits => ?_
  simp only [Bool.and_eq_true, beq_iff_eq, Channel.quiet_iff, and_assoc] at waits
  obtain ⟨link, queue, running, sub⟩ := waits
  simp [link, queue, running, sub] at h

section
variable (hl : (s.chan u).link = .idle) (hq : (s.chan u).queue = []) (hr : s.patrol.running = true)
  (hs : (s.patrolUnit u).sub = .suspended)
include hl hq hr hs

theorem quietReport_readies
    (h : ∀ d, (s.chan u).lastDeparture = some d → reached s.tick (d + BitVec.ofNat 64 s.patrol.cfg.settle) = true) :
    quietReport u s = becomeReady u s := by
  simp only [quietReport, Channel.quiet_iff.mpr ⟨hl, hq⟩, hr, hs]
  cases hd : (s.chan u).lastDeparture with
  | none => rfl
  | some d => simp [settleEnd, h d hd]

theorem quietReport_settles {d : Tick} (hd : (s.chan u).lastDeparture = some d)
    (h : reached s.tick (d + BitVec.ofNat 64 s.patrol.cfg.settle) = false) :
    quietReport u s = (s.setPatrolUnit u
      { s.patrolUnit u with settleTimer := some (d + BitVec.ofNat 64 s.patrol.cfg.settle) }, []) := by
  simp [quietReport, Channel.quiet_iff.mpr ⟨hl, hq⟩, hr, hs, hd, settleEnd, h, modPatrolUnit]

end

theorem patrolLost_eq (u : UnitId) (s : State) :
    patrolLost u s = if s.patrol.running = true ∧ u.val < s.width then
        (s.setPatrolUnit u { s.patrolUnit u with sub := .stoppedUnit, paceTimer := none, settleTimer := none }, [.passCheck])
      else (s, []) := by
  simp only [patrolLost, State.isMember, Bool.and_eq_true, decide_eq_true_eq, stopUnit_eq]

/-! ### The offer of a READY unit (R124) -/

section
variable (hr : s.patrol.running = true) (hd : s.dev.state = .running) (hm : s.patrol.stopMark = false)
  (hp : 0 < s.patrol.cfg.pace)
include hr hd hm hp

theorem becomeReady_reads (h : offerAnswer s u (s.patrolUnit u).cursor = .accepted) :
    ∃ t, handle (.patrolReady u) s = (t, [])
      ∧ (t.patrolUnit u).sub = .readOut ∧ (t.patrolUnit u).cursor = (s.patrolUnit u).cursor
      ∧ (t.patrolUnit u).paceTimer = some (s.tick + BitVec.ofNat 64 (1000000 / s.patrol.cfg.pace))
      ∧ (t.chan u).performing = some ⟨.patrol, .read, (s.patrolUnit u).cursor⟩
      ∧ (t.chan u).marks = ((s.chan u).marks.filter fun k => k.1 != (s.patrolUnit u).cursor)
          ++ [((s.patrolUnit u).cursor, .cleanSinceRead)]
      ∧ t.out = s.out ++ [.media u ((s.chan u).sent + 1) (.read ((s.rlt u).table.target (s.patrolUnit u).cursor))] := by
  have cursor : ((s.setPatrolUnit u { s.patrolUnit u with sub := .ready }).patrolUnit u).cursor = (s.patrolUnit u).cursor := by
    rw [patrolUnit_setPatrolUnit_same]
  have offered : handle (.patrolReady u) s = offerBlock u (s.setPatrolUnit u { s.patrolUnit u with sub := .ready }) :=
    becomeReady_offers hr hd hm hp
  rw [offerBlock_accepted (by rwa [cursor]) rfl, cursor] at offered
  refine ⟨_, offered, ?_⟩
  rw [sendEntry_chan, chan_setChan_same]
  simp only [sendEntry, emit_patrolUnit, setChan_patrolUnit, offerTaken_eq, setPatrolUnit_setPatrolUnit,
    patrolUnit_setPatrolUnit_same, emit_out, setChan_out, setPatrolUnit_out, chan_setChan_same]
  exact ⟨trivial, trivial, rfl, rfl, rfl, rfl⟩

/-- The unit's items after any other answer. -/
theorem becomeReady_passedBy (h : offerAnswer s u (s.patrolUnit u).cursor ≠ .accepted) : ∃ v ms,
    handle (.patrolReady u) s = (s.setPatrolUnit u v, ms)
    ∧ (offerAnswer s u (s.patrolUnit u).cursor = .moving →
      v = { s.patrolUnit u with
          cursor := (s.patrolUnit u).cursor + 1
          sub := if 65536 ≤ (s.patrolUnit u).cursor + 1 then .finished else .ready }
        ∧ ms = if 65536 ≤ (s.patrolUnit u).cursor + 1 then [.passCheck] else [.patrolReady u])
    ∧ (offerAnswer s u (s.patrolUnit u).cursor = .poisoned →
      v = { s.patrolUnit u with
          sub := .readOut
          paceTimer := some (s.tick + BitVec.ofNat 64 (1000000 / s.patrol.cfg.pace))
          settleTimer := none }
        ∧ ms = [.patrolReadEnds u .poisoned false false])
    ∧ (offerAnswer s u (s.patrolUnit u).cursor = .busy →
      v = { s.patrolUnit u with sub := .suspended, settleTimer := none } ∧ ms = [])
    ∧ (∀ d, offerAnswer s u (s.patrolUnit u).cursor = .settling d →
      v = { s.patrolUnit u with
          sub := .suspended, settleTimer := some (d + BitVec.ofNat 64 s.patrol.cfg.settle) } ∧ ms = [])
    ∧ (offerAnswer s u (s.patrolUnit u).cursor = .offline →
      v = { s.patrolUnit u with sub := .stoppedUnit, paceTimer := none, settleTimer := none } ∧ ms = [.passCheck]) := by
  have items := patrolUnit_setPatrolUnit_same s u { s.patrolUnit u with sub := .ready }
  have offered : handle (.patrolReady u) s = offerBlock u (s.setPatrolUnit u { s.patrolUnit u with sub := .ready }) :=
    becomeReady_offers hr hd hm hp
  have answer : offerAnswer (s.setPatrolUnit u { s.patrolUnit u with sub := .ready }) u
      ((s.setPatrolUnit u { s.patrolUnit u with sub := .ready }).patrolUnit u).cursor
        = offerAnswer s u (s.patrolUnit u).cursor := by
    rw [items, offerAnswer_setPatrolUnit]
  cases ha : offerAnswer s u (s.patrolUnit u).cursor with
  | accepted => exact absurd ha h
  | moving =>
    rw [offerBlock_moving (answer.trans ha), items, setPatrolUnit_setPatrolUnit] at offered
    exact ⟨_, _, offered, fun _ => ⟨rfl, rfl⟩, nofun, nofun, nofun, nofun⟩
  | poisoned =>
    rw [offerBlock_poisoned (answer.trans ha), offerTaken_eq, items, setPatrolUnit_setPatrolUnit] at offered
    exact ⟨_, _, offered, nofun, fun _ => ⟨rfl, rfl⟩, nofun, nofun, nofun⟩
  | busy =>
    rw [offerBlock_busy (answer.trans ha), items, setPatrolUnit_setPatrolUnit] at offered
    exact ⟨_, _, offered, nofun, nofun, fun _ => ⟨rfl, rfl⟩, nofun, nofun⟩
  | settling d =>
    rw [offerBlock_settling (answer.trans ha), items, setPatrolUnit_setPatrolUnit] at offered
    refine ⟨_, _, offered, nofun, nofun, nofun, fun k hk => ?_, nofun⟩
    obtain rfl := OfferAnswer.settling.inj hk
    exact ⟨rfl, rfl⟩
  | offline =>
    rw [offerBlock_offline (answer.trans ha), stopUnit_eq, items, setPatrolUnit_setPatrolUnit] at offered
    exact ⟨_, _, offered, nofun, nofun, nofun, nofun, fun _ => ⟨rfl, rfl⟩⟩

end

/-- Settles O49: each message to the unit by the lemmas about its operation. -/
theorem readyUnitReadsItsCursorBlock : Obligations.ReadyUnitReadsItsCursorBlock := by
  refine ⟨fun u s hd hr hm hp => becomeReady_reads hr hd hm hp,
    fun u b s => ⟨offerAnswer_offline, fun hs => ⟨offerAnswer_busy hs, fun hl hq hw =>
      ⟨fun d => offerAnswer_settling hs hl hq hw, fun settled => ?judged⟩⟩⟩,
    fun u s => ⟨becomeReady_waits, fun hr hd hm => ⟨becomeReady_unpaced hr hd hm, becomeReady_passedBy hr hd hm⟩⟩,
    fun u cls weak sp s => ⟨fun h => patrolReadEnds_stale h cls weak,
      fun hr ho => ⟨fun h => ?passes, fun h => ?finding⟩⟩,
    fun u b tag answer s => ⟨fun h => findingAnswered_stale h b answer,
      fun hr hp ho => findingAnswered_reported hr hp ho b answer⟩,
    fun u b tag res s => ⟨fun h => findingEnded_stale h b res, fun hr hp => findingEnded_leaves hr hp b res⟩,
    fun u s => ⟨?freeSlot, quietReport_disregarded, fun hl hq hr hs => ⟨quietReport_readies hl hq hr hs,
      fun d => quietReport_settles hl hq hr hs⟩, fun _ => patrolLost_eq u s⟩⟩
  case judged =>
    rw [offerAnswer_judged hs hl hq hw settled]
    exact ⟨fun locked => if_pos (Option.isSome_iff_ne_none.mpr locked), fun free poisoned => by simp [free, poisoned],
      fun free sound => by simp [free, sound]⟩
  case passes =>
    exact ⟨_, _, patrolReadEnds_passes hr ho h, blockDone_passed (.refl u s), blockDone_chans .., blockDone_findings ..⟩
  case finding =>
    refine (patrolReadEnds_finding hr ho h).trans ?_
    simp only [findingRequest, decide_eq_true_eq]
  case freeSlot =>
    show freeSlotReport u s = _
    simp only [freeSlotReport, Bool.and_eq_true, beq_iff_eq]
    rfl

/-! ### The timers (R125, R126, R135) -/

theorem paceExpiry_notDue (h : ∀ t, (s.patrolUnit u).paceTimer = some t → reached s.tick t = false) :
    exec (.paceExpiry u) s = .next s := by
  show execPaceExpiry u s = _
  rw [execPaceExpiry]
  cases hp : (s.patrolUnit u).paceTimer with
  | none => rfl
  | some t => simp [h t hp]

theorem paceExpiry_due {expiry : Tick} (h : (s.patrolUnit u).paceTimer = some expiry) (hd : reached s.tick expiry = true) :
    exec (.paceExpiry u) s = .next (workOff (paceExpires u s)) := by
  show execPaceExpiry u s = _
  simp only [execPaceExpiry, h, hd, if_true]

theorem settleExpiry_notDue (h : ∀ t, (s.patrolUnit u).settleTimer = some t → reached s.tick t = false) :
    exec (.settleExpiry u) s = .next s := by
  show execSettleExpiry u s = _
  rw [execSettleExpiry]
  cases hp : (s.patrolUnit u).settleTimer with
  | none => rfl
  | some t => simp [h t hp]

theorem settleExpiry_due {expiry : Tick} (h : (s.patrolUnit u).settleTimer = some expiry) (hd : reached s.tick expiry = true) :
    exec (.settleExpiry u) s = .next (workOff (settleExpires u s)) := by
  show execSettleExpiry u s = _
  simp only [execSettleExpiry, h, hd, if_true]

/-- In a device that is not RUNNING a unit whose timer has stopped waits in READY (R135). -/
theorem becomeReady_notRunning (h : s.dev.state ≠ .running) (p : PatrolUnit) :
    workOff (becomeReady u (s.setPatrolUnit u p)) = s.setPatrolUnit u { p with sub := .ready } := by
  have waits := becomeReady_waits (s := s.setPatrolUnit u p) (u := u) (.inr (.inl h))
  rw [waits, workOff_none, patrolUnit_setPatrolUnit_same, setPatrolUnit_setPatrolUnit]

/-- Settles O48: a due timer stops, and the unit it kept waiting becomes READY. -/
theorem patrolTimersExpire : Obligations.PatrolTimersExpire := by
  refine ⟨fun u s => ⟨paceExpiry_notDue, fun expiry timer due => ?pace⟩,
    fun u s => ⟨settleExpiry_notDue, fun expiry timer due => ?settle⟩⟩
  case pace =>
    rw [paceExpiry_due timer due]
    refine ⟨fun stays => ?_, fun waits paced idle => ?_, fun waits paced _ => ?_⟩
    · rw [paceExpires, if_neg (fun ⟨waits, paced⟩ => stays.elim (· waits) (Nat.ne_of_gt paced)), workOff_none]
      rfl
    · rw [paceExpires, if_pos ⟨waits, paced⟩]
      exact congrArg _ (becomeReady_notRunning idle _)
    · rw [paceExpires, if_pos ⟨waits, paced⟩]
      rfl
  case settle =>
    rw [settleExpiry_due timer due]
    refine ⟨fun stays => ?_, fun waits idle => ?_, fun waits _ => ?_⟩
    · rw [settleExpires, if_neg stays, workOff_none]
      rfl
    · rw [settleExpires, if_pos waits]
      exact congrArg _ (becomeReady_notRunning idle _)
    · rw [settleExpires, if_pos waits]
      rfl

end Sys2Proof.Machine
end

section
/-! O30 and O31. START_PASS, STOP_PASS and SET (R49, R60, R122, R132 to R134), the course of a pass (R122, R130, R131), and the
ends a waiting context is decided by (R20, R65, R133). -/

namespace Sys2Proof.Machine

variable {s t u : State} {l : LaneId} {x : CtxId} {r : Bytes} {a : Addr}

/-! ### Units in service (R122) -/

theorem UnitState.inService_iff (st : UnitState) : st.inService = true ↔ st = .online ∨ st = .degraded := by
  cases st <;> simp [UnitState.inService]

/-! ### A context decided by the end it waits for (R20, R54, R133) -/

/-- A context that has nothing left to wait for decides its record, and nothing else changes. -/
theorem ctxSettle_decides {c : Context} {fs : FinalState} {st : Status} {w : BitVec 64}
    (hs : c.state = .drainingSteps ∨ c.state = .commitWait) (left : NothingLeft c) (hh : s.dev.state ≠ .halted)
    (ho : c.outcome = (fs, st)) (hw : c.resultWord s.cme.gen fs = w) :
    Decided (ctxSettle x (s.setCtx x c)) x fs st w ∧ CtxOnly x s (ctxSettle x (s.setCtx x c)) := by
  have ctx : (s.setCtx x c).ctx x = c := ctx_setCtx_same ..
  have settled : ctxSettle x (s.setCtx x c) = enterFinishing x (s.setCtx x c) := by
    have settles := ctxSettle_settles (s := s.setCtx x c) (x := x) hh (by rw [ctx]; exact .inr hs)
    rwa [ctx, if_pos (restState_of_nothingLeft left)] at settles
  have decided := enterFinishing_decided x (s.setCtx x c)
  rw [ctx, ho, setCtx_cme, hw] at decided
  rw [settled]
  exact ⟨decided, (setCtx_ctxOnly ..).trans (enterFinishing_ctxOnly ..)⟩

/-! ### SET (R49, R60, R125, R134) -/

/-- A SET's result word is the current generation, whether its commit succeeds or fails (R49). -/
theorem resultWord_setPatrol {c : Context} {fs : FinalState} (hk : recKind c.record = .setPatrol) (hr : c.refusal = none)
    (hf : fs ≠ .cancelled) (gen : Nat) : c.resultWord gen fs = BitVec.ofNat 64 gen := by
  simp [Context.resultWord, hk, hr, hf]

theorem setPatrol_decided_at_commit (hw : (s.ctx x).waitCommit = true) (hk : recKind (s.ctx x).record = .setPatrol)
    (hs : (s.ctx x).state = .commitWait) (hb : (s.ctx x).blocks = []) (hp : (s.ctx x).waitPass = false)
    (hr : (s.ctx x).refusal = none) (ha : (s.ctx x).abortMark = false) (hf : (s.ctx x).failure = none)
    (ho : (s.ctx x).otherFail = none) (hh : s.dev.state ≠ .halted) (ok : Bool) :
    ∃ t, handle (.changeEnds x ok) s = (t, [])
      ∧ Decided t x (if ok then .done else .failed) (if ok then .ok else .commitFailed) (BitVec.ofNat 64 s.cme.gen)
      ∧ (∀ y, y ≠ x → t.ctx y = s.ctx y) ∧ t.regions = s.regions ∧ SameMedia s t ∧ SameDevice s t := by
  let c := (s.ctx x).changeEnded ok
  have left : NothingLeft c := ⟨by simp [c, Context.changeEnded, hb], rfl, hp⟩
  have word := resultWord_setPatrol (c := c) (fs := if ok then .done else .failed) hk hr (by cases ok <;> decide) s.cme.gen
  obtain ⟨decided, only⟩ := ctxSettle_decides (x := x) (c := c) (.inr hs) left hh (changeEnded_outcome hr ha hf ho ok) word
  exact ⟨_, congrArg (·, []) (changeEnds_waiting hw ok), decided, only.ctxs, only.regions, only.media, only.device⟩

/-- The member units that wait in PACE_WAIT without a timer (R125). -/
def State.unpacedUnits (s : State) : List UnitId :=
  four.filter fun u => u.val < s.width && (s.patrolUnit u).sub == .paceWait && (s.patrolUnit u).paceTimer == none

theorem patrolSet_eq (cfg : PatrolCfg) (s : State) :
    patrolSet cfg s = (s.setPatrol { s.patrol with cfg := cfg },
      (if s.patrol.cfg.pace = 0 ∧ 0 < cfg.pace ∧ s.patrol.running = true then s.unpacedUnits else []).map
        Msg.patrolReady) := by
  have waiting : s.members.filter (fun u => (s.patrolUnit u).sub == .paceWait && (s.patrolUnit u).paceTimer.isNone)
      = s.unpacedUnits := by
    simp only [State.members, State.isMember, State.unpacedUnits, List.filter_filter]
    refine List.filter_congr fun u _ => ?_
    cases (s.patrolUnit u).paceTimer <;> simp [Bool.and_comm]
  simp only [patrolSet, waiting]
  split_ifs <;> rfl

theorem unpacedUnits_same (hw : t.width = s.width) (hp : t.patrol = s.patrol) : t.unpacedUnits = s.unpacedUnits := by
  simp only [State.unpacedUnits, hw, patrolUnit_same hp]

theorem set_accepted (g : Grants s l x r .setPatrol a) (h : PassesChecks s l r .setPatrol) :
    ∃ t ready, exec .setPatrol s = .next (workOff (t, ready.map Msg.patrolReady ++ [.change (.config x)]))
      ∧ t.patrol = { s.patrol with cfg := ⟨argPace r, argSettle r, argWeak r, argAuto r == 1⟩ }
      ∧ (t.ctx x).state = .commitWait ∧ (t.ctx x).waitCommit = true
      ∧ (¬ (s.patrol.cfg.pace = 0 ∧ 0 < argPace r ∧ s.patrol.running = true) → ready = [])
      ∧ (s.patrol.cfg.pace = 0 → 0 < argPace r → s.patrol.running = true →
        ready = four.filter fun u =>
          u.val < s.width && (s.patrolUnit u).sub == .paceWait && (s.patrolUnit u).paceTimer == none)
      ∧ t.chans = s.chans ∧ t.rlts = s.rlts ∧ t.cme = s.cme ∧ t.regions = s.regions ∧ t.log = s.log := by
  obtain ⟨u, only, ctx, accepted⟩ := grantRow_passes_in g h acceptSet
  have record : (u.ctx x).record = r := by rw [ctx]; rfl
  let waits := u.setCtx x { u.ctx x with state := .commitWait, waitCommit := true }
  have noted := only.then (setCtx_ctxOnly u x { u.ctx x with state := .commitWait, waitCommit := true })
  have accepts : acceptSet x u
      = ((patrolSet (setSettings r) waits).1, (patrolSet (setSettings r) waits).2 ++ [.change (.config x)]) := by
    rw [← record]
    rfl
  rw [accepts, patrolSet_eq, noted.media.patrol, unpacedUnits_same noted.device.width noted.media.patrol] at accepted
  refine ⟨_, _, congrArg _ accepted, rfl, ?_, ?_, fun unraised => if_neg unraised,
    fun pace raised running => if_pos ⟨pace, raised, running⟩, noted.media.chans, noted.media.rlts, noted.media.cme,
    noted.regions, noted.media.log⟩
  · rw [setPatrol_ctx, ctx_setCtx_same]
  · rw [setPatrol_ctx, ctx_setCtx_same]

/-- Settles O31: the grant by `set_accepted`, the commit's end by `setPatrol_decided_at_commit`. -/
theorem setPutsTheSettingsInForce : Obligations.SetPutsTheSettingsInForce := by
  refine ⟨fun x ok s => ⟨fun hw => congrArg (·, []) (changeEnds_not_waiting hw ok),
    fun hw => ⟨congrArg (·, []) (changeEnds_waiting hw ok), fun hk hs hb hp hr ha hf ho hh =>
      setPatrol_decided_at_commit hw hk hs hb hp hr ha hf ho hh ok⟩⟩, fun s l x r a => set_accepted⟩

/-! ### A pass starts (R122, R132) -/

theorem atStart_member {v : UnitId} (h : v.val < s.width) : PatrolUnit.atStart s v
    = ⟨0, if (s.chan v).state = .online ∨ (s.chan v).state = .degraded then .ready else .stoppedUnit, none, none, []⟩ := by
  simp only [PatrolUnit.atStart, State.isMember, h, decide_true, if_true, UnitState.inService_iff]
  rfl

theorem atStart_other {v : UnitId} (h : s.width ≤ v.val) : PatrolUnit.atStart s v = ⟨0, .ready, none, none, []⟩ := by
  simp only [PatrolUnit.atStart, State.isMember, h.not_gt, decide_false, Bool.false_eq_true, if_false]
  rfl

theorem startPass_patrolUnit (s : State) (v : UnitId) : (startPass s).1.patrolUnit v = PatrolUnit.atStart s v := by
  simp [startPass, State.patrolUnit, State.setPatrol]

theorem startPass_started (s : State) : PassStarted s (startPass s).1 :=
  ⟨rfl, rfl, rfl, rfl, ⟨rfl, rfl, rfl⟩, fun v h => (startPass_patrolUnit s v).trans (atStart_member h),
    fun v h => (startPass_patrolUnit s v).trans (atStart_other h)⟩

theorem startPass_offers (s : State) : (startPass s).2 = passOffers s := by
  have offering : s.members.filter (fun u => (s.chan u).state.inService)
      = four.filter fun u => u.val < s.width && ((s.chan u).state == .online || (s.chan u).state == .degraded) := by
    simp only [State.members, State.isMember, List.filter_filter]
    refine List.filter_congr fun u _ => ?_
    cases (s.chan u).state <;> simp [UnitState.inService]
  exact congrArg (·.map Msg.patrolReady ++ [.passCheck]) offering

/-- Which pass starts depends on patrol, the tick, the stripe width and the units' states alone. -/
theorem PassStarted.of_same {s' t' : State} (h : PassStarted s t) (hp : s'.patrol = s.patrol) (ht : s'.tick = s.tick)
    (hw : s'.width = s.width) (hc : s'.chans = s.chans) (hq : t'.patrol = t.patrol) : PassStarted s' t' where
  running := hq ▸ h.running
  number := by rw [hq, hp]; exact h.number
  stamp := by rw [hq, ht]; exact h.stamp
  tallies := hq ▸ h.tallies
  kept := by rw [hq, hp]; exact h.kept
  members v hv := by rw [patrolUnit_same hq, chan_same hc]; exact h.members v (hw ▸ hv)
  others v hv := by rw [patrolUnit_same hq]; exact h.others v (hw ▸ hv)

theorem passOffers_same (hw : t.width = s.width) (hc : t.chans = s.chans) : passOffers t = passOffers s := by
  simp only [passOffers, hw, chan_same hc]

/-- A pass operation decided as soon as it is accepted has succeeded, with the result its context has taken (R49). -/
theorem passOperation_decided {k : OpKind} {right : Bool} {tick : Tick} (hk : k = .startPass ∨ k = .stopPass)
    (hr : recKind r = k) (h : u.ctx x = Context.checked k r a l right tick) (w : BitVec 64) (t : State) :
    Decided (enterFinishing x (t.setCtx x { u.ctx x with result := w })) x .done .ok w := by
  let c : Context := { Context.checked k r a l right tick with result := w }
  have word (gen : Nat) : c.resultWord gen .done = w := by
    have kind : recKind c.record = k := hr
    rcases hk with rfl | rfl <;> simp only [Context.resultWord, kind, if_true, c]
  have decided := enterFinishing_decided x (t.setCtx x c)
  rw [ctx_setCtx_same, show c.outcome = (.done, .ok) from rfl, word] at decided
  rw [h]
  exact decided

theorem startPass_accepted (g : Grants s l x r .startPass a) (h : PassesChecks s l r .startPass) :
    ∃ t, exec .startPass s = .next (workOff (t, passOffers s)) ∧ PassStarted s t
      ∧ Decided t x .done .ok ((s.patrol.passNumber + 1).setWidth 64)
      ∧ t.chans = s.chans ∧ t.rlts = s.rlts ∧ t.cme = s.cme ∧ t.regions = s.regions := by
  obtain ⟨u, only, ctx, accepted⟩ := grantRow_passes_in g h acceptStartPass
  have start : acceptStartPass x u = (enterFinishing x
      ((startPass u).1.setCtx x { u.ctx x with result := (u.patrol.passNumber + 1).setWidth 64 }), passOffers s) :=
    congrArg (_, ·) ((startPass_offers u).trans (passOffers_same only.device.width only.media.chans))
  rw [only.media.patrol] at start
  exact ⟨_, congrArg _ (accepted.trans (congrArg _ start)),
    (startPass_started u).of_same only.media.patrol.symm only.device.tick.symm only.device.width.symm
      only.media.chans.symm rfl,
    passOperation_decided (.inl rfl) g.kind ctx _ _, only.media.chans, only.media.rlts, only.media.cme, only.regions⟩

/-! ### STOP_PASS (R67, R133) -/

theorem stopPass_idle (g : Grants s l x r .stopPass a) (h : PassesChecks s l r .stopPass) (hr : s.patrol.running = false) :
    ∃ t, exec .stopPass s = .next t
      ∧ Decided t x .done .ok (s.patrol.passNumber.setWidth 64) ∧ SameMedia s t ∧ t.regions = s.regions := by
  obtain ⟨u, only, ctx, accepted⟩ := grantRow_passes_in g h acceptStopPass
  have stop : acceptStopPass x u
      = (enterFinishing x (u.setCtx x { u.ctx x with result := s.patrol.passNumber.setWidth 64 }), []) := by
    simp only [acceptStopPass, only.media.patrol, hr, Bool.false_eq_true, if_false]
  have finished := (only.then (setCtx_ctxOnly u x { u.ctx x with result := s.patrol.passNumber.setWidth 64 })).then
    (enterFinishing_ctxOnly x _)
  exact ⟨_, exec_eq_next rfl (accepted.trans ((congrArg _ stop).trans (workOff_none _))),
    passOperation_decided (.inr rfl) g.kind ctx _ _, finished.media, finished.regions⟩

theorem stopPass_running (g : Grants s l x r .stopPass a) (h : PassesChecks s l r .stopPass) (hr : s.patrol.running = true) :
    ∃ t, exec .stopPass s = .next (workOff (t, [.passCheck]))
      ∧ t.patrol = { s.patrol with stopMark := true, stopList := s.patrol.stopList ++ [x] }
      ∧ (t.ctx x).waitPass = true ∧ (t.ctx x).state = .drainingSteps ∧ t.chans = s.chans ∧ t.rlts = s.rlts
      ∧ t.cme = s.cme ∧ t.regions = s.regions := by
  obtain ⟨u, only, -, accepted⟩ := grantRow_passes_in g h acceptStopPass
  have stop : acceptStopPass x u = ((u.setCtx x { u.ctx x with state := .drainingSteps, waitPass := true }).setPatrol
      { s.patrol with stopMark := true, stopList := s.patrol.stopList ++ [x] }, [.passCheck]) := by
    rw [acceptStopPass, only.media.patrol, if_pos hr]
  refine ⟨_, congrArg _ (accepted.trans (congrArg _ stop)), rfl, ?_, ?_, only.media.chans, only.media.rlts, only.media.cme,
    only.regions⟩
  · rw [setPatrol_ctx, ctx_setCtx_same]
  · rw [setPatrol_ctx, ctx_setCtx_same]

theorem passEnded_not_waiting (h : (s.ctx x).waitPass = false) (number : Word32) : passEnded x number s = s := by
  simp [passEnded, h]

/-- The context of a STOP_PASS after the report of its pass, before it settles (R133). -/
def Context.passReported (c : Context) (number : Word32) : Context :=
  { c with waitPass := false, result := number.setWidth 64 }

theorem passEnded_waiting (h : (s.ctx x).waitPass = true) (number : Word32) :
    passEnded x number s = ctxSettle x (s.setCtx x ((s.ctx x).passReported number)) := by
  simp only [passEnded, h, if_true]
  rfl

/-- The report decides a STOP_PASS that nothing else has refused or failed: DONE, or CANCELLED when aborted (R67, R133). -/
theorem stopPass_decided_at_report (hw : (s.ctx x).waitPass = true) (hk : recKind (s.ctx x).record = .stopPass)
    (hs : (s.ctx x).state = .drainingSteps) (hb : (s.ctx x).blocks = []) (hc : (s.ctx x).waitCommit = false)
    (hr : (s.ctx x).refusal = none) (hf : (s.ctx x).failure = none) (ho : (s.ctx x).otherFail = none)
    (hh : s.dev.state ≠ .halted) (number : Word32) :
    ∃ t, handle (.passEnded x number) s = (t, [])
      ∧ ((s.ctx x).abortMark = false → Decided t x .done .ok (number.setWidth 64))
      ∧ ((s.ctx x).abortMark = true → Decided t x .cancelled .aborted 0)
      ∧ (∀ y, y ≠ x → t.ctx y = s.ctx y) ∧ t.regions = s.regions ∧ SameMedia s t ∧ SameDevice s t := by
  let c := (s.ctx x).passReported number
  have left : NothingLeft c := ⟨by simp [c, Context.passReported, hb], hc, rfl⟩
  have word (fs : FinalState) : c.resultWord s.cme.gen fs = if fs = .done then number.setWidth 64 else 0 := by
    rw [Context.resultWord, show recKind c.record = .stopPass from hk]
    rfl
  have reported : handle (.passEnded x number) s = (ctxSettle x (s.setCtx x c), []) :=
    congrArg (·, []) (passEnded_waiting hw number)
  cases ha : (s.ctx x).abortMark with
  | false =>
    obtain ⟨decided, only⟩ := ctxSettle_decides (x := x) (c := c) (.inl hs) left hh
      (outcome_of_success hr ha hf ho) (word .done)
    exact ⟨_, reported, fun _ => decided, nofun, only.ctxs, only.regions, only.media, only.device⟩
  | true =>
    obtain ⟨decided, only⟩ := ctxSettle_decides (x := x) (c := c) (.inl hs) left hh
      (outcome_of_abort hr ha) (word .cancelled)
    exact ⟨_, reported, nofun, fun _ => decided, only.ctxs, only.regions, only.media, only.device⟩

/-! ### The end of a pass (R130, R131) -/

theorem noneReadOut_iff : noneReadOut s = true ↔ ∀ u ∈ s.members, (s.patrolUnit u).sub ≠ .readOut := by
  simp [noneReadOut]

theorem passComplete_iff : passComplete s = true ↔ ∀ u ∈ s.members,
    ((s.patrolUnit u).sub = .finished ∨ (s.patrolUnit u).sub = .stoppedUnit) ∧ (s.patrolUnit u).findings = [] := by
  simp [passComplete]

/-- Not every member unit is STOPPED_UNIT. -/
theorem stoppedUnits_lt_iff :
    stoppedUnits s < s.members.length ↔ ∃ u ∈ s.members, (s.patrolUnit u).sub ≠ .stoppedUnit := by
  have all : stoppedUnits s = s.members.length ↔ ∀ u ∈ s.members, (s.patrolUnit u).sub = .stoppedUnit := by
    simp [stoppedUnits, List.countP_eq_length]
  rw [lt_iff_le_and_ne, ne_eq, all]
  simp [stoppedUnits, List.countP_le_length]

theorem restarts_iff (outcome : PassOutcome) : restarts s outcome = true ↔ outcome = .complete ∧ s.patrol.cfg.auto = true
    ∧ 0 < s.patrol.cfg.pace ∧ ∃ u ∈ s.members, (s.patrolUnit u).sub ≠ .stoppedUnit := by
  rw [← stoppedUnits_lt_iff]
  simp [restarts, and_assoc]

theorem passCheck_idle (h : s.patrol.running = false) : passCheck s = (s, []) := by
  simp [passCheck, h]

section
variable (hr : s.patrol.running = true)
include hr

theorem passCheck_stops (hm : s.patrol.stopMark = true) (h : ∀ u ∈ s.members, (s.patrolUnit u).sub ≠ .readOut) :
    passCheck s = endPass .stopped s := by
  simp [passCheck, hr, hm, noneReadOut_iff.mpr h]

variable (hm : s.patrol.stopMark = false ∨ ∃ u ∈ s.members, (s.patrolUnit u).sub = .readOut)
include hm

/-- Without the mark, or with a unit READ_OUT, a pass ends by its units alone. -/
theorem passCheck_unstopped : passCheck s = if passComplete s then endPass .complete s else (s, []) := by
  have unstopped : (s.patrol.stopMark && noneReadOut s) = false := by
    rw [← Bool.not_eq_true, Bool.and_eq_true, noneReadOut_iff]
    rintro ⟨marked, none⟩
    rcases hm with unmarked | ⟨u, member, out⟩
    · simp [unmarked] at marked
    · exact none u member out
  simp [passCheck, hr, unstopped]

theorem passCheck_completes (h : ∀ u ∈ s.members,
    ((s.patrolUnit u).sub = .finished ∨ (s.patrolUnit u).sub = .stoppedUnit) ∧ (s.patrolUnit u).findings = []) :
    passCheck s = endPass .complete s :=
  (passCheck_unstopped hr hm).trans (if_pos (passComplete_iff.mpr h))

theorem passCheck_goesOn (h : ∃ u ∈ s.members,
    ((s.patrolUnit u).sub ≠ .finished ∧ (s.patrolUnit u).sub ≠ .stoppedUnit) ∨ (s.patrolUnit u).findings ≠ []) :
    passCheck s = (s, []) := by
  refine (passCheck_unstopped hr hm).trans (if_neg fun complete => ?_)
  obtain ⟨u, member, busy⟩ := h
  obtain ⟨sub, findings⟩ := passComplete_iff.mp complete u member
  rcases busy with ⟨unfinished, unstopped⟩ | outstanding
  · exact sub.elim unfinished unstopped
  · exact outstanding findings

end

/-- A pass that is over ends, by either condition. -/
theorem passCheck_ends (hr : s.patrol.running = true) {outcome : PassOutcome}
    (h : (outcome = .stopped ∧ s.patrol.stopMark = true ∧ ∀ u ∈ s.members, (s.patrolUnit u).sub ≠ .readOut)
      ∨ (outcome = .complete ∧ (s.patrol.stopMark = false ∨ ∃ u ∈ s.members, (s.patrolUnit u).sub = .readOut)
        ∧ ∀ u ∈ s.members, ((s.patrolUnit u).sub = .finished ∨ (s.patrolUnit u).sub = .stoppedUnit)
          ∧ (s.patrolUnit u).findings = [])) : passCheck s = endPass outcome s := by
  rcases h with ⟨rfl, marked, none⟩ | ⟨rfl, unstopped, complete⟩
  · exact passCheck_stops hr marked none
  · exact passCheck_completes hr unstopped complete

theorem passClosed_resets (restart : Bool) (s : State) :
    ∃ t, handle (.passClosed restart) s = (t, if restart = true then [.passRestart] else [])
      ∧ t.patrol.running = false ∧ t.patrol.stopMark = false ∧ t.patrol.stopList = [] ∧ t.patrol.tallies = Tallies.zero
      ∧ (∀ u, t.patrolUnit u = ⟨0, .ready, none, none, []⟩) ∧ t.patrol.passNumber = s.patrol.passNumber
      ∧ t.patrol.cfg = s.patrol.cfg ∧ t.patrol.startStamp = s.patrol.startStamp
      ∧ SameDevice s t ∧ SameRecords s t ∧ t.chans = s.chans ∧ t.rlts = s.rlts ∧ t.cme = s.cme ∧ t.ntu = s.ntu := by
  refine ⟨_, rfl, rfl, rfl, rfl, rfl, fun u => ?_, rfl, rfl, rfl,
    ⟨rfl, rfl, rfl, rfl, rfl, rfl, rfl, rfl, rfl, rfl, rfl⟩, ⟨rfl, rfl, rfl⟩, rfl, rfl, rfl, rfl⟩
  simp [State.patrolUnit, State.setPatrol, PatrolUnit.cold]

/-- A log entry takes the slot after the pointer, and no other (R131). -/
theorem write_slots (log : PatrolLog) (e : LogEntry) (g i : Nat) :
    (log.write e g).slots[i]? = if i = log.pointer % 16 then some (some { e with endGen := g }) else log.slots[i]? := by
  have free : log.pointer % 16 < 16 := Nat.mod_lt _ (by decide)
  by_cases h : i = log.pointer % 16
  · subst h
    simp [PatrolLog.write, free]
  · simp [PatrolLog.write, h, Ne.symm h]

/-- Settles O30: the grants by the lemmas about their operations, the end conditions one by one, the start and the close of a
pass each one state. -/
theorem passesAreStartedAndStopped : Obligations.PassesAreStartedAndStopped := by
  refine ⟨fun s l x r a => startPass_accepted, fun s l x r a g h => ⟨stopPass_idle g h, stopPass_running g h⟩,
    fun s => ⟨passCheck_idle, fun hr outcome h => ⟨restarts s outcome, passCheck_ends hr h, restarts_iff outcome⟩,
      passCheck_goesOn, fun outcome => ?posted, fun restart => passClosed_resets restart s,
      ⟨(startPass s).1, congrArg (_, ·) (startPass_offers s), startPass_started s, rfl⟩,
      fun outcome => ⟨rfl, rfl, rfl, rfl, rfl, ?stopped⟩⟩,
    fun x number s => ⟨fun hw => congrArg (·, []) (passEnded_not_waiting hw number),
      fun hw => ⟨congrArg (·, []) (passEnded_waiting hw number), fun hk hs hb hc hr hf ho hh =>
        stopPass_decided_at_report hw hk hs hb hc hr hf ho hh number⟩⟩,
    fun g d e => ⟨rfl, (write_slots ..).trans (if_pos rfl), fun i hi => (write_slots ..).trans (if_neg hi), rfl, rfl⟩⟩
  case posted => cases outcome <;> rfl
  case stopped =>
    rw [← List.countP_eq_length_filter]
    rfl

end Sys2Proof.Machine
end

section
/-! O59. The counters and settings of routes, event slots, lanes and arbiter stay within their widths (R58, R156, R157, R177,
R181). What decides it is `counterView`; every operation leaves the view as it is, or changes a route, an event slot or a lane
within the bounds. -/

namespace Sys2Proof.Machine

/-- What of a state decides whether its counters are in range. -/
def counterView (s : State) : Settings × Ntu × Vector Lane 4 × Dar := (s.settings, s.ntu, s.lanes, s.dar)

namespace CountersInRange

variable {s t : State} (f : CountersInRange s)
include f

/-! ### One update -/

theorem view (h : counterView t = counterView s) : CountersInRange t := by
  obtain ⟨settings, ntu, lanes, dar⟩ : t.settings = s.settings ∧ t.ntu = s.ntu ∧ t.lanes = s.lanes ∧ t.dar = s.dar := by
    simpa only [counterView, Prod.mk.injEq] using h
  refine ⟨?_, ?_, ?_, ?_, fun l => ?_, ?_, ?_⟩
  · exact settings ▸ f.spareLow
  · rw [ntu, settings]; exact f.routeA
  · rw [ntu, settings]; exact f.routeB
  · rw [ntu]; exact f.slots
  · unfold State.lane; rw [lanes]; exact f.refused l
  · rw [dar]; exact f.weights
  · rw [dar]; exact f.caps

theorem route (r : RouteId) : RouteInRange (s.route r) (s.routeCfg r) := by
  cases r
  · exact f.routeA
  · exact f.routeB

theorem setNtu {n : Ntu} (a : n.routeA.count ≤ Config.maxRouteCount) (b : n.routeB.count ≤ Config.maxRouteCount)
    (slots : ∀ k : Fin 10, (n.slots[k]).count ≤ Config.maxEventCount) : CountersInRange (s.setNtu n) :=
  ⟨f.spareLow, ⟨a, f.routeA.2⟩, ⟨b, f.routeB.2⟩, slots, f.refused, f.weights, f.caps⟩

/-- The write list and the count of writes handed over have no range. -/
theorem setWrites (ws : List WriteReq) (handed : Nat) : CountersInRange (s.setNtu { s.ntu with writes := ws, handed := handed }) :=
  f.setNtu f.routeA.1 f.routeB.1 f.slots

theorem setRoute (r : RouteId) {v : Route} (h : v.count ≤ Config.maxRouteCount) : CountersInRange (s.setRoute r v) := by
  cases r
  · exact f.setNtu h f.routeB.1 f.slots
  · exact f.setNtu f.routeA.1 h f.slots

theorem setLane (l : LaneId) {v : Lane} (h : v.refused ≤ Config.maxRefused) : CountersInRange (s.setLane l v) := by
  refine ⟨f.spareLow, f.routeA, f.routeB, f.slots, fun k => ?_, f.weights, f.caps⟩
  by_cases e : k = l
  · subst e; rw [lane_setLane_same]; exact h
  · rw [lane_setLane_other _ _ _ _ e]; exact f.refused k

/-- A change of a lane that leaves its refused-signal count. -/
theorem modLane (l : LaneId) {g : Lane → Lane} (h : ∀ k, (g k).refused = k.refused := by exact fun _ => rfl) :
    CountersInRange (modLane l g s) :=
  f.setLane l ((h _).trans_le (f.refused l))

theorem forEach {α : Type} {g : α → State → State} (hg : ∀ a {t}, CountersInRange t → CountersInRange (g a t)) (xs : List α) :
    CountersInRange (forEach xs g s) := by
  induction xs generalizing s with
  | nil => exact f
  | cons a xs ih => exact ih (hg a f)

theorem effEach {α : Type} {g : α → State → Eff} (hg : ∀ a {t}, CountersInRange t → CountersInRange (g a t).1) (xs : List α) :
    CountersInRange (effEach xs g s).1 := by
  induction xs generalizing s with
  | nil => exact f
  | cons a xs ih => exact ih (hg a f)

theorem setCtx (x : CtxId) (c : Context) : CountersInRange (s.setCtx x c) := f.view rfl
theorem setRegion (i : Nat) (e : RegionEntry) : CountersInRange (s.setRegion i e) := f.view rfl
theorem setChan (u : UnitId) (c : Channel) : CountersInRange (s.setChan u c) := f.view rfl
theorem setRlt (u : UnitId) (r : Rlt) : CountersInRange (s.setRlt u r) := f.view rfl
theorem setCme (c : Cme) : CountersInRange (s.setCme c) := f.view rfl
theorem setDev (d : Device) : CountersInRange (s.setDev d) := f.view rfl
theorem setLif (v : Lif) : CountersInRange (s.setLif v) := f.view rfl
theorem setPatrol (p : Patrol) : CountersInRange (s.setPatrol p) := f.view rfl
theorem setDurable (d : Durable) : CountersInRange (s.setDurable d) :=
  f.view (by simp only [counterView, setDurable_settings, setDurable_ntu, setDurable_lanes, setDurable_dar])
theorem emit (os : List Output) : CountersInRange (s.emit os) := f.view rfl

theorem records (h : RecordsOnly s t) : CountersInRange t :=
  f.view (by simp only [counterView, h.device.settings, h.ntu, h.lanes, h.dar])

/-! ### Routes, write list and events (R178, R181 to R187) -/

theorem askWrite (w : WriteTarget) (content : Bytes) : CountersInRange (askWrite w content s) := by
  unfold Machine.askWrite
  split
  · exact f
  · exact f.setWrites _ _

theorem askMessage (r : RouteId) : CountersInRange (askMessage r s) := by
  unfold Machine.askMessage
  split
  · exact f
  · exact f.setWrites _ _

theorem sendRoute (r : RouteId) : CountersInRange (sendRoute r s) := (f.setRoute r (Nat.zero_le _)).askMessage r

/-- A cause counts up to the threshold in HOLDING, and up to the greatest count in SIGNALLED (R184). -/
theorem takeCause (r : RouteId) : CountersInRange (takeCause r s) := by
  obtain ⟨-, -, -, threshold⟩ := f.route r
  unfold Machine.takeCause holdRoute
  dsimp only
  split
  · split
    · exact f.sendRoute r
    · exact f.setRoute r (by decide : 1 ≤ Config.maxRouteCount)
  · split
    · exact f.sendRoute r
    · next below => exact f.setRoute r ((Nat.lt_of_not_le below).le.trans threshold)
  · exact f.setRoute r (Nat.min_le_right _ _)

theorem routeCause (sel : RouteSel) : CountersInRange (routeCause sel s) := by
  unfold Machine.routeCause
  split
  · exact f
  · cases sel with
    | none => exact f
    | a => exact f.takeCause .a
    | b => exact f.takeCause .b

theorem acknowledgeRoute (r : RouteId) : CountersInRange (acknowledgeRoute r s) := by
  have count := (f.route r).1
  unfold Machine.acknowledgeRoute holdRoute
  dsimp only
  split
  · exact f
  · exact f
  · split
    · split
      · exact sendRoute (f.setRoute r (by exact count)) r
      · exact f.setRoute r count
    · exact f.setRoute r (Nat.zero_le _)

theorem applyThreshold (r : RouteId) : CountersInRange (applyThreshold r s) := by
  unfold Machine.applyThreshold
  split
  · exact f.sendRoute r
  · exact f

omit f in
/-- An occurrence counts up to the greatest count of an event slot (R181). -/
theorem occur_count_le {e : EventSlot} (d : EventDetail) (h : e.count ≤ Config.maxEventCount) :
    (e.occur d).count ≤ Config.maxEventCount := by
  unfold EventSlot.occur
  split
  · next below => exact below
  · exact h

theorem postEvent (k : EventKind) (o : Occurrence) : CountersInRange (postEvent k o s) := by
  unfold Machine.postEvent
  dsimp only
  refine routeCause (askWrite (f.setNtu (by exact f.routeA.1) (by exact f.routeB.1) fun i => ?_) _ _) _
  by_cases e : i = k.slot
  · subst e
    simpa using occur_count_le _ (f.slots k.slot)
  · have apart : k.slot.val ≠ i.val := fun h => e (Fin.ext h.symm)
    simpa [apart] using f.slots i

theorem idleRoutes : CountersInRange (idleRoutes s) := f.setNtu (Nat.zero_le _) (Nat.zero_le _) f.slots

/-! ### Contexts -/

theorem ctxSettle (x : CtxId) : CountersInRange (ctxSettle x s) := f.records (RecordsKept.settle x s).toRecordsOnly

theorem ctxUpdate (x : CtxId) (c : Context) : CountersInRange (ctxUpdate x c s) :=
  ctxSettle (f.records (setCtx_ctxOnly s x c).toRecordsOnly) x

theorem enterFinishing (x : CtxId) : CountersInRange (enterFinishing x s) := f.view rfl

theorem issueProgram (x : CtxId) (j : Nat) (cmd : StepCmd) : CountersInRange (issueProgram x j cmd s).1 := by
  unfold Machine.issueProgram
  dsimp only
  split
  · exact f.view rfl
  · exact f.ctxUpdate x _

theorem readSucceeds (x : CtxId) (j : Nat) (data : Bytes) : CountersInRange (readSucceeds x j data s).1 := by
  unfold Machine.readSucceeds
  dsimp only
  split
  · split
    · exact f.ctxUpdate x _
    · exact f.view rfl
  · exact f.ctxUpdate x _
  · split
    · exact f.ctxUpdate x _
    · exact (f.setCtx x _).issueProgram x j .program
  · exact f.ctxUpdate x _

theorem stepEnds (x : CtxId) (j : Nat) (out : StepOutcome) : CountersInRange (stepEnds x j out s).1 := by
  unfold Machine.stepEnds
  dsimp only
  (repeat' split) <;> first | exact f | exact f.ctxUpdate x _ | exact (f.setCtx x _).readSucceeds x j _

theorem reissueStep (x : CtxId) (j : Nat) : CountersInRange (reissueStep x j s).1 := by
  unfold Machine.reissueStep
  split
  · exact f.view rfl
  · exact f.issueProgram x j _
  · exact f

theorem moveBatched (x : CtxId) (j : Nat) : CountersInRange (moveBatched x j s) := by
  unfold Machine.moveBatched
  dsimp only
  split
  · exact f
  · exact f.ctxUpdate x _

theorem blockEnds (x : CtxId) (j : Nat) (res : BlockResult) : CountersInRange (blockEnds x j res s) := by
  unfold Machine.blockEnds
  dsimp only
  (repeat' split) <;> first | exact f | exact f.ctxUpdate x _

theorem changeEnds (x : CtxId) (ok : Bool) : CountersInRange (changeEnds x ok s) := by
  unfold Machine.changeEnds
  dsimp only
  split
  · exact f.ctxUpdate x _
  · exact f

theorem passEnded (x : CtxId) (number : Word32) : CountersInRange (passEnded x number s) := by
  unfold Machine.passEnded
  dsimp only
  split
  · exact f.ctxUpdate x _
  · exact f

theorem ctxAbort (x : CtxId) : CountersInRange (ctxAbort x s) := by
  unfold Machine.ctxAbort
  split
  all_goals first | exact f | exact f.view rfl | exact ctxSettle (f.view (by rfl)) x

theorem ctxHalt (x : CtxId) : CountersInRange (ctxHalt x s) := by
  unfold Machine.ctxHalt
  split
  · exact f
  · exact ctxSettle (f.view (by rfl)) x

theorem holdStep (x : CtxId) (j : Nat) (cmd : StepCmd) : CountersInRange (holdStep x j cmd s) :=
  f.records (RecordsKept.holdStep x j cmd s).toRecordsOnly

/-! ### Relocation tables -/

theorem postDataLost (u : UnitId) (b code : Nat) (lane : Option LaneId) : CountersInRange (postDataLost u b code lane s) :=
  f.postEvent _ _

theorem raiseAtTake (u : UnitId) (q : MoveReq) : CountersInRange (raiseAtTake u q s) := by
  unfold Machine.raiseAtTake
  split
  · exact f.postDataLost _ _ _ _
  · exact f

theorem abandonRequest (u : UnitId) (q : MoveReq) (code : AbandonCode) : CountersInRange (abandonRequest u q code s).1 := by
  unfold Machine.abandonRequest
  dsimp only
  split
  · exact f.postDataLost _ _ _ _
  · exact f

theorem startMove (u : UnitId) (q : MoveReq) : CountersInRange (startMove u q s).1 := by
  unfold Machine.startMove startOn
  dsimp only
  split
  · exact f.abandonRequest u q _
  · exact f.view rfl

theorem joinWaiting (u : UnitId) (q : MoveReq) : CountersInRange (joinWaiting u q s).1 := by
  unfold Machine.joinWaiting
  dsimp only
  (repeat' split) <;> first | exact f | exact f.postDataLost _ _ _ _ | exact f.view rfl

theorem joinStarted (u : UnitId) (q : MoveReq) (comp : Move) : CountersInRange (joinStarted u q comp s).1 := by
  unfold Machine.joinStarted
  dsimp only
  (repeat' split) <;> first | exact f | exact f.postDataLost _ _ _ _ | exact f.view rfl

theorem placeRequest (u : UnitId) (q : MoveReq) : CountersInRange (placeRequest u q s).1 := by
  unfold Machine.placeRequest
  dsimp only
  split
  · exact f
  · split
    · exact f.startMove u q
    · (repeat' split) <;> first | exact f | exact f.setRlt u _

theorem takeRequest (u : UnitId) (q : MoveReq) : CountersInRange (takeRequest u q s).1 := by
  have f := f.raiseAtTake u q
  unfold Machine.takeRequest
  dsimp only
  split
  · exact f.abandonRequest u q _
  · (repeat' split) <;> first | exact f | exact f.joinWaiting u q | exact f.joinStarted u q _ | exact f.placeRequest u q

theorem slotFreed (u : UnitId) : CountersInRange (slotFreed u s).1 := by
  unfold Machine.slotFreed
  dsimp only
  split
  · exact f
  · split
    · exact (f.setRlt u _).startMove u _
    · exact f

theorem startAccepted (u : UnitId) (m : Move) : CountersInRange (startAccepted u m s).1 := by
  have raised : CountersInRange
      (if m.req.finding.any (fun tag => tag.lost) then Machine.postDataLost u m.req.src 2 none s else s) := by
    split
    · exact f.postDataLost _ _ _ _
    · exact f
  unfold Machine.startAccepted
  dsimp only
  split <;> exact raised.view rfl

theorem startDropped (u : UnitId) (m : Move) : CountersInRange (startDropped u m s).1 := by
  unfold Machine.startDropped
  dsimp only
  split
  · exact f.setRlt u _
  · next w ws _ =>
    generalize directedAgain _ m.req.src w ws = q
    dsimp only
    exact (f.setRlt u _).startMove u q

theorem moveReadEnds (u : UnitId) (mid : Nat) (out : MoveOutcome) : CountersInRange (moveReadEnds u mid out s).1 := by
  unfold Machine.moveReadEnds
  dsimp only
  (repeat' split) <;> first | exact f | exact (f.postDataLost _ _ _ _).view rfl | exact f.view rfl

theorem moveWriteEnds (u : UnitId) (mid : Nat) (out : MoveOutcome) : CountersInRange (moveWriteEnds u mid out s).1 := by
  unfold Machine.moveWriteEnds retryOn
  dsimp only
  (repeat' split) <;> first | exact f | exact f.view rfl

theorem takePoisonClear (u : UnitId) (b : Nat) (x : CtxId) (j : Nat) : CountersInRange (takePoisonClear u b x j s).1 := by
  unfold Machine.takePoisonClear
  split
  · exact f.view rfl
  · exact f

theorem rltReset (u : UnitId) : CountersInRange (rltReset u s).1 := by
  unfold Machine.rltReset
  exact (f.setRlt u _).effEach (fun _ _ g => g.setChan _ _) _

theorem batchEnds (fate : ChangeFate) (batch : List Change) : CountersInRange (batchEnds fate batch s).1 := by
  refine f.effEach (fun c t g => ?_) batch
  unfold rltChangeEnds moveEnds
  (repeat' split) <;> first | exact g | exact g.view rfl

/-! ### Channels -/

theorem startEntry (u : UnitId) (e : QEntry) : CountersInRange (startEntry u e s).1 := by
  unfold Machine.startEntry
  dsimp only
  (repeat' split) <;> first | exact f | exact f.view rfl

theorem selectEntry (u : UnitId) : CountersInRange (selectEntry u s).1 := by
  unfold Machine.selectEntry
  dsimp only
  (repeat' split) <;> first | exact f | exact (f.setChan u _).startEntry u _

theorem foregroundArrives (x : CtxId) (j : Nat) (cmd : StepCmd) : CountersInRange (foregroundArrives x j cmd s).1 := by
  unfold Machine.foregroundArrives
  dsimp only
  (repeat' split) <;> first | exact f | exact (f.setChan _ _).holdStep x j cmd | exact f.view rfl

theorem moveEntryArrives (u : UnitId) (mid : Nat) (cmd : StepCmd) (b : Nat) :
    CountersInRange (moveEntryArrives u mid cmd b s).1 := by
  unfold Machine.moveEntryArrives
  dsimp only
  split
  · exact f
  · exact f.view rfl

theorem commitEntryArrives (u : UnitId) (cmd : StepCmd) (b : Nat) : CountersInRange (commitEntryArrives u cmd b s).1 := by
  unfold Machine.commitEntryArrives
  dsimp only
  split
  · exact f
  · exact f.view rfl

theorem setLock (u : UnitId) (m : Move) : CountersInRange (setLock u m s) := by
  unfold Machine.setLock
  exact (f.setChan u _).forEach (fun _ _ g => g.holdStep _ _ _) _

theorem moveStart (u : UnitId) (mid : Nat) : CountersInRange (moveStart u mid s).1 := by
  unfold Machine.moveStart
  dsimp only
  (repeat' split) <;> first
    | exact f
    | exact (f.setChan u _).startDropped u _
    | exact (f.setLock u _).startAccepted u _
    | exact f.view rfl

theorem unitLoss (u : UnitId) (e : QEntry) (target : Nat) : CountersInRange (unitLoss u e target s).1 := by
  unfold Machine.unitLoss
  exact postEvent (f.view (by rfl)) _ _

theorem chanReset (u : UnitId) : CountersInRange (chanReset u s).1 := f.setChan u _

/-! ### Patrol -/

theorem offerBlock (u : UnitId) : CountersInRange (offerBlock u s).1 := by
  unfold Machine.offerBlock
  dsimp only
  (repeat' split) <;> first | exact startEntry (f.view (by rfl)) u _ | exact f.view rfl

theorem becomeReady (u : UnitId) : CountersInRange (becomeReady u s).1 := by
  unfold Machine.becomeReady
  dsimp only
  split
  · exact f.view rfl
  · split
    · exact f.view rfl
    · exact offerBlock (f.view (by rfl)) u

theorem blockDone (u : UnitId) (cls : ReadClass) : CountersInRange (blockDone u cls s).1 := by
  unfold Machine.blockDone
  dsimp only
  (repeat' split) <;> exact f.view rfl

theorem patrolReadEnds (u : UnitId) (cls : ReadClass) (weak : Bool) : CountersInRange (patrolReadEnds u cls weak s).1 := by
  unfold Machine.patrolReadEnds
  (repeat' split) <;> first | exact f | exact f.blockDone u _

theorem findingAnswered (u : UnitId) (b : Nat) (tag : FindingTag) (ans : FindingAnswer) :
    CountersInRange (findingAnswered u b tag ans s).1 := by
  unfold Machine.findingAnswered
  (repeat' split) <;> first | exact f | exact blockDone (f.view (by rfl)) u _ | exact f.view rfl

theorem findingEnded (u : UnitId) (b : Nat) (tag : FindingTag) (res : FindingEnd) :
    CountersInRange (findingEnded u b tag res s).1 := by
  unfold Machine.findingEnded
  dsimp only
  (repeat' split) <;> first | exact f | exact f.view rfl

theorem quietReport (u : UnitId) : CountersInRange (quietReport u s).1 := by
  unfold Machine.quietReport
  (repeat' split) <;> first | exact f | exact f.becomeReady u | exact f.view rfl

theorem freeSlotReport (u : UnitId) : CountersInRange (freeSlotReport u s).1 := by
  unfold Machine.freeSlotReport
  split
  · exact f.becomeReady u
  · exact f

theorem patrolLost (u : UnitId) : CountersInRange (patrolLost u s).1 := by
  unfold Machine.patrolLost
  split
  · exact f.view rfl
  · exact f

/-! ### Commits -/

theorem clearMarks (batch : List Change) : CountersInRange (clearMarks batch s) :=
  f.forEach (fun _ _ g => g.setRegion _ _) _

theorem regionEvents (before : State) (g : Nat) (batch : List Change) : CountersInRange (regionEvents before g batch s) :=
  f.forEach (fun _ _ h => h.forEach (fun _ _ h => h.postEvent _ _) _) _

theorem relocatedEvents (g : Nat) (batch : List Change) : CountersInRange (relocatedEvents g batch s) :=
  f.forEach (fun _ _ h => h.forEach (fun _ _ h => h.postEvent _ _) _) _

theorem spareLowEvents (before : State) (g : Nat) : CountersInRange (spareLowEvents before g s) := by
  refine f.forEach (fun u t h => ?_) _
  dsimp only
  split
  · exact h.postEvent _ _
  · exact h

theorem degradeUnits (g : Nat) : CountersInRange (degradeUnits g s) := by
  refine f.forEach (fun u t h => ?_) _
  split
  · exact postEvent (h.view (by rfl)) _ _
  · exact h

theorem mirrorEvents (fl : InFlight) : CountersInRange (mirrorEvents fl s) := by
  refine f.forEach (fun k t h => ?_) _
  split
  · exact h.postEvent _ _
  · exact h
  · exact h

theorem commitSucceeds (fl : InFlight) : CountersInRange (commitSucceeds fl s).1 := by
  unfold Machine.commitSucceeds
  have inForce := fun c d => ((f.mirrorEvents fl).setCme c).setDurable d
  exact ((((((inForce _ _).clearMarks _).regionEvents _ _ _).relocatedEvents _ _).spareLowEvents _ _).degradeUnits _).batchEnds _ _

theorem commitFails (fl : InFlight) (code : Nat) : CountersInRange (commitFails fl code s).1 := by
  unfold Machine.commitFails
  exact (((f.setCme _).clearMarks _).postEvent _ _).batchEnds _ _

theorem writingBegin : CountersInRange (writingBegin s).1 := by
  unfold Machine.writingBegin
  dsimp only
  (repeat' split) <;> first | exact f | exact f.commitFails _ _ | exact f.view rfl

theorem attemptEnds (fl : InFlight) : CountersInRange (attemptEnds fl s).1 := by
  unfold Machine.attemptEnds
  dsimp only
  (repeat' split) <;> first | exact f.commitSucceeds _ | exact f.commitFails _ _ | exact f.view rfl

theorem copyEnds (u : UnitId) (out : CopyOutcome) : CountersInRange (copyEnds u out s).1 := by
  unfold Machine.copyEnds
  dsimp only
  (repeat' split) <;> first | exact f | exact f.view rfl | exact (f.setCme _).attemptEnds _

theorem markClosing (is : List Nat) : CountersInRange (markClosing is s) :=
  f.forEach (fun _ _ g => g.setRegion _ _) _

theorem takeBatch : CountersInRange (takeBatch s).1 := by
  unfold Machine.takeBatch
  dsimp only
  split
  · exact (f.setCme _).commitFails _ _
  · exact ((f.setCme _).markClosing _).batchEnds _ _

theorem closingCheck : CountersInRange (closingCheck s).1 := by
  unfold Machine.closingCheck
  split
  · exact f.writingBegin
  · exact f

theorem changeArrives (chg : Change) : CountersInRange (changeArrives chg s).1 := by
  unfold Machine.changeArrives
  dsimp only
  split
  all_goals first | exact f | exact (f.setCme _).takeBatch | exact f.view rfl

theorem engineLeaves : CountersInRange (engineLeaves s).1 := by
  unfold Machine.engineLeaves
  (repeat' split) <;> first | exact f | exact f.takeBatch | exact f.view rfl

theorem loadReadEnds (u : UnitId) (data : Option Bytes) : CountersInRange (loadReadEnds u data s).1 := by
  unfold Machine.loadReadEnds slotJudged
  dsimp only
  (repeat' split) <;> first | exact f | exact f.view rfl

/-! ### Probe and HALTED -/

theorem laneHalt (l : LaneId) : CountersInRange (laneHalt l s) := f.modLane l

/-- The entry to HALTED empties the write list and stops timers; no count changes (R180, R198). -/
theorem haltEntry (cause : FaultCode) : CountersInRange (haltEntry cause s) := by
  unfold Machine.haltEntry
  have frozen := ((f.setDev { s.dev with state := .halted, fault := cause, runPending := false }).setLif s.lif.cutOff).setNtu
    (n := { s.ntu with writes := [], handed := 0, routeA := s.ntu.routeA.frozen, routeB := s.ntu.routeB.frozen })
    f.routeA.1 f.routeB.1 f.slots
  exact (frozen.forEach (fun l _ g => g.laneHalt l) _).forEach (fun x _ g => g.ctxHalt x) _

theorem probePasses (n : Nat) : CountersInRange (probePasses n s) := by
  unfold Machine.probePasses
  have settled : CountersInRange (Machine.forEach four
      (fun u t => t.setChan u { t.chan u with state := settledState t u, member := t.isMember u }) { s with width := n }) :=
    forEach (f.view (by rfl)) (fun _ _ g => g.setChan _ _) _
  exact (settled.setCme _).setDev _

theorem loadImage (im : Image) : CountersInRange (loadImage im s) :=
  f.view (by simp only [counterView, loadImage_settings, loadImage_ntu, loadImage_lanes, loadImage_dar])

theorem probeCheck : CountersInRange (probeCheck s) := by
  unfold Machine.probeCheck
  (repeat' split)
  · exact (f.loadImage _).probePasses _
  · exact (f.loadImage _).probePasses _
  · exact ((f.loadImage _).setCme _).haltEntry _
  · exact f

/-! ### One internal effect and all of them -/

theorem handle (m : Msg) : CountersInRange (handle m s).1 := by
  cases m <;> simp only [Machine.handle, quietly]
  case foregroundArrives => exact f.foregroundArrives _ _ _
  case moveEntryArrives => exact f.moveEntryArrives _ _ _ _
  case commitEntryArrives => exact f.commitEntryArrives _ _ _
  case select => exact f.selectEntry _
  case quiet => exact f.quietReport _
  case takeDeferred => exact f
  case moveStart => exact f.moveStart _ _
  case reissue => exact f.reissueStep _ _
  case stepEnds => exact f.stepEnds _ _ _
  case moveBatched => exact f.moveBatched _ _
  case blockEnds => exact f.blockEnds _ _ _
  case changeEnds => exact f.changeEnds _ _
  case passEnded => exact f.passEnded _ _
  case moveRequest => exact f.takeRequest _ _
  case moveReadEnds => exact f.moveReadEnds _ _ _
  case moveWriteEnds => exact f.moveWriteEnds _ _ _
  case slotFreed => exact f.slotFreed _
  case movesLost => exact f.view rfl
  case patrolReady => exact f.becomeReady _
  case patrolReadEnds => exact f.patrolReadEnds _ _ _
  case findingAnswered => exact f.findingAnswered _ _ _ _
  case findingEnded => exact f.findingEnded _ _ _ _
  case freeSlotReport => exact f.freeSlotReport _
  case patrolLost => exact f.patrolLost _
  case passPosted => exact f.postEvent _ _
  case passClosed => exact f.view rfl
  case passRestart => exact f.view rfl
  case passCheck => rw [passCheck_fst]; exact f
  case change => exact f.changeArrives _
  case poisonClear => exact f.takePoisonClear _ _ _ _
  case closingCheck => exact f.closingCheck
  case copyEnds => exact f.copyEnds _ _
  case engineLeaves => exact f.engineLeaves
  case loadReadEnds => exact f.loadReadEnds _ _
  case probeCheck => exact f.probeCheck

theorem drain (n : Nat) (ms : List Msg) : CountersInRange (drain n ms s) := by
  induction n generalizing ms s with
  | zero => exact f
  | succ n ih =>
    cases ms with
    | nil => exact f
    | cons m rest => exact ih (f.handle m) _

theorem workOffAll (ms : List Msg) : CountersInRange (Machine.workOff (s, ms)) := f.drain _ _

omit f in
/-- An event's own effect with all it sets off. -/
theorem workOff {e : Eff} (f : CountersInRange e.1) : CountersInRange (workOff e) := f.drain _ _

end CountersInRange

end Sys2Proof.Machine
end

section
/-! O59, the commands: the lanes' operations count a refused signal up to its greatest value and touch no other count (R157,
R159), the arbiter's weights and caps come from a tested entry (R58, R160), and the settings from a read that limits them
(R156). -/

namespace Sys2Proof.Machine

namespace CountersInRange

variable {s t : State} (f : CountersInRange s)
include f

/-! ### Device and end of an event -/

theorem takeAction : CountersInRange s.takeAction := by
  unfold State.takeAction
  split
  · exact f
  · exact f.setDev _

theorem refuseAction (c : FaultCode) : CountersInRange (s.refuseAction c) := by
  unfold State.refuseAction
  split
  · exact f
  · exact f.setDev _

/-- The arbiter's credits and pointer have no range of their own. -/
theorem setCredits (credit : Vector Nat 4) (pointer : LaneId) :
    CountersInRange { s with dar := { s.dar with credit := credit, pointer := pointer } } :=
  ⟨f.spareLow, f.routeA, f.routeB, f.slots, f.refused, f.weights, f.caps⟩

theorem askStatus (l : LaneId) : CountersInRange (askStatus l s) := by
  unfold Machine.askStatus
  dsimp only
  split
  · exact f
  · exact (f.modLane l).askWrite _ _

theorem handCauses (l : LaneId) (run : List WinRec) : CountersInRange (handCauses l run s) :=
  f.forEach (fun _ _ g => g.routeCause _) _

theorem laneRetire (l : LaneId) : CountersInRange (laneRetire l s) := by
  unfold Machine.laneRetire
  dsimp only
  split
  · exact f
  · exact ((f.modLane l).askStatus l).handCauses l _

theorem retireAll (l : LaneId) : CountersInRange (retireAll l s) := f.modLane l

theorem laneOff (l : LaneId) : CountersInRange (laneOff l s) := by
  unfold Machine.laneOff
  dsimp only
  split
  · exact (((f.retireAll l).modLane l).askStatus l).handCauses l _
  · exact f

theorem laneHaltedOff (l : LaneId) : CountersInRange (laneHaltedOff l s) := by
  unfold Machine.laneHaltedOff
  dsimp only
  split
  · exact f.modLane l
  · exact f

theorem settleLanes : CountersInRange (settleLanes s) := by
  refine f.forEach (fun l t g => ?_) _
  split
  · split
    · exact g.laneHaltedOff l
    · exact g
  · exact g.laneOff l

theorem stoppedCheck : CountersInRange (stoppedCheck s) := by
  unfold Machine.stoppedCheck
  split
  · exact f.setDev _
  · exact f

theorem resetEndCheck : CountersInRange (resetEndCheck s) := by
  unfold Machine.resetEndCheck resetEnd
  split
  · have cleared : CountersInRange { s with anchor := 0, anchorHigh := 0 } := f.view rfl
    exact cleared.idleRoutes.setDev _
  · exact f

theorem finishEvent : CountersInRange (finishEvent s) := f.settleLanes.stoppedCheck.resetEndCheck

omit f in
theorem runEvent {e : Eff} (f : CountersInRange e.1) : CountersInRange (runEvent e) :=
  finishEvent (workOffAll f _)

/-! ### Lanes -/

theorem issueFetch (l : LaneId) : CountersInRange (issueFetch l s) := by
  unfold Machine.issueFetch
  split
  · split
    · exact (f.modLane l).emit _
    · exact f
  · exact f

theorem issueLinkRead (l : LaneId) (a : Addr) : CountersInRange (issueLinkRead l a s) := (f.modLane l).emit _

theorem reread (l : LaneId) : CountersInRange (reread l s) := by
  unfold Machine.reread
  split
  · split
    · exact f.issueLinkRead l _
    · exact f
  · exact (f.modLane l).issueFetch l
  · exact f

theorem park (l : LaneId) (st : LaneState) : CountersInRange (park l st s) := (f.modLane l).askStatus l

theorem laneFault (l : LaneId) (code : LaneFault) (a : Addr) : CountersInRange (laneFault l code a s) :=
  ((f.modLane l).askStatus l).postEvent _ _

theorem cancelStaged (l : LaneId) : CountersInRange (cancelStaged l s) := by
  unfold Machine.cancelStaged
  split
  · exact (f.modLane l).emit _
  · exact f

theorem abortContexts (l : LaneId) : CountersInRange (abortContexts l s) := by
  refine f.forEach (fun x t g => ?_) _
  split
  · exact g.ctxAbort x
  · exact g

theorem laneAbort (l : LaneId) : CountersInRange (laneAbort l s) := by
  unfold Machine.laneAbort
  split
  · exact f
  · exact f
  · exact ((((f.modLane l).cancelStaged l).abortContexts l).askStatus l).laneOff l

theorem laneHaltedAbort (l : LaneId) : CountersInRange (laneHaltedAbort l s) := by
  unfold Machine.laneHaltedAbort
  split
  · exact f
  · exact f
  · exact f.modLane l

/-- The refused-signal count stops at its greatest value (R159). -/
theorem refuseSignal (l : LaneId) : CountersInRange (refuseSignal l s) := by
  unfold Machine.refuseSignal
  split
  · next below => exact (f.setLane l (v := { s.lane l with refused := (s.lane l).refused + 1 }) below).askStatus l
  · exact f

theorem startFromOff (l : LaneId) : CountersInRange (startFromOff l s) := (f.modLane l).emit _

theorem retireAtStart (l : LaneId) : CountersInRange (retireAtStart l s) := by
  unfold Machine.retireAtStart
  dsimp only
  split
  · exact f
  · exact ((f.retireAll l).askStatus l).handCauses l _

theorem laneStart (l : LaneId) : CountersInRange (laneStart l s) := by
  unfold Machine.laneStart
  split
  · exact f.startFromOff l
  · split
    · exact (f.retireAtStart l).startFromOff l
    · exact f.refuseSignal l
  · exact f.refuseSignal l

theorem laneLook (l : LaneId) : CountersInRange (laneLook l s) := by
  unfold Machine.laneLook
  split
  · exact f.reread l
  · exact f

theorem laneRun (l : LaneId) : CountersInRange (laneRun l s) := by
  unfold Machine.laneRun
  split
  · exact f.issueFetch l
  · exact f.reread l
  · exact f.reread l
  · exact f

/-- A loaded entry has passed the tests of its weight and cap (R160). -/
theorem setDar (l : LaneId) {bs : Bytes} (h : cfgRangesOk bs = true) :
    CountersInRange { s with dar := s.dar.configured l bs } := by
  obtain ⟨⟨⟨⟨⟨⟨w1, w8⟩, c1⟩, c4⟩, -⟩, -⟩, -⟩ : ((((((1 ≤ cfgWeight bs ∧ cfgWeight bs ≤ 8) ∧ 1 ≤ cfgCap bs) ∧ cfgCap bs ≤ 4)
      ∧ (byteAt bs 14).toNat ≤ 2) ∧ (byteAt bs 15).toNat ≤ 1)
      ∧ (cfgPoll bs = 0 ∨ 10 ≤ cfgPoll bs ∧ cfgPoll bs ≤ 1000000)) := by
    simpa [cfgRangesOk] using h
  refine ⟨f.spareLow, f.routeA, f.routeB, f.slots, f.refused, fun k => ?_, fun k => ?_⟩
  · by_cases e : l.val = k.val
    · simp [Dar.configured, e, w1, w8]
    · simpa [Dar.configured, Vector.getElem_set, e] using f.weights k
  · by_cases e : l.val = k.val
    · simp [Dar.configured, e, c1, c4]
    · simpa [Dar.configured, Vector.getElem_set, e] using f.caps k

theorem configRead (l : LaneId) (read : HostResult Bytes) : CountersInRange (configRead l read s) := by
  unfold Machine.configRead
  split
  · exact f.laneFault l _ _
  · split
    · exact f.laneFault l _ _
    · split
      · exact f.laneFault l _ _
      · next bs _ bad =>
        have loaded := (f.modLane l (g := fun k => k.configured bs)).setDar l (by simpa using bad)
        exact (loaded.askStatus l).issueFetch l

theorem readOver (l : LaneId) : CountersInRange (readOver l s) := f.modLane l

theorem stopPoll (l : LaneId) : CountersInRange (stopPoll l s) := f.modLane l

theorem fetched (l : LaneId) (a : Addr) (read : HostResult Bytes) : CountersInRange (fetched l a read s) := by
  unfold Machine.fetched
  split
  · exact f.laneFault l _ _
  · split
    · exact f.park l _
    · split
      · exact f.laneFault l _ _
      · exact f.modLane l

theorem linkReadNonZero (l : LaneId) : CountersInRange (linkReadNonZero l s) := f.modLane l

theorem linkRead (l : LaneId) (a : Addr) (read : HostResult Addr) : CountersInRange (linkRead l a read s) := by
  unfold Machine.linkRead
  split
  · exact f.laneFault l _ _
  · split
    · exact f.park l _
    · split
      · exact ((f.linkReadNonZero l).laneRetire l).laneFault l _ _
      · exact (((f.linkReadNonZero l).modLane l).laneRetire l).issueFetch l

theorem drainedLink (l : LaneId) (read : HostResult Addr) : CountersInRange (drainedLink l read s) := by
  unfold Machine.drainedLink
  split
  · exact f
  · split
    · exact f
    · exact ((f.linkReadNonZero l).modLane l).laneRetire l

/-! ### Records -/

theorem takeGrant (l : LaneId) (x : CtxId) (r : Bytes) : CountersInRange (takeGrant l x r s) := by
  unfold Machine.takeGrant
  have granted := ((f.setCtx x (Context.granted r ((s.lane l).stagedAddr.getD 0) l (s.lane l).cfg.tableRight s.tick)).emit
    [.hostWrite ((s.lane l).stagedAddr.getD 0 + 12) [running]]).setCredits
    (grantCredits s |>.set l ((grantCredits s)[l] - 1)) (l + 1)
  exact (granted.modLane l).issueLinkRead l _

theorem refuseRecord (x : CtxId) (st : Status) : CountersInRange (refuseRecord x st s) := f.view rfl

theorem issueChunk (x : CtxId) : CountersInRange (issueChunk x s) := (f.ctxUpdate x _).emit _

theorem acceptData (x : CtxId) : CountersInRange (acceptData x s) := f.records (acceptData_recordsOnly x s)

theorem acceptTableRead (x : CtxId) : CountersInRange (acceptTableRead x s).1 := (f.setCtx x _).issueChunk x

theorem acceptRegionOp (k : OpKind) (x : CtxId) : CountersInRange (acceptRegionOp k x s).1 := by
  unfold Machine.acceptRegionOp
  dsimp only
  split
  · exact f.enterFinishing x
  · exact f.view rfl

theorem acceptStopPass (x : CtxId) : CountersInRange (acceptStopPass x s).1 := by
  unfold Machine.acceptStopPass
  dsimp only
  split <;> exact f.view rfl

theorem acceptRelocate (x : CtxId) : CountersInRange (acceptRelocate x s).1 := by
  unfold Machine.acceptRelocate
  dsimp only
  exact (f.acceptData x).ctxUpdate x _

theorem acceptStartPass (x : CtxId) : CountersInRange (acceptStartPass x s).1 := by
  unfold Machine.acceptStartPass startPass
  dsimp only
  exact ((f.setPatrol _).setCtx x _).enterFinishing x

theorem acceptSet (x : CtxId) : CountersInRange (acceptSet x s).1 := by
  unfold Machine.acceptSet patrolSet
  dsimp only
  exact (f.setCtx x _).setPatrol _

theorem acceptLockdown (x : CtxId) : CountersInRange (acceptLockdown x s).1 := f.view rfl

/-- What the accepted operation of a grant row does itself. -/
theorem acceptOf (k : OpKind) (x : CtxId) : CountersInRange (acceptOf k x s).1 := by
  cases k
  case tableRead => exact f.acceptTableRead x
  case relocate => exact f.acceptRelocate x
  case startPass => exact f.acceptStartPass x
  case stopPass => exact f.acceptStopPass x
  case setPatrol => exact f.acceptSet x
  case regionDefine => exact f.acceptRegionOp _ x
  case regionDelete => exact f.acceptRegionOp _ x
  case regionGuard => exact f.acceptRegionOp _ x
  case regionRelease => exact f.acceptRegionOp _ x
  case regionFix => exact f.acceptRegionOp _ x
  case lockdown => exact f.acceptLockdown x
  case barrier => exact f.enterFinishing x
  case badOp => exact f.enterFinishing x
  all_goals exact f.acceptData x

theorem checkAccess {accept : CtxId → State → Eff} (h : ∀ x {t}, CountersInRange t → CountersInRange (accept x t).1) (k : OpKind)
    (x : CtxId) : CountersInRange (checkAccess k accept x s).1 := by
  unfold Machine.checkAccess
  dsimp only
  split
  · exact f.refuseRecord x _
  · exact h x f

theorem checkRecord {accept : CtxId → State → Eff} (h : ∀ x {t}, CountersInRange t → CountersInRange (accept x t).1) (k : OpKind)
    (x : CtxId) : CountersInRange (checkRecord k accept x s).1 := by
  unfold Machine.checkRecord
  dsimp only
  split
  · exact f.refuseRecord x _
  · split
    · exact f.view rfl
    · exact (f.setCtx x _).checkAccess h k x

theorem grantRow (k : OpKind) : CountersInRange (grantRow k (Machine.acceptOf k) s) := by
  unfold Machine.grantRow
  split
  · split
    · exact workOff ((f.takeGrant _ _ _).checkRecord (fun x _ g => g.acceptOf k x) k _)
    · exact f
  · exact f

theorem listReadEnds (x : CtxId) (read : HostResult Bytes) : CountersInRange (listReadEnds x read s).1 := by
  have listed : ∀ k y {t : State}, CountersInRange t → CountersInRange (acceptListed k y t).1 := fun k y _ g => by
    unfold acceptListed
    split
    · exact g.acceptTableRead y
    · exact g.acceptData y
  unfold Machine.listReadEnds
  dsimp only
  split
  · exact f.view rfl
  · split
    · exact f.view rfl
    · split
      · exact (f.setCtx x _).checkAccess (listed _) _ x
      · exact f.view rfl

theorem takeBlock (x : CtxId) : CountersInRange (takeBlock x s).1 := by
  unfold Machine.takeBlock
  dsimp only
  split
  · split
    · exact f.setCtx x _
    · exact (f.setCtx x _).emit _
  · exact (f.setCtx x _).issueProgram x _ _
  · exact f.view rfl

theorem hostReadEnds (x : CtxId) (j : Nat) (read : HostResult Bytes) : CountersInRange (hostReadEnds x j read s).1 := by
  unfold Machine.hostReadEnds
  dsimp only
  split
  · exact f.ctxUpdate x _
  · split
    · exact f.ctxUpdate x _
    · exact (f.setCtx x _).issueProgram x j _

theorem bufferWriteEnds (x : CtxId) (j : Nat) (error : Bool) : CountersInRange (bufferWriteEnds x j error s) := by
  unfold Machine.bufferWriteEnds chunkEnds
  dsimp only
  (repeat' split) <;> first | exact f.ctxUpdate x _ | exact (f.setCtx x _).issueChunk x

theorem finalWrite (x : CtxId) (fs : FinalState) (part : DevicePart) : CountersInRange (finalWrite x fs part s) :=
  (((f.emit _).records (freeContext_recordsOnly x _)).modLane _).laneRetire _

/-! ### Resets and RUN -/

theorem beginProbe : CountersInRange (beginProbe s) := f.forEach (fun _ _ g => (g.setChan _ _).emit _) _

omit f in
theorem coldState (source : ResetSource) (s : State) : CountersInRange (coldState source s) := by
  have cold : CountersInRange State.reset := by
    have route : RouteInRange Route.cold ⟨0, 1⟩ := ⟨by decide, by decide, by decide, by decide⟩
    refine ⟨by decide, route, route, by decide, fun l => ?_, by decide, by decide⟩
    have lane : State.reset.lane l = Lane.cold := Vector.getElem_replicate l.isLt
    rw [lane]
    exact Nat.zero_le _
  exact cold.view rfl

omit f in
theorem coldReset (source : ResetSource) (s : State) : CountersInRange (coldReset source s) := by
  unfold Machine.coldReset
  dsimp only
  split
  · exact coldState source s
  · exact (coldState source s).beginProbe

theorem warmReset : CountersInRange (warmReset s) := by
  have device : CountersInRange (resetDevice s) :=
    (f.takeAction.setDev { s.takeAction.dev with
      resetInProgress := true, runPending := false, state := if s.halted then .halted else .stopping }).setCredits _ _
  have lanes : CountersInRange (Machine.forEach four
      (fun l t => if t.halted then Machine.laneHaltedAbort l t else Machine.laneAbort l t) (resetDevice s)) := by
    refine device.forEach (fun l t g => ?_) _
    split
    · exact g.laneHaltedAbort l
    · exact g.laneAbort l
  have blocks : CountersInRange (resetBlocks (resetDevice s)).1 := by
    unfold resetBlocks andThen
    dsimp only
    rw [patrolReset_fst]
    exact (lanes.effEach (fun u _ g => g.chanReset u) _).effEach (fun u _ g => g.rltReset u) _
  unfold Machine.warmReset
  dsimp only
  exact ((blocks.workOffAll _).forEach (fun x _ g => g.ctxSettle x) _).finishEvent

omit f in
/-- The settings read at RUN are limited to their ranges (R156). -/
theorem settingsOf_inRange (bs : Bytes) : (settingsOf bs).spareLow ≤ 1023
    ∧ (∀ v : Route, v.count ≤ Config.maxRouteCount → RouteInRange v (settingsOf bs).routeA)
    ∧ ∀ v : Route, v.count ≤ Config.maxRouteCount → RouteInRange v (settingsOf bs).routeB := by
  have range : ∀ hold b : Nat, min hold 4095 ≤ 4095 ∧ 1 ≤ min (max b 1) 64 ∧ min (max b 1) 64 ≤ Config.maxRouteCount :=
    fun hold b => by unfold Config.maxRouteCount; omega
  exact ⟨Nat.min_le_right _ _, fun v h => ⟨h, range _ _⟩, fun v h => ⟨h, range _ _⟩⟩

theorem setSettings (read : HostResult Bytes) (d : Device) :
    CountersInRange { s with dev := d, settings := settingsAfter s.settings read } := by
  cases read with
  | busError => exact f.view rfl
  | data bs =>
    obtain ⟨low, a, b⟩ := settingsOf_inRange bs
    exact ⟨low, a _ f.routeA.1, b _ f.routeB.1, f.slots, f.refused, f.weights, f.caps⟩

theorem enterRunning (read : HostResult Bytes) : CountersInRange (enterRunning read s) :=
  (((f.takeAction.setSettings read _).forEach (fun l _ g => g.laneRun l) _).applyThreshold .a).applyThreshold .b

/-! ### Anchor -/

/-- A set anchor clears route, slot and refused-signal counts (R157, R195). -/
theorem setAnchor (a : Addr) : CountersInRange (setAnchor a s) := by
  unfold Machine.setAnchor
  split
  · have set : CountersInRange { s with anchor := a } := f.view rfl
    exact set.setWrites [] _
  · refine ⟨f.spareLow, ⟨Nat.zero_le _, f.routeA.2⟩, ⟨Nat.zero_le _, f.routeB.2⟩, fun k => ?_, fun l => ?_, f.weights, f.caps⟩
    · have zero : (Vector.replicate 10 (⟨0, EventDetail.zero⟩ : EventSlot))[k] = ⟨0, EventDetail.zero⟩ :=
        Vector.getElem_replicate k.isLt
      exact (congrArg EventSlot.count zero).trans_le (Nat.zero_le _)
    · have cleared : (mapVec Lane.atInit s.lanes)[l] = (s.lane l).atInit := getElem_mapVec _ s.lanes l.val l.isLt
      exact (congrArg Lane.refused cleared).trans_le (Nat.zero_le _)

/-! ### The channels' commands -/

theorem writeAnswered (cmd : StepCmd) (u : UnitId) (attempt : Nat) (answer : ProgramAnswer) :
    CountersInRange (writeAnswered cmd u attempt answer s) := by
  unfold Machine.writeAnswered
  split
  · split
    · exact runEvent (f.setChan u _)
    · exact f
  · exact f

theorem attemptExpires (u : UnitId) : CountersInRange (attemptExpires u s) := by
  unfold Machine.attemptExpires
  split
  · split
    · exact runEvent ((f.setChan u _).postEvent _ _)
    · exact (f.setChan u _).emit _
  · split
    · exact runEvent (f.unitLoss u _ _)
    · exact (f.setChan u _).emit _
  · exact f

theorem paceExpires (u : UnitId) : CountersInRange (paceExpires u s).1 := by
  unfold Machine.paceExpires
  dsimp only
  split
  · exact becomeReady (f.view (by rfl)) u
  · exact f.view rfl

theorem settleExpires (u : UnitId) : CountersInRange (settleExpires u s).1 := by
  unfold Machine.settleExpires
  dsimp only
  split
  · exact becomeReady (f.view (by rfl)) u
  · exact f.view rfl

/-! ### Every command -/

theorem grantCommand (k : OpKind) (h : exec (grantCommand k) s = .next t) : CountersInRange t := by
  rw [exec_grantCommand_acceptOf] at h
  cases h
  exact f.grantRow k

/-- Every command keeps the counters in range. -/
theorem exec (c : Instr) (h : exec c s = .next t) : CountersInRange t := by
  cases c
  case read => exact f.grantCommand .read h
  case write => exact f.grantCommand .write h
  case fill => exact f.grantCommand .fill h
  case copy => exact f.grantCommand .copy h
  case verify => exact f.grantCommand .verify h
  case digest => exact f.grantCommand .digest h
  case relocate => exact f.grantCommand .relocate h
  case barrier => exact f.grantCommand .barrier h
  case tableRead => exact f.grantCommand .tableRead h
  case startPass => exact f.grantCommand .startPass h
  case stopPass => exact f.grantCommand .stopPass h
  case setPatrol => exact f.grantCommand .setPatrol h
  case regionDefine => exact f.grantCommand .regionDefine h
  case regionDelete => exact f.grantCommand .regionDelete h
  case regionGuard => exact f.grantCommand .regionGuard h
  case regionRelease => exact f.grantCommand .regionRelease h
  case regionFix => exact f.grantCommand .regionFix h
  case lockdown => exact f.grantCommand .lockdown h
  case badOp => exact f.grantCommand .badOp h
  all_goals cases h
  case coldReset => exact coldReset _ s
  case run =>
    split
    · split
      · exact f
      · split
        · exact f.refuseAction _
        · exact ((f.takeAction.setDev _).setLif _).emit _
    · exact f
    · exact f.refuseAction _
    · exact f.refuseAction _
    · exact f
  case runTaken =>
    dsimp only
    split
    · exact (f.enterRunning _).workOffAll _
    · exact f
  case stop =>
    split
    · exact (f.takeAction.setDev _).finishEvent
    · split
      · exact f.takeAction.setDev _
      · exact f
    · exact f
    · exact f.refuseAction _
    · exact f
  case reset =>
    split
    · exact f.warmReset
    · exact f
  case anchorHi =>
    split
    · exact f.takeAction.view rfl
    · exact f.refuseAction _
  case anchorLo =>
    split
    · exact f.takeAction.setAnchor _
    · exact f.refuseAction _
  case start =>
    split
    · exact f.forEach (fun l _ g => g.laneStart l) _
    · exact f
  case look =>
    split
    · exact f.forEach (fun l _ g => g.laneLook l) _
    · exact f
  case abort =>
    split
    · exact f
    · exact (f.forEach (fun l _ g => g.laneAbort l) _).finishEvent
  case acknowledge =>
    split
    · exact f
    · exact f.forEach (fun r _ g => g.acknowledgeRoute r) _
  case ignoredWrite => exact f
  case listReadEnd =>
    split
    · exact workOff (f.listReadEnds _ _)
    · exact f
  case takeBlock =>
    split
    · exact runEvent ((f.takeBlock _).ctxSettle _)
    · exact f
  case hostReadEnd =>
    split
    · exact runEvent (f.hostReadEnds _ _ _)
    · exact f
  case bufferWriteEnd =>
    split
    · exact f.bufferWriteEnds _ _ _
    · exact f
  case finalWrite =>
    split
    · split
      · exact f
      · exact (f.finalWrite _ _ _).finishEvent
    · exact f
  case resultError =>
    split
    · exact (f.haltEntry _).finishEvent
    · exact f
  case configReadEnd =>
    split
    · refine finishEvent ?_
      split
      · exact f.readOver _
      · exact f.configRead _ _
    · exact f
  case fetchEnd =>
    split
    · refine finishEvent ?_
      split
      · exact (f.readOver _).modLane _
      · exact f.fetched _ _ _
    · exact f
  case linkReadEnd =>
    split
    · refine finishEvent ?_
      split
      · exact (f.readOver _).drainedLink _ _
      · exact f.linkRead _ _ _
    · exact f
  case pollExpiry =>
    split
    · split
      · split
        · exact (f.stopPoll _).reread _
        · exact f.stopPoll _
      · exact f
    · exact f
  case identifyAnswer =>
    split
    · split
      · exact runEvent (f.setChan _ _)
      · exact f
    · exact f
  case readAnswer =>
    split
    · split
      · exact runEvent (f.setChan _ _)
      · exact f
    · exact f
  case programAnswer => exact f.writeAnswered _ _ _ _
  case clearAnswer => exact f.writeAnswered _ _ _ _
  case noResponse =>
    split
    · exact f.attemptExpires _
    · exact f
  case paceExpiry =>
    split
    · split
      · exact workOff (f.paceExpires _)
      · exact f
    · exact f
  case settleExpiry =>
    split
    · split
      · exact workOff (f.settleExpires _)
      · exact f
    · exact f
  case deviceAreaWrite =>
    split
    · exact f
    · exact (f.setWrites _ _).emit _
  case deviceAreaError =>
    split
    · exact (f.haltEntry _).finishEvent
    · exact f
  case holdExpiry =>
    split
    · split
      · exact f.sendRoute _
      · exact f
    · exact f
  case controlRefused => exact f.refuseAction _
  case deviceAreaWriteCompleted =>
    split
    · exact (f.setWrites s.ntu.writes _).resetEndCheck
    · exact f
  case resetInputRelease =>
    split
    · exact (f.setDev _).beginProbe
    · exact f

theorem step (h : step s = .next t) : CountersInRange t := by
  unfold Machine.step at h
  split at h
  · cases h
    exact f.view rfl
  · next c rest _ =>
    have waiting : CountersInRange { s with pending := rest } := f.view rfl
    exact waiting.exec c h

end CountersInRange

/-- Settles O59: a route counts up to its threshold, a slot and the refused signals up to their greatest values, and weights, caps
and settings are limited where they are read. -/
theorem countersStayInRange : Obligations.CountersStayInRange := fun _ _ f h => f.step h

end Sys2Proof.Machine
end
section
/-! O22 and O16, the re-read of a parked lane at its timer's expiry (R166) and at LOOK (R167), and what a loop over the four lanes
leaves and puts out. -/

namespace Sys2Proof.Machine

variable {s t u : State} {l k : LaneId}

theorem modLane_modLane (l : LaneId) (f g : Lane → Lane) (s : State) :
    modLane l g (modLane l f s) = modLane l (fun k => g (f k)) s := by
  simp only [modLane, lane_setLane_same, setLane_setLane]

theorem LanesOnly.device (h : LanesOnly s t) : SameDevice s t := by
  obtain ⟨ls, n, o, rfl⟩ := h
  exact ⟨rfl, rfl, rfl, rfl, rfl, rfl, rfl, rfl, rfl, rfl, rfl⟩

theorem LanesOnly.media (h : LanesOnly s t) : SameMedia s t := by
  obtain ⟨ls, n, o, rfl⟩ := h
  exact ⟨rfl, rfl, rfl, rfl, rfl⟩

theorem LanesOnly.records (h : LanesOnly s t) : SameRecords s t := by
  obtain ⟨ls, n, o, rfl⟩ := h
  exact ⟨rfl, rfl, rfl⟩

/-- An operation on the lanes a mask names, over all four lanes. -/
theorem forEach_maskLanes (mask : BitVec 4) (f : LaneId → State → State) (s : State) :
    forEach (maskLanes mask) f s = forEach four (fun l t => if mask.getLsbD l.val then f l t else t) s := by
  simp only [forEach, maskLanes, List.foldl_filter]

/-! ### Final records (R168) -/

theorem WinRec.isFinal_iff {r : WinRec} : r.isFinal = true ↔ ∃ fs, r.cond = .final fs := by
  unfold WinRec.isFinal
  split <;> simp_all

theorem Lane.allFinal_iff {k : Lane} : k.allFinal = true ↔ ∀ r ∈ k.window, ∃ fs, r.cond = .final fs := by
  simp only [Lane.allFinal, List.all_eq_true, WinRec.isFinal_iff]

theorem Lane.allFinal_eq_false_iff {k : Lane} : k.allFinal = false ↔ ∃ r ∈ k.window, ∀ fs, r.cond ≠ .final fs := by
  rw [← Bool.not_eq_true, Lane.allFinal_iff]
  push Not
  rfl

/-! ### Reads (R161, R164, R166) -/

theorem issueFetch_fetches {a : Addr} (hs : (s.lane l).state = .seeking) (ht : (s.lane l).target = some a)
    (hr : (s.lane l).reading = none) (hd : s.dev.state = .running) :
    issueFetch l s = (modLane l (fun k => { k with reading := some (.fetch a) }) s).emit [.hostRead a 128] := by
  simp only [issueFetch, hs, ht, hr, hd, if_true]

theorem reread_parkedEnd {r : WinRec} (hs : (s.lane l).state = .parkedEnd) (hn : (s.lane l).newest = some r) :
    reread l s = issueLinkRead l r.addr s := by
  simp only [reread, hs, hn]

theorem reread_parkedUnposted {a : Addr} (hs : (s.lane l).state = .parkedUnposted) (ht : (s.lane l).target = some a)
    (hr : (s.lane l).reading = none) (hd : s.dev.state = .running) :
    reread l s = (modLane l (fun k => { k with state := .seeking, poll := none, reading := some (.fetch a) }) s).emit
      [.hostRead a 128] := by
  have fetches := issueFetch_fetches (l := l) (s := modLane l (fun k => { k with state := .seeking, poll := none }) s)
    (a := a) (by rw [modLane_lane, if_pos rfl]) (by rw [modLane_lane, if_pos rfl, ht]) (by rw [modLane_lane, if_pos rfl, hr]) hd
  simp only [reread, hs]
  rw [fetches, modLane_modLane]

theorem reread_not_parked (h : (s.lane l).parked = false) : reread l s = s := by
  unfold reread
  split <;> simp_all [Lane.parked]

theorem Lane.parked_of_parkedEnd {k : Lane} (h : k.state = .parkedEnd) : k.parked = true := by simp [Lane.parked, h]

theorem Lane.parked_of_parkedUnposted {k : Lane} (h : k.state = .parkedUnposted) : k.parked = true := by simp [Lane.parked, h]

/-! ### POLL_EXPIRY (R166) -/

theorem pollExpiry_not_due (h : ∀ t, (s.lane l).poll = some t → reached s.tick t = false) :
    exec (.pollExpiry l) s = .next s := by
  change execPollExpiry l s = .next s
  unfold execPollExpiry
  cases hp : (s.lane l).poll with
  | none => rfl
  | some t => simp [h t hp]

theorem pollExpiry_due {expiry : Tick} (hp : (s.lane l).poll = some expiry) (hd : reached s.tick expiry = true) :
    exec (.pollExpiry l) s = .next
      (if (s.lane l).parked && s.dev.state == .running then reread l (stopPoll l s) else stopPoll l s) := by
  change execPollExpiry l s = _
  simp only [execPollExpiry, hp, hd, if_true]

theorem stopPoll_lane (l : LaneId) (s : State) : (stopPoll l s).lane l = { s.lane l with poll := none } := by
  rw [stopPoll, modLane_lane, if_pos rfl]

/-- Settles O22: a due expiry stops the timer, and the re-read of the lane so changed is one change of the lane. -/
theorem pollExpiryMakesAParkedLaneRead : Obligations.PollExpiryMakesAParkedLaneRead := by
  refine fun l s => ⟨pollExpiry_not_due, fun expiry hp due => ⟨fun h => ?_, fun r hs hd hn => ?_, fun a hs hd ht hr => ?_⟩⟩
  · rw [pollExpiry_due hp due, if_neg]
    · rfl
    · rcases h with h | h <;> simp [h]
  · have parkedEnd : ((stopPoll l s).lane l).state = .parkedEnd := by rw [stopPoll_lane, hs]
    have newest : ((stopPoll l s).lane l).newest = some r := by rw [stopPoll_lane]; exact hn
    rw [pollExpiry_due hp due, if_pos (by simp [Lane.parked_of_parkedEnd hs, hd]), reread_parkedEnd parkedEnd newest,
      issueLinkRead, stopPoll, modLane_modLane]
    rfl
  · have unposted : ((stopPoll l s).lane l).state = .parkedUnposted := by rw [stopPoll_lane, hs]
    have target : ((stopPoll l s).lane l).target = some a := by rw [stopPoll_lane, ht]
    have idle : ((stopPoll l s).lane l).reading = none := by rw [stopPoll_lane, hr]
    rw [pollExpiry_due hp due, if_pos (by simp [Lane.parked_of_parkedUnposted hs, hd]),
      reread_parkedUnposted unposted target idle hd, stopPoll, modLane_modLane]
    rfl

/-! ### One operation on the four lanes -/

/-- The outputs of a loop over the lanes, each lane's by itself; `holds` is what the loop keeps of the state it starts in. -/
theorem forEach_lanes_out {f : LaneId → State → State} {holds : State → Prop} (start : holds s)
    (keeps : ∀ l t, holds t → holds (f l t)) (others : ∀ l k t, k ≠ l → (f l t).lane k = t.lane k) {out : LaneId → List Output}
    (own : ∀ l t, holds t → t.lane l = s.lane l → (f l t).out = t.out ++ out l) (xs : List LaneId) (hn : xs.Nodup) :
    (forEach xs f s).out = s.out ++ xs.flatMap out := by
  suffices h : ∀ t, holds t → (∀ l ∈ xs, t.lane l = s.lane l) → (forEach xs f t).out = t.out ++ xs.flatMap out from
    h s start fun _ _ => rfl
  induction xs with
  | nil => exact fun t _ _ => (List.append_nil _).symm
  | cons a xs ih =>
    obtain ⟨ha, hn⟩ := List.nodup_cons.mp hn
    intro t ht lanes
    have rest : ∀ l ∈ xs, (f a t).lane l = s.lane l := fun l hl =>
      (others a l t fun e => ha (e ▸ hl)).trans (lanes l (List.mem_cons_of_mem a hl))
    calc (forEach xs f (f a t)).out = (f a t).out ++ xs.flatMap out := ih hn _ (keeps a t ht) rest
      _ = t.out ++ (a :: xs).flatMap out := by
        rw [own a t ht (lanes a List.mem_cons_self), List.append_assoc, List.flatMap_cons]

theorem forEach_self {β : Type} {f : β → State → State} {xs : List β} (h : ∀ a ∈ xs, f a s = s) : forEach xs f s = s := by
  induction xs with
  | nil => rfl
  | cons a xs ih =>
    have first : forEach (a :: xs) f s = forEach xs f (f a s) := rfl
    rw [first, h a List.mem_cons_self, ih fun b hb => h b (List.mem_cons_of_mem a hb)]

/-! ### LOOK (R167) -/

/-- The host read that a parked lane of a RUNNING device makes (R166, R167). -/
def Lane.rereads (k : Lane) : List Output :=
  match k.state, k.target, k.reading, k.newest with
  | .parkedUnposted, some a, none, _ => [.hostRead a 128]
  | .parkedEnd, _, _, some r => [.hostRead r.addr 8]
  | _, _, _, _ => []

theorem issueFetch_ntu (l : LaneId) (s : State) : (issueFetch l s).ntu = s.ntu := by
  unfold issueFetch
  split
  · split <;> rfl
  · rfl

theorem reread_ntu (l : LaneId) (s : State) : (reread l s).ntu = s.ntu := by
  unfold reread
  split
  · split <;> rfl
  · exact issueFetch_ntu ..
  · rfl

theorem issueFetch_out_unposted (hs : (s.lane l).state = .parkedUnposted) (hd : s.dev.state = .running) :
    (issueFetch l (modLane l (fun k => { k with state := .seeking, poll := none }) s)).out = s.out ++ (s.lane l).rereads := by
  have lane := modLane_lane l l (fun k => { k with state := .seeking, poll := none }) s
  rw [if_pos rfl] at lane
  unfold issueFetch Lane.rereads
  simp only [lane, hs]
  cases (s.lane l).target <;> cases (s.lane l).reading <;> simp [modLane, hd]

theorem reread_out (hd : s.dev.state = .running) : (reread l s).out = s.out ++ (s.lane l).rereads := by
  unfold reread
  split
  · next hs =>
    unfold Lane.rereads
    simp only [hs]
    split <;> simp [*, issueLinkRead, modLane]
  · next hs => exact issueFetch_out_unposted hs hd
  · next h1 h2 =>
    unfold Lane.rereads
    split
    · exact absurd ‹_› h2
    · exact absurd ‹_› h1
    · exact (List.append_nil _).symm

/-- What LOOK does to one lane (R167). -/
def lookAt (mask : BitVec 4) (l : LaneId) (s : State) : State := if mask.getLsbD l.val then laneLook l s else s

theorem exec_look (ha : s.anchor ≠ 0) (hd : s.dev.state = .running) (mask : BitVec 4) :
    exec (.look mask) s = .next (forEach four (lookAt mask) s) := by
  change execLook mask s = _
  rw [execLook, if_pos ⟨ha, hd⟩, forEach_maskLanes]
  rfl

theorem lookAt_lanesOnly (mask : BitVec 4) (l : LaneId) (s : State) : LanesOnly s (lookAt mask l s) := by
  unfold lookAt
  split
  · exact laneLook_lanesOnly l s
  · exact .refl s

theorem lookAt_lane_other (mask : BitVec 4) (l k : LaneId) (s : State) (h : k ≠ l) : (lookAt mask l s).lane k = s.lane k := by
  unfold lookAt
  split
  · exact laneLook_lane_other l k s h
  · rfl

theorem lookAt_ntu (mask : BitVec 4) (l : LaneId) (s : State) : (lookAt mask l s).ntu = s.ntu := by
  unfold lookAt laneLook
  split
  · split
    · exact reread_ntu l s
    · rfl
  · rfl

theorem lookAt_parked {mask : BitVec 4} (hm : mask.getLsbD l.val = true) (hp : (s.lane l).parked = true) :
    lookAt mask l s = reread l s := by
  rw [lookAt, if_pos hm, laneLook, if_pos hp]

theorem lookAt_self {mask : BitVec 4} (h : mask.getLsbD l.val = false ∨ (s.lane l).parked = false) : lookAt mask l s = s := by
  unfold lookAt laneLook
  rcases h with h | h
  · rw [if_neg (by rw [h]; exact Bool.false_ne_true)]
  · rw [if_neg (c := (s.lane l).parked = true) (by rw [h]; exact Bool.false_ne_true), ite_self]

theorem lookAt_out (mask : BitVec 4) (hd : s.dev.state = .running) :
    (lookAt mask l s).out = s.out ++ if mask.getLsbD l.val then (s.lane l).rereads else [] := by
  by_cases hm : mask.getLsbD l.val = true
  · rw [if_pos hm]
    by_cases hp : (s.lane l).parked = true
    · rw [lookAt_parked hm hp, reread_out hd]
    · rw [lookAt_self (.inr (by simpa using hp)), ← reread_out hd, reread_not_parked (by simpa using hp)]
  · rw [if_neg hm, lookAt_self (.inl (by simpa using hm)), List.append_nil]

/-- Settles O16: each lane of the mask re-reads in a state in which it, the device and the anchor are as before (`forEach_lane`). -/
theorem lookMakesParkedLanesRead : Obligations.LookMakesParkedLanesRead := by
  refine fun mask s => ⟨fun h => ?nothing, fun ha hd => ⟨_, exec_look ha hd mask, ?_⟩⟩
  case nothing =>
    change execLook mask s = .next s
    rw [execLook, if_neg fun g => h.elim (absurd · g.1) (absurd g.2)]
  have only := LanesOnly.each (lookAt_lanesOnly mask) four s
  have each : ∀ l, ∃ u, LanesOnly s u ∧ u.lane l = s.lane l ∧ (forEach four (lookAt mask) s).lane l = (lookAt mask l u).lane l :=
    fun l => (forEach_lane .refl .trans (lookAt_lanesOnly mask) (lookAt_lane_other mask) four four_nodup s).2 l (mem_four l)
  refine ⟨fun l h => ?other, fun l r hm hs hn => ?atEnd, fun l a hm hs ht hr => ?unposted, ?out, only.device, only.media,
    only.records, forEach_frame (p := State.ntu) _ (lookAt_ntu mask) four s⟩
  case other =>
    obtain ⟨u, -, same, e⟩ := each l
    rw [e, lookAt_self (by rwa [same]), same]
  case atEnd =>
    obtain ⟨u, -, same, e⟩ := each l
    rw [e, lookAt_parked hm (Lane.parked_of_parkedEnd (by rw [same, hs])), reread_parkedEnd (by rw [same, hs]) (by rw [same, hn]),
      issueLinkRead_lane, if_pos rfl, same]
  case unposted =>
    obtain ⟨u, ou, same, e⟩ := each l
    rw [e, lookAt_parked hm (Lane.parked_of_parkedUnposted (by rw [same, hs])), reread_parkedUnposted (by rw [same, hs])
      (by rw [same, ht]) (by rw [same, hr]) (by rw [ou.device.dev, hd]), emit_lane, modLane_lane, if_pos rfl, same]
  case out =>
    exact forEach_lanes_out (holds := LanesOnly s) (.refl s) (fun l t h => h.trans (lookAt_lanesOnly mask l t))
      (lookAt_lane_other mask) (fun l t ht same => same ▸ lookAt_out mask (by rw [ht.device.dev, hd])) four four_nodup

end Sys2Proof.Machine
end
section
/-! What later operations leave of the notification unit: the event slots and the requests of the write list that they do not
replace (R178), and what a lane's status entry and faults place there (R169, R172). -/

namespace Sys2Proof.Machine

variable {s t u : State} {l k : LaneId} {w : WriteTarget}

/-! ### Requests that stay in the write list (R178) -/

/-- Every request for target `w` still waits, and the event slots are as they were. -/
structure KeepsRequest (w : WriteTarget) (s t : State) : Prop where
  requests : ∀ c : Bytes, (⟨w, c⟩ : WriteReq) ∈ s.ntu.writes → (⟨w, c⟩ : WriteReq) ∈ t.ntu.writes
  slots : t.ntu.slots = s.ntu.slots

theorem mem_putRequest_self (w : WriteTarget) (c : Bytes) (ws : List WriteReq) : (⟨w, c⟩ : WriteReq) ∈ putRequest w c ws := by
  induction ws with
  | nil => exact List.mem_singleton_self _
  | cons r rs ih =>
    unfold putRequest
    split
    · exact List.mem_cons_self
    · exact List.mem_cons_of_mem _ ih

theorem mem_putRequest_other {v : WriteTarget} (h : w ≠ v) (c d : Bytes) {ws : List WriteReq} (m : (⟨w, d⟩ : WriteReq) ∈ ws) :
    (⟨w, d⟩ : WriteReq) ∈ putRequest v c ws := by
  induction ws with
  | nil => exact absurd m List.not_mem_nil
  | cons r rs ih =>
    unfold putRequest
    split
    · next e =>
      rcases List.mem_cons.mp m with rfl | m
      · exact absurd e h
      · exact List.mem_cons_of_mem _ m
    · exact (List.mem_cons.mp m).elim (fun e => e ▸ List.mem_cons_self) fun m => List.mem_cons_of_mem _ (ih m)

/-- Outside HALTED and with an anchor, a request asked for waits in the list (R178, R180). -/
theorem askWrite_asks (ha : s.anchor ≠ 0) (hd : s.dev.state ≠ .halted) (c : Bytes) :
    (⟨w, c⟩ : WriteReq) ∈ (askWrite w c s).ntu.writes := by
  rw [askWrite, if_neg (not_or.mpr ⟨ha, by simpa [State.halted] using hd⟩)]
  exact mem_putRequest_self w c _

namespace KeepsRequest

theorem refl (w : WriteTarget) (s : State) : KeepsRequest w s s := ⟨fun _ m => m, rfl⟩

theorem of_ntu (h : t.ntu = s.ntu) : KeepsRequest w s t := ⟨fun _ m => h ▸ m, congrArg Ntu.slots h⟩

theorem trans (h : KeepsRequest w s t) (g : KeepsRequest w t u) : KeepsRequest w s u :=
  ⟨fun c m => g.requests c (h.requests c m), g.slots.trans h.slots⟩

theorem each {β : Type} {f : β → State → State} (hf : ∀ a t, KeepsRequest w t (f a t)) (xs : List β) (s : State) :
    KeepsRequest w s (forEach xs f s) := by
  induction xs generalizing s with
  | nil => exact .refl w s
  | cons a xs ih => exact (hf a s).trans (ih (f a s))

theorem askWrite {v : WriteTarget} (h : w ≠ v) (c : Bytes) (s : State) : KeepsRequest w s (askWrite v c s) := by
  refine ⟨fun d m => ?_, askWrite_slots ..⟩
  unfold Machine.askWrite
  split
  · exact m
  · exact mem_putRequest_other h c d m

theorem setRoute (s : State) (r : RouteId) (v : Route) : KeepsRequest w s (s.setRoute r v) :=
  ⟨fun _ m => by rwa [setRoute_writes], setRoute_slots ..⟩

section
variable (notMessage : ∀ r, w ≠ .message r)
include notMessage

theorem sendRoute (r : RouteId) (s : State) : KeepsRequest w s (sendRoute r s) := by
  refine ⟨fun c m => ?_, sendRoute_slots ..⟩
  rw [sendRoute_writes]
  split
  · exact m
  · exact List.mem_append_left _ (List.mem_filter.mpr ⟨m, by simpa using notMessage r⟩)

theorem takeCause (r : RouteId) (s : State) : KeepsRequest w s (takeCause r s) := by
  unfold Machine.takeCause holdRoute
  dsimp only
  (repeat' split) <;> first | exact sendRoute notMessage r s | exact setRoute s r _

theorem routeCause (sel : RouteSel) (s : State) : KeepsRequest w s (routeCause sel s) := by
  unfold Machine.routeCause
  split
  · exact .refl w s
  · cases sel with
    | none => exact .refl w s
    | a => exact takeCause notMessage .a s
    | b => exact takeCause notMessage .b s

theorem handCauses (l : LaneId) (run : List WinRec) (s : State) : KeepsRequest w s (handCauses l run s) :=
  each (fun _ t => routeCause notMessage _ t) _ s

end

theorem modLane (l : LaneId) (f : Lane → Lane) (s : State) : KeepsRequest w s (modLane l f s) := .of_ntu rfl

theorem askStatus (h : w ≠ .laneStatus l) (s : State) : KeepsRequest w s (askStatus l s) := by
  unfold Machine.askStatus
  dsimp only
  split
  · exact .refl w s
  · exact (modLane l _ s).trans (askWrite h _ _)

theorem issueFetch (l : LaneId) (s : State) : KeepsRequest w s (issueFetch l s) := .of_ntu (issueFetch_ntu l s)

/-- A lane that turns OFF asks for its own status entry alone. -/
theorem laneOff (notMessage : ∀ r, w ≠ .message r) (h : w = .laneStatus l → (s.lane l).state ≠ .draining) :
    KeepsRequest w s (laneOff l s) := by
  unfold Machine.laneOff
  dsimp only
  split
  · next off =>
    exact ((modLane l _ s).trans (modLane l _ _)).trans
      ((askStatus (fun e => h e off.1) _).trans (handCauses notMessage l _ _))
  · exact .refl w s

theorem laneHaltedOff (l : LaneId) (s : State) : KeepsRequest w s (laneHaltedOff l s) := by
  unfold Machine.laneHaltedOff
  dsimp only
  split
  · exact modLane l _ s
  · exact .refl w s

end KeepsRequest

/-- What the tests at an event's end do to one lane (R174, R176). -/
def settleLane (l : LaneId) (s : State) : State :=
  if s.halted then (if s.dev.resetInProgress then laneHaltedOff l s else s) else laneOff l s

theorem settleLanes_eq (s : State) : settleLanes s = forEach four settleLane s := rfl

theorem settleLane_lanesOnly (l : LaneId) (s : State) : LanesOnly s (settleLane l s) := by
  unfold settleLane
  split
  · split
    · exact laneHaltedOff_lanesOnly l s
    · exact .refl s
  · exact laneOff_lanesOnly l s

theorem settleLane_lane_other (l k : LaneId) (s : State) (h : k ≠ l) : (settleLane l s).lane k = s.lane k := by
  unfold settleLane
  split
  · split
    · exact laneHaltedOff_lane_other l k s h
    · rfl
  · exact laneOff_lane_other l k s h

theorem settleLane_lane (l k : LaneId) (s : State) : LaneSettled (s.lane k) ((settleLane l s).lane k) := by
  unfold settleLane
  split
  · split
    · exact laneHaltedOff_lane l k s
    · exact .refl _
  · exact laneOff_lane l k s

namespace KeepsRequest

theorem settleLane (notMessage : ∀ r, w ≠ .message r) (h : w = .laneStatus l → (s.lane l).state ≠ .draining) :
    KeepsRequest w s (settleLane l s) := by
  unfold Machine.settleLane
  split
  · split
    · exact laneHaltedOff l s
    · exact .refl w s
  · exact laneOff notMessage h

theorem settleLanes (notMessage : ∀ r, w ≠ .message r) (h : ∀ l, w = .laneStatus l → (s.lane l).state ≠ .draining) :
    KeepsRequest w s (settleLanes s) := by
  rw [settleLanes_eq]
  generalize four = ls
  induction ls generalizing s with
  | nil => exact .refl w s
  | cons a ls ih =>
    refine (settleLane notMessage (h a)).trans (ih fun k e => ?_)
    rw [(settleLane_lane a k s).kept (h k e)]
    exact h k e

theorem finishEvent (notMessage : ∀ r, w ≠ .message r) (h : ∀ l, w = .laneStatus l → (s.lane l).state ≠ .draining) :
    KeepsRequest w s (finishEvent s) := by
  have tests : ∀ t : State, KeepsRequest w t (resetEndCheck (stoppedCheck t)) := fun t => by
    unfold resetEndCheck resetEnd stoppedCheck
    (repeat' split) <;> exact ⟨fun _ m => m, rfl⟩
  exact (settleLanes notMessage h).trans (tests _)

theorem finishEvent_slot (k : Fin 10) (s : State) : KeepsRequest (.slot k) s (Machine.finishEvent s) :=
  finishEvent (fun _ e => nomatch e) fun _ e => nomatch e

theorem finishEvent_status (h : (s.lane l).state ≠ .draining) : KeepsRequest (.laneStatus l) s (Machine.finishEvent s) :=
  finishEvent (fun _ e => nomatch e) fun k e => by obtain rfl : l = k := by injection e
                                                   exact h

end KeepsRequest

/-! ### The status entry and the causes of retired records (R169) -/

theorem askStatus_asks (ha : s.anchor ≠ 0) (hd : s.dev.state ≠ .halted) (hl : (s.lane l).lastStatus ≠ some (s.lane l).status) :
    (⟨.laneStatus l, (s.lane l).status.bytes⟩ : WriteReq) ∈ (askStatus l s).ntu.writes := by
  unfold askStatus
  dsimp only
  rw [if_neg hl]
  exact askWrite_asks (s := modLane l (fun k => { k with lastStatus := some (s.lane l).status }) s) ha hd _

theorem askStatus_route (l : LaneId) (s : State) (r : RouteId) : (askStatus l s).route r = s.route r := by
  unfold askStatus askWrite
  dsimp only
  (repeat' split) <;> cases r <;> rfl

/-- The causes of a run go to the route the lane names, which no cause changes. -/
theorem handCauses_eq (l : LaneId) (run : List WinRec) (s : State) :
    handCauses l run s = forEach (run.filter WinRec.notify) (fun _ => routeCause (s.lane l).cfg.notify) s := by
  unfold handCauses
  generalize run.filter WinRec.notify = rs
  induction rs generalizing s with
  | nil => rfl
  | cons r rs ih =>
    have tail := ih (routeCause (s.lane l).cfg.notify s)
    rw [(routeCause_ntuOnly ..).lane] at tail
    exact tail

/-! ### A lane that faults (R172) -/

/-- The lane's fields once it is FAULTED, before its status entry is asked for. -/
def Lane.faulty (k : Lane) (code : LaneFault) (a : Addr) : Lane :=
  { k with state := .faulted, fault := code, faultAddr := a, resume := a, target := none, reading := none, poll := none }

theorem laneFault_own (l : LaneId) (code : LaneFault) (a : Addr) (s : State) : (laneFault l code a s).lane l
    = { (s.lane l).faulty code a with lastStatus := some ((s.lane l).faulty code a).status } := by
  rw [laneFault_lane, if_pos rfl]
  rfl

theorem laneFault_asks (ha : s.anchor ≠ 0) (hd : s.dev.state ≠ .halted) {code : LaneFault} {a : Addr}
    (hl : (s.lane l).lastStatus ≠ some ((s.lane l).faulty code a).status) :
    (⟨.laneStatus l, ((s.lane l).faulty code a).status.bytes⟩ : WriteReq) ∈ (laneFault l code a s).ntu.writes := by
  have lane := modLane_lane l l (·.faulty code a) s
  rw [if_pos rfl] at lane
  have asked := askStatus_asks (l := l) (s := modLane l (·.faulty code a) s) ha hd (by rw [lane]; exact hl)
  rw [lane] at asked
  unfold laneFault postEvent
  exact (((KeepsRequest.of_ntu (w := .laneStatus l) rfl).trans (.askWrite (by simp) _ _)).trans
    (.routeCause (w := .laneStatus l) (fun _ e => nomatch e) _ _)).requests _ (by exact asked)

theorem postEvent_slots (k : EventKind) (o : Occurrence) (s : State) :
    (postEvent k o s).ntu.slots = s.ntu.slots.set k.slot ((s.ntu.slots[k.slot]).occur (o.detail s.tick)) :=
  (routeCause_slots _ _).trans (askWrite_slots ..)

theorem postEvent_slot (k : EventKind) (o : Occurrence) (s : State) :
    (postEvent k o s).ntu.slots[k.slot] = (s.ntu.slots[k.slot]).occur (o.detail s.tick) := by
  rw [postEvent_slots]
  simp

theorem postEvent_asks (ha : s.anchor ≠ 0) (hd : s.dev.state ≠ .halted) (k : EventKind) (o : Occurrence) :
    (⟨.slot k.slot, ((postEvent k o s).ntu.slots[k.slot]).bytes⟩ : WriteReq) ∈ (postEvent k o s).ntu.writes := by
  rw [postEvent_slot]
  unfold postEvent
  exact (KeepsRequest.routeCause (w := .slot k.slot) (fun _ e => nomatch e) _ _).requests _
    (askWrite_asks (by exact ha) (by exact hd) _)

end Sys2Proof.Machine
end
section
/-! O18 and O19, the ends of configuration reads and fetches (R160, R162), and a lane's entry to FAULTED (R172). -/

namespace Sys2Proof.Machine

variable {s t u : State} {l k : LaneId}

/-! ### FAULTED (R172) -/

theorem laneFault_slot (l : LaneId) (code : LaneFault) (a : Addr) (s : State) :
    (laneFault l code a s).ntu.slots[EventKind.laneFault.slot] = (s.ntu.slots[EventKind.laneFault.slot]).occur
      (({ code := some code.code, gen := some s.cme.gen, lane := some l.val } : Occurrence).detail s.tick) := by
  have only := (modLane_lanesOnly l (·.faulty code a) s).trans (askStatus_lanesOnly l _)
  have slots : (askStatus l (modLane l (·.faulty code a) s)).ntu.slots = s.ntu.slots :=
    (KeepsRequest.askStatus (w := .message .a) (by simp) (modLane l (·.faulty code a) s)).slots
  unfold laneFault
  refine (postEvent_slot ..).trans ?_
  change ((askStatus l (modLane l (·.faulty code a) s)).ntu.slots[EventKind.laneFault.slot]).occur
    (Occurrence.detail _ (askStatus l (modLane l (·.faulty code a) s)).tick) = _
  rw [slots, only.device.tick]

/-- A lane faults in a state `u` that the lanes' operations have reached from `s` at the same event: with the tests of the
event's end it is FAULTED as R172 says, when no entry showing FAULTED has been asked for in between. -/
theorem laneFaulted_of (only : LanesOnly s u) (slots : u.ntu.slots = s.ntu.slots) (expSeq : (u.lane l).expSeq = (s.lane l).expSeq)
    (cfg : (u.lane l).cfg = (s.lane l).cfg)
    (asked : ∀ e : LaneStatus, (u.lane l).lastStatus = some e → e.state = .faulted → (s.lane l).lastStatus = some e)
    (code : LaneFault) (a : Addr) : LaneFaulted l code a s (finishEvent (laneFault l code a u)) := by
  have own := laneFault_own l code a u
  have active : ((laneFault l code a u).lane l).state ≠ .draining := by rw [own]; exact fun e => nomatch e
  have lane : (finishEvent (laneFault l code a u)).lane l = (laneFault l code a u).lane l := (finishEvent_lane l _).kept active
  have slot : (finishEvent (laneFault l code a u)).ntu.slots = (laneFault l code a u).ntu.slots :=
    (KeepsRequest.finishEvent_slot 0 _).slots
  have occurs := laneFault_slot l code a u
  rw [slots, only.device.tick, only.media.cme] at occurs
  have anchor : s.anchor ≠ 0 → u.anchor ≠ 0 := fun h => by rwa [only.device.anchor]
  have live : s.dev.state ≠ .halted → u.dev.state ≠ .halted := fun h => by rwa [only.device.dev]
  refine { state := ?_, fault := ?_, faultAddr := ?_, resume := ?_, stopped := ?stopped, expSeq := ?expSeq, cfg := ?cfg,
           asked := ?_, statusWrite := fun ha hd hl => ?statusWrite, detail := ?detail, count := ?count,
           eventWrite := fun ha hd => ?eventWrite }
  case statusWrite =>
    rw [lane, own] at hl ⊢
    exact (KeepsRequest.finishEvent_status active).requests _
      (laneFault_asks (anchor ha) (live hd) fun e => hl (asked _ e rfl))
  case detail =>
    rw [slot, occurs]
    cases code <;> rfl
  case count =>
    rw [slot, occurs]
    rfl
  case eventWrite =>
    rw [slot]
    refine (KeepsRequest.finishEvent_slot _ _).requests _ ?_
    have posted := ((modLane_lanesOnly l (·.faulty code a) u).trans (askStatus_lanesOnly l _)).device
    exact postEvent_asks (s := askStatus l (modLane l (·.faulty code a) u)) (by rw [posted.anchor]; exact anchor ha)
      (by rw [posted.dev]; exact live hd) .laneFault _
  all_goals rw [lane, own]
  case expSeq => exact expSeq
  case cfg => exact cfg
  case stopped => exact ⟨rfl, rfl, rfl⟩
  all_goals rfl

theorem laneFaulted_self (l : LaneId) (code : LaneFault) (a : Addr) (s : State) :
    LaneFaulted l code a s (finishEvent (laneFault l code a s)) :=
  laneFaulted_of (.refl s) rfl rfl rfl (fun _ e _ => e) code a

theorem finishEvent_laneFault_lane (l : LaneId) (code : LaneFault) (a : Addr) (s : State) :
    (finishEvent (laneFault l code a s)).lane l
      = { (s.lane l).faulty code a with lastStatus := some ((s.lane l).faulty code a).status } := by
  rw [(finishEvent_lane l _).kept (by rw [laneFault_own]; exact fun e => nomatch e), laneFault_own]

theorem finishEvent_laneFault_dar (l : LaneId) (code : LaneFault) (a : Addr) (s : State) :
    (finishEvent (laneFault l code a s)).dar = s.dar :=
  (finishEvent_keeps _).dar.trans (laneFault_lanesOnly ..).records.dar

/-! ### CONFIG_READ_END (R160) -/

theorem awaits_epoch (s : State) : s.awaits s.lif.epoch = true := beq_self_eq_true _

theorem laneDraining_eq_false (h : (s.lane l).state ≠ .draining) : laneDraining l s = false := by
  simpa [laneDraining] using h

theorem exec_configReadEnd (hr : (s.lane l).reading = some .config) (hs : (s.lane l).state ≠ .draining) (read : HostResult Bytes) :
    exec (.configReadEnd l read s.lif.epoch) s = .next (finishEvent (configRead l read s)) := by
  change execConfigReadEnd l read s s.lif.epoch = _
  rw [execConfigReadEnd, if_pos ⟨awaits_epoch s, hr⟩, if_neg (by rw [laneDraining_eq_false hs]; exact Bool.false_ne_true)]

theorem configRead_badLink {bs : Bytes} (h : recordAddrOk (cfgHead bs) = false) :
    configRead l (.data bs) s = laneFault l .badLink (cfgHead bs) s := by
  simp [configRead, h]

theorem configRead_badConfig {bs : Bytes} (h : recordAddrOk (cfgHead bs) = true) (g : cfgRangesOk bs = false) :
    configRead l (.data bs) s = laneFault l .badConfig (s.cfgAddr l) s := by
  simp [configRead, h, g]

/-- The state in which the lane has loaded its configuration entry and the DAR knows weight and cap (R58, R160). -/
def loadConfig (l : LaneId) (bs : Bytes) (s : State) : State :=
  askStatus l { modLane l (·.configured bs) s with dar := s.dar.configured l bs }

theorem configRead_loads {bs : Bytes} (h : recordAddrOk (cfgHead bs) = true) (g : cfgRangesOk bs = true) :
    configRead l (.data bs) s = issueFetch l (loadConfig l bs s) := by
  simp only [configRead, h, g]
  rfl

theorem loadConfig_lane (l : LaneId) (bs : Bytes) (s : State) : (loadConfig l bs s).lane l
    = { (s.lane l).configured bs with lastStatus := some ((s.lane l).configured bs).status } := by
  have lane : ({ modLane l (·.configured bs) s with dar := s.dar.configured l bs } : State).lane l = (s.lane l).configured bs :=
    (modLane_lane l l (·.configured bs) s).trans (if_pos rfl)
  rw [loadConfig, askStatus_lane, if_pos rfl, lane]

theorem loadConfig_dev (l : LaneId) (bs : Bytes) (s : State) : (loadConfig l bs s).dev = s.dev :=
  (askStatus_lanesOnly ..).device.dev

theorem loadConfig_dar (l : LaneId) (bs : Bytes) (s : State) : (loadConfig l bs s).dar = s.dar.configured l bs :=
  (askStatus_lanesOnly ..).records.dar

/-- A lane whose fetch may have gone out is what it was but for the read in flight. -/
theorem issueFetch_own (l : LaneId) (s : State) :
    (issueFetch l s).lane l = { s.lane l with reading := ((issueFetch l s).lane l).reading } := by
  rw [issueFetch_lane]
  split <;> rfl

theorem issueFetch_reading {a : Addr} (hs : (s.lane l).state = .seeking) (ht : (s.lane l).target = some a)
    (hr : (s.lane l).reading = none) (hd : s.dev.state = .running) : ((issueFetch l s).lane l).reading = some (.fetch a) := by
  rw [issueFetch_lane, if_pos ⟨rfl, hs, hr, hd⟩, ht]
  rfl

/-- Settles O18, by the tests of R160 in their order. -/
theorem configReadIsTestedAndLoaded : Obligations.ConfigReadIsTestedAndLoaded := by
  refine fun l s hr hs => ⟨⟨_, exec_configReadEnd hr hs .busError, laneFaulted_self .., finishEvent_laneFault_dar ..⟩,
    fun bs => ⟨_, exec_configReadEnd hr hs (.data bs), fun h => ?badLink, fun h g => ?badConfig, fun h g => ?loaded⟩⟩
  case badLink =>
    rw [configRead_badLink h]
    exact ⟨laneFaulted_self .., finishEvent_laneFault_dar ..⟩
  case badConfig =>
    rw [configRead_badConfig h g]
    exact ⟨laneFaulted_self .., finishEvent_laneFault_dar ..⟩
  case loaded =>
    rw [configRead_loads h g]
    have loads := loadConfig_lane l bs s
    have own := issueFetch_own l (loadConfig l bs s)
    have lane : (finishEvent (issueFetch l (loadConfig l bs s))).lane l = (issueFetch l (loadConfig l bs s)).lane l :=
      (finishEvent_lane l _).kept (by rw [own, loads]; exact hs)
    have dar : (finishEvent (issueFetch l (loadConfig l bs s))).dar = s.dar.configured l bs :=
      ((finishEvent_keeps _).dar.trans (issueFetch_lanesOnly ..).records.dar).trans (loadConfig_dar ..)
    rw [lane, dar]
    refine ⟨?_, ?_, ?_, ?_, ?_, ?_, ?_, ?_, ?_, fun seeking running => ?fetches⟩
    case fetches =>
      exact issueFetch_reading (by rw [loads]; exact seeking) (by rw [loads]; rfl) (by rw [loads]; rfl)
        (by rw [loadConfig_dev]; exact running)
    iterate 6 rw [own, loads]; rfl
    all_goals exact Vector.getElem_set_self _

/-! ### FETCH_END (R162) -/

theorem exec_fetchEnd {a : Addr} (hr : (s.lane l).reading = some (.fetch a)) (hs : (s.lane l).state ≠ .draining)
    (read : HostResult Bytes) : exec (.fetchEnd l read s.lif.epoch) s = .next (finishEvent (fetched l a read s)) := by
  change execFetchEnd l read s s.lif.epoch = _
  simp only [execFetchEnd, awaits_epoch, hr, laneDraining_eq_false hs]
  rfl

/-- A lane that parks at this event, after the event's tests (R166). -/
theorem finishEvent_park_lane (l : LaneId) {st : LaneState} (hs : st ≠ .draining) (s : State) :
    ∃ e, (finishEvent (park l st s)).lane l
      = { s.lane l with state := st, reading := none, poll := pollFrom s l, lastStatus := some e } := by
  have own := park_lane l l st s
  rw [if_pos rfl] at own
  exact ⟨_, ((finishEvent_lane l _).kept (by rw [own]; exact hs)).trans own⟩

/-- Settles O19, by the four tests of R162. -/
theorem fetchIsTestedAndStaged : Obligations.FetchIsTestedAndStaged := by
  refine fun l a s hr hs => ⟨⟨_, exec_fetchEnd hr hs .busError, laneFaulted_self .., ?busError⟩,
    fun r => ⟨_, exec_fetchEnd hr hs (.data r), fun h => ?unposted, fun h g => ?seqBreak, fun h g => ?staged⟩⟩
  case busError =>
    rw [fetched, finishEvent_laneFault_lane]
    rfl
  case unposted =>
    rw [fetched, if_pos h]
    obtain ⟨e, lane⟩ := finishEvent_park_lane l (st := .parkedUnposted) (fun e => nomatch e) s
    rw [lane]
    exact ⟨rfl, rfl, rfl, rfl, rfl, rfl⟩
  case seqBreak =>
    rw [fetched, if_neg (not_not_intro h), if_pos g]
    refine ⟨laneFaulted_self .., ?_⟩
    rw [finishEvent_laneFault_lane]
    exact ⟨rfl, rfl⟩
  case staged =>
    rw [fetched, if_neg (not_not_intro h), if_neg (not_not_intro g)]
    have own := modLane_lane l l (·.stage a r) s
    rw [if_pos rfl] at own
    rw [(finishEvent_lane l _).kept (by rw [own]; exact fun e => nomatch e), own]
    exact ⟨rfl, rfl, rfl, rfl, rfl, rfl⟩

end Sys2Proof.Machine
end
section
/-! O20 and O21, the ends of link reads (R165), retirement (R169) and DRAINING lanes turning OFF (R174, R176). -/

namespace Sys2Proof.Machine

variable {s t u : State} {l k : LaneId}

/-! ### A lane changed, and its status entry asked for (R169) -/

/-- Lane `l` becomes `f` of itself and asks for its status entry. -/
def restate (l : LaneId) (f : Lane → Lane) (s : State) : State := askStatus l (modLane l f s)

theorem restate_lane (l : LaneId) (f : Lane → Lane) (s : State) :
    (restate l f s).lane l = { f (s.lane l) with lastStatus := some (f (s.lane l)).status } := by
  rw [restate, askStatus_lane, if_pos rfl, modLane_lane, if_pos rfl]

theorem restate_lane_other (l k : LaneId) (f : Lane → Lane) (s : State) (h : k ≠ l) : (restate l f s).lane k = s.lane k := by
  rw [restate, askStatus_lane, if_neg h, modLane_lane, if_neg h]

theorem restate_lanesOnly (l : LaneId) (f : Lane → Lane) (s : State) : LanesOnly s (restate l f s) :=
  (modLane_lanesOnly l f s).trans (askStatus_lanesOnly l _)

theorem restate_route (l : LaneId) (f : Lane → Lane) (s : State) (r : RouteId) : (restate l f s).route r = s.route r := by
  rw [restate, askStatus_route]
  cases r <;> rfl

theorem restate_out (l : LaneId) (f : Lane → Lane) (s : State) : (restate l f s).out = s.out := askStatus_out ..

theorem restate_asked (l : LaneId) (f : Lane → Lane) (s : State) :
    ((restate l f s).lane l).lastStatus = some ((restate l f s).lane l).status := by
  rw [restate_lane]
  rfl

theorem restate_asks {f : Lane → Lane} (hf : ∀ k, (f k).lastStatus = k.lastStatus) (ha : s.anchor ≠ 0)
    (hd : s.dev.state ≠ .halted) (hl : (s.lane l).lastStatus ≠ some ((restate l f s).lane l).status) :
    (⟨.laneStatus l, ((restate l f s).lane l).status.bytes⟩ : WriteReq) ∈ (restate l f s).ntu.writes := by
  have lane := modLane_lane l l f s
  rw [if_pos rfl] at lane
  rw [restate_lane] at hl ⊢
  have asked := askStatus_asks (l := l) (s := modLane l f s) ha hd (by rw [lane, hf]; exact hl)
  rwa [lane] at asked

/-! ### Retirement (R169) -/

/-- The lane with a run of records retired from its window's head. -/
def Lane.retire (k : Lane) (run : List WinRec) : Lane :=
  { k with window := k.window.drop run.length, retireSeq := lastSeq k.retireSeq run }

theorem laneRetire_nil (h : (s.lane l).retirable = []) : laneRetire l s = s := by simp [laneRetire, h]

theorem laneRetire_cons (h : (s.lane l).retirable ≠ []) :
    laneRetire l s = handCauses l (s.lane l).retirable (restate l (·.retire (s.lane l).retirable) s) := by
  unfold laneRetire
  dsimp only
  rw [if_neg (by simpa using h)]
  rfl

/-- The entry noted after a retirement shows the lane's own state, when it is a new one. -/
theorem laneRetire_lastStatus (l : LaneId) (s : State) {e : LaneStatus} (h : ((laneRetire l s).lane l).lastStatus = some e) :
    (s.lane l).lastStatus = some e ∨ e.state = (s.lane l).state := by
  by_cases hr : (s.lane l).retirable = []
  · rw [laneRetire_nil hr] at h
    exact .inl h
  · rw [laneRetire_cons hr, (handCauses_ntuOnly ..).lane, restate_lane] at h
    injection h with h
    exact .inr (h ▸ rfl)

theorem laneRetire_slots (l : LaneId) (s : State) : (laneRetire l s).ntu.slots = s.ntu.slots := by
  by_cases hr : (s.lane l).retirable = []
  · rw [laneRetire_nil hr]
  · rw [laneRetire_cons hr]
    exact (((KeepsRequest.modLane (w := .identity) l _ s).trans (.askStatus (by simp) _)).trans
      (.handCauses (by simp) l _ _)).slots

theorem markNewest_append {r : WinRec} (hr : r.granted = true) {staged : List WinRec} (hs : ∀ q ∈ staged, q.granted = false)
    (older : List WinRec) : markNewest (older ++ r :: staged) = older ++ { r with linkRead := true } :: staged := by
  induction older with
  | nil => simp only [List.nil_append, markNewest]; rw [if_neg (by simpa using hs)]
  | cons q older ih =>
    have behind : (older ++ r :: staged).any WinRec.granted = true := by simp [hr]
    rw [List.cons_append, markNewest, if_pos behind, ih, List.cons_append]

theorem lastSeq_nil (old : Seq) : lastSeq old [] = old := rfl

theorem lastSeq_append (old : Seq) (run : List WinRec) (r : WinRec) : lastSeq old (run ++ [r]) = r.seq := by
  simp [lastSeq]

/-! ### LINK_READ_END (R165) -/

theorem exec_linkReadEnd {a : Addr} (hr : (s.lane l).reading = some (.link a)) (hs : (s.lane l).state ≠ .draining)
    (read : HostResult Addr) : exec (.linkReadEnd l read s.lif.epoch) s = .next (finishEvent (linkRead l a read s)) := by
  change execLinkReadEnd l read s s.lif.epoch = _
  simp only [execLinkReadEnd, awaits_epoch, hr, laneDraining_eq_false hs]
  rfl

theorem linkReadNonZero_lane (l : LaneId) (s : State) :
    (linkReadNonZero l s).lane l = { s.lane l with window := markNewest (s.lane l).window } :=
  (modLane_lane ..).trans (if_pos rfl)

/-- A misaligned link faults the lane after its retirement (R165, log entry 46). -/
theorem linkRead_misaligned {link a : Addr} (h0 : link ≠ 0) (h : link.toNat % 128 ≠ 0) :
    linkRead l a (.data link) s = laneFault l .badLink a (laneRetire l (linkReadNonZero l s)) := by
  simp only [linkRead, if_neg h0, if_pos h]

theorem linkRead_aligned {link a : Addr} (h0 : link ≠ 0) (h : link.toNat % 128 = 0) :
    linkRead l a (.data link) s = followLink l link s := by
  simp only [linkRead, if_neg h0, if_neg (not_not_intro h)]

/-- The lane that a good link leads on, its fetch not yet issued. -/
def Lane.leadOn (k : Lane) (link : Addr) : Lane :=
  { k with window := markNewest k.window, reading := none, target := some link, resume := link }

theorem followLink_eq (l : LaneId) (link : Addr) (s : State) :
    followLink l link s = issueFetch l (laneRetire l (modLane l (·.leadOn link) s)) := by
  rw [followLink, linkReadNonZero, modLane_modLane]
  rfl

/-- A SEEKING lane after a misaligned link: its retirement, then the fault. -/
theorem linkReadEnd_misaligned {link a : Addr} (h0 : link ≠ 0) (h : link.toNat % 128 ≠ 0) (hs : (s.lane l).state = .seeking)
    {window run : List WinRec} (hw : window = markNewest (s.lane l).window)
    (hrun : run = window.takeWhile fun r => r.isFinal && r.linkRead) :
    (((finishEvent (linkRead l a (.data link) s)).lane l).window = window.drop run.length
      ∧ ((finishEvent (linkRead l a (.data link) s)).lane l).retireSeq = lastSeq (s.lane l).retireSeq run)
    ∧ LaneFaulted l .badLink a s (finishEvent (linkRead l a (.data link) s)) := by
  obtain ⟨window_eq, retire_eq, others⟩ := laneRetire_lane l (linkReadNonZero l s)
  have retired : ∀ e : LaneStatus, ((laneRetire l (linkReadNonZero l s)).lane l).lastStatus = some e → e.state = .faulted →
      (s.lane l).lastStatus = some e := fun e he hf => by
    rcases laneRetire_lastStatus l _ he with old | new
    · rwa [linkReadNonZero_lane] at old
    · rw [linkReadNonZero_lane, hf] at new
      exact absurd (new.trans hs) (by decide)
  have only : LanesOnly s (laneRetire l (linkReadNonZero l s)) := (modLane_lanesOnly ..).trans (laneRetire_lanesOnly ..)
  rw [linkRead_misaligned h0 h]
  refine ⟨?_, laneFaulted_of only (laneRetire_slots ..)
    (by rw [others, linkReadNonZero_lane]) (by rw [others, linkReadNonZero_lane]) retired _ _⟩
  rw [finishEvent_laneFault_lane]
  subst hrun hw
  constructor
  · exact window_eq.trans (by rw [Lane.retirable, linkReadNonZero_lane])
  · exact retire_eq.trans (by rw [Lane.retirable, linkReadNonZero_lane])

/-- A SEEKING lane after a good link: its retirement, then its fetch. -/
theorem linkReadEnd_aligned {link a : Addr} (h0 : link ≠ 0) (h : link.toNat % 128 = 0) (hs : (s.lane l).state = .seeking)
    {window run : List WinRec} (hw : window = markNewest (s.lane l).window)
    (hrun : run = window.takeWhile fun r => r.isFinal && r.linkRead) :
    (((finishEvent (linkRead l a (.data link) s)).lane l).window = window.drop run.length
      ∧ ((finishEvent (linkRead l a (.data link) s)).lane l).retireSeq = lastSeq (s.lane l).retireSeq run)
    ∧ ((finishEvent (linkRead l a (.data link) s)).lane l).state = .seeking
    ∧ ((finishEvent (linkRead l a (.data link) s)).lane l).target = some link
    ∧ ((finishEvent (linkRead l a (.data link) s)).lane l).resume = link
    ∧ (s.dev.state = .running → ((finishEvent (linkRead l a (.data link) s)).lane l).reading = some (.fetch link)) := by
  have led : (modLane l (·.leadOn link) s).lane l = (s.lane l).leadOn link := (modLane_lane ..).trans (if_pos rfl)
  have only : LanesOnly s (laneRetire l (modLane l (·.leadOn link) s)) := (modLane_lanesOnly ..).trans (laneRetire_lanesOnly ..)
  obtain ⟨window_eq, retire_eq, others⟩ := laneRetire_lane l (modLane l (·.leadOn link) s)
  rw [led] at window_eq retire_eq others
  rw [linkRead_aligned h0 h, followLink_eq]
  have own := issueFetch_own l (laneRetire l (modLane l (·.leadOn link) s))
  have seeking : ((laneRetire l (modLane l (·.leadOn link) s)).lane l).state = .seeking := by rw [others]; exact hs
  rw [(finishEvent_lane l _).kept (by rw [own]; exact fun e => nomatch seeking.symm.trans e)]
  subst hrun hw
  refine ⟨⟨?_, ?_⟩, ?_, ?_, ?_, fun running => ?_⟩
  · rw [own]; exact window_eq
  · rw [own]; exact retire_eq
  · rw [own]; exact seeking
  · rw [own, others]; rfl
  · rw [own, others]; rfl
  · exact issueFetch_reading seeking (by rw [others]; rfl) (by rw [others]; rfl) (by rw [only.device.dev]; exact running)

/-- Settles O20: the read's ends by the table of R165, and retirement as one change of the lane with the causes after it. -/
theorem linkReadLeadsOnOrParks : Obligations.LinkReadLeadsOnOrParks := by
  refine ⟨fun l a s hr hs => ?reads, fun older r hr staged hs => markNewest_append hr hs older,
    fun old run r => ⟨lastSeq_nil old, lastSeq_append old run r⟩, fun _ _ => rfl, fun _ _ => laneRetire_nil, fun l s h => ?retires⟩
  case reads =>
    have active : (s.lane l).state ≠ .draining := by rw [hs]; decide
    refine ⟨⟨_, exec_linkReadEnd hr active .busError, laneFaulted_self .., ?busError⟩,
      ⟨_, exec_linkReadEnd hr active (.data 0), ?zero⟩,
      fun link h0 window run hw hrun => ⟨_, exec_linkReadEnd hr active (.data link), ?link⟩⟩
    case busError =>
      rw [linkRead, finishEvent_laneFault_lane]
      exact ⟨rfl, rfl⟩
    case zero =>
      obtain ⟨e, lane⟩ := finishEvent_park_lane l (st := .parkedEnd) (fun e => nomatch e) s
      rw [linkRead, if_pos rfl, lane]
      exact ⟨rfl, rfl, rfl, rfl, rfl⟩
    case link =>
      by_cases h : link.toNat % 128 = 0
      · obtain ⟨⟨hwin, hseq⟩, led⟩ := linkReadEnd_aligned (a := a) h0 h hs hw hrun
        exact ⟨hwin, hseq, fun g => absurd h g, fun _ => led⟩
      · obtain ⟨⟨hwin, hseq⟩, faulted⟩ := linkReadEnd_misaligned (a := a) h0 h hs hw hrun
        exact ⟨hwin, hseq, fun _ => faulted, fun g => absurd g h⟩
  case retires =>
    have lane := restate_lane l (·.retire (s.lane l).retirable) s
    have only := restate_lanesOnly l (·.retire (s.lane l).retirable) s
    refine ⟨restate l (·.retire (s.lane l).retirable) s, ?causes, by rw [lane]; rfl, by rw [lane]; rfl, restate_asked ..,
      restate_asks fun _ => rfl, by rw [lane]; rfl, by rw [lane]; rfl, by rw [lane]; rfl, fun k hk => restate_lane_other _ _ _ _ hk,
      restate_route _ _ _, only.device, only.media, only.records⟩
    rw [laneRetire_cons h, handCauses_eq, lane]
    rfl

/-! ### DRAINING lanes (R173, R174, R176) -/

theorem laneDraining_eq_true (h : (s.lane l).state = .draining) : laneDraining l s = true := by
  simpa [laneDraining] using h

theorem exec_configReadEnd_draining (hs : (s.lane l).state = .draining) (hr : (s.lane l).reading = some .config)
    (read : HostResult Bytes) : exec (.configReadEnd l read s.lif.epoch) s = .next (finishEvent (readOver l s)) := by
  change execConfigReadEnd l read s s.lif.epoch = _
  rw [execConfigReadEnd, if_pos ⟨awaits_epoch s, hr⟩, if_pos (laneDraining_eq_true hs)]

theorem exec_fetchEnd_draining {a : Addr} (hs : (s.lane l).state = .draining) (hr : (s.lane l).reading = some (.fetch a))
    (read : HostResult Bytes) : exec (.fetchEnd l read s.lif.epoch) s
      = .next (finishEvent (s.setLane l { s.lane l with reading := none, drainNext := some a })) := by
  change execFetchEnd l read s s.lif.epoch = _
  simp only [execFetchEnd, awaits_epoch, hr, laneDraining_eq_true hs, if_true, readOver, modLane_modLane]
  rfl

theorem exec_linkReadEnd_draining {a : Addr} (hs : (s.lane l).state = .draining) (hr : (s.lane l).reading = some (.link a))
    (read : HostResult Addr) :
    exec (.linkReadEnd l read s.lif.epoch) s = .next (finishEvent (drainedLink l read (readOver l s))) := by
  change execLinkReadEnd l read s s.lif.epoch = _
  simp only [execLinkReadEnd, awaits_epoch, hr, laneDraining_eq_true hs, if_true]

theorem drainedLink_lost {read : HostResult Addr}
    (h : read = .busError ∨ ∃ link, read = .data link ∧ (link = 0 ∨ link.toNat % 128 ≠ 0)) : drainedLink l read s = s := by
  rcases h with rfl | ⟨link, rfl, h⟩
  · rfl
  · rw [drainedLink, if_pos h]

theorem drainedLink_leads {link : Addr} (h0 : link ≠ 0) (h : link.toNat % 128 = 0) :
    drainedLink l (.data link) (readOver l s) = laneRetire l (s.setLane l { s.lane l with
      reading := none, window := markNewest (s.lane l).window, drainNext := some link, resume := link }) := by
  rw [drainedLink, if_neg (not_or.mpr ⟨h0, not_not_intro h⟩), readOver, linkReadNonZero, modLane_modLane, modLane_modLane]
  rfl

/-- The lane OFF with its window retired (R174). -/
def Lane.off (k : Lane) : Lane :=
  { k with
    state := .off, window := [], retireSeq := lastSeq k.retireSeq k.window, resume := k.drainNext.getD 0, drainNext := none,
    target := none }

theorem laneOff_self (h : (s.lane l).state ≠ .draining ∨ (s.lane l).reading ≠ none
    ∨ ∃ r ∈ (s.lane l).window, ∀ fs, r.cond ≠ .final fs) : laneOff l s = s := by
  unfold laneOff
  dsimp only
  rw [if_neg]
  rintro ⟨draining, idle, final⟩
  rcases h with h | h | h
  · exact h draining
  · exact h idle
  · exact Bool.false_ne_true ((Lane.allFinal_eq_false_iff.mpr h).symm.trans final)

theorem laneOff_turns (hs : (s.lane l).state = .draining) (hr : (s.lane l).reading = none)
    (hw : ∀ r ∈ (s.lane l).window, ∃ fs, r.cond = .final fs) :
    laneOff l s = handCauses l (s.lane l).window (restate l Lane.off s) := by
  unfold laneOff
  dsimp only
  rw [if_pos ⟨hs, hr, Lane.allFinal_iff.mpr hw⟩, retireAll, modLane_modLane]
  rfl

theorem laneBusy_iff : laneBusy l s = true ↔ ∃ x, (s.ctx x).state ≠ .free ∧ (s.ctx x).lane = l := by
  have mem : ∀ x : CtxId, x ∈ eight := by decide
  simp [laneBusy, mem]

/-- The lane OFF in HALTED, where no record is retired (R176). -/
def Lane.haltedOff (k : Lane) : Lane :=
  { k with
    state := .off, window := [], resume := (match k.window with | r :: _ => r.addr | [] => k.drainNext.getD 0), drainNext := none,
    target := none }

theorem laneHaltedOff_self (h : (s.lane l).state ≠ .draining ∨ ∃ x, (s.ctx x).state ≠ .free ∧ (s.ctx x).lane = l) :
    laneHaltedOff l s = s := by
  unfold laneHaltedOff
  dsimp only
  rw [if_neg]
  rintro ⟨draining, idle⟩
  exact h.elim (absurd draining) fun busy => Bool.false_ne_true (idle.symm.trans (laneBusy_iff.mpr busy))

theorem laneHaltedOff_turns (hs : (s.lane l).state = .draining) (hx : ∀ x, (s.ctx x).state ≠ .free → (s.ctx x).lane ≠ l) :
    laneHaltedOff l s = s.setLane l (s.lane l).haltedOff := by
  have idle : laneBusy l s = false := by
    rw [← Bool.not_eq_true, laneBusy_iff]
    exact fun ⟨x, active, own⟩ => hx x active own
  unfold laneHaltedOff
  dsimp only
  rw [if_pos ⟨hs, idle⟩]
  rfl

/-- A lane's own turn OFF depends on that lane alone. -/
theorem laneOff_own_congr (h : t.lane l = s.lane l) : (laneOff l t).lane l = (laneOff l s).lane l := by
  unfold laneOff
  dsimp only
  rw [h]
  split
  · simp only [(handCauses_ntuOnly ..).lane, askStatus_lane, modLane_lane, retireAll, h, if_true]
  · exact h

theorem laneHaltedOff_own_congr (only : LanesOnly s t) (h : t.lane l = s.lane l) :
    (laneHaltedOff l t).lane l = (laneHaltedOff l s).lane l := by
  have busy : laneBusy l t = laneBusy l s := by simp only [laneBusy, State.ctx, only.records.ctxs]
  unfold laneHaltedOff
  dsimp only
  rw [h, busy]
  split
  · rw [modLane_lane, if_pos rfl, modLane_lane, if_pos rfl, h]
  · exact h

theorem settleLane_own_congr (only : LanesOnly s t) (h : t.lane l = s.lane l) :
    (settleLane l t).lane l = (settleLane l s).lane l := by
  unfold settleLane State.halted
  rw [only.device.dev]
  split
  · split
    · exact laneHaltedOff_own_congr only h
    · exact h
  · exact laneOff_own_congr h

/-- Each lane after the test of all four is what its own test makes of it. -/
theorem settleLanes_lane_eq (l : LaneId) (s : State) : (settleLanes s).lane l = (settleLane l s).lane l := by
  obtain ⟨u, only, same, own⟩ :=
    (forEach_lane .refl .trans settleLane_lanesOnly settleLane_lane_other four four_nodup s).2 l (mem_four l)
  rw [settleLanes_eq, own, settleLane_own_congr only same]

theorem stoppedCheck_lane (l : LaneId) (s : State) : (stoppedCheck s).lane l = s.lane l := by
  unfold stoppedCheck
  split <;> rfl

theorem resetEndCheck_lane (l : LaneId) (s : State) : (resetEndCheck s).lane l = s.lane l := by
  unfold resetEndCheck
  split <;> rfl

theorem finishEvent_lane_eq (l : LaneId) (s : State) : (finishEvent s).lane l = (settleLane l s).lane l := by
  rw [finishEvent, resetEndCheck_lane, stoppedCheck_lane, settleLanes_lane_eq]

/-- Settles O21: the ends of a DRAINING lane's reads, and the test by which it turns OFF. -/
theorem drainingReadsAreInformationOnly : Obligations.DrainingReadsAreInformationOnly := by
  refine ⟨fun l s hs => ⟨fun read hr => exec_configReadEnd_draining hs hr read, fun read a hr => exec_fetchEnd_draining hs hr read,
      fun read a hr => ⟨fun lost => ?lost, fun link e h0 h => ?leads⟩⟩,
    fun l s => ?settled, fun l s => ⟨laneOff_self, fun hs hr hw => ?off⟩,
    fun l s => ⟨laneHaltedOff_self, laneHaltedOff_turns⟩⟩
  case lost =>
    rw [exec_linkReadEnd_draining hs hr, drainedLink_lost lost]
    rfl
  case leads =>
    rw [exec_linkReadEnd_draining hs hr, e, drainedLink_leads h0 h]
  case settled =>
    rw [finishEvent_lane_eq, settleLane]
    simp only [State.halted, beq_iff_eq]
    split
    · split <;> rfl
    · rfl
  case off =>
    have lane := restate_lane l Lane.off s
    have only := restate_lanesOnly l Lane.off s
    refine ⟨restate l Lane.off s, ?causes, by rw [lane]; rfl, restate_asks fun _ => rfl,
      fun k hk => restate_lane_other _ _ _ _ hk, restate_route _ _ _, only.device, only.media, only.records, restate_out ..⟩
    rw [laneOff_turns hs hr hw, handCauses_eq, lane]
    rfl

end Sys2Proof.Machine
end
section
/-! O15, START on the lanes of a mask (R159). -/

namespace Sys2Proof.Machine

variable {s t u : State} {l k : LaneId}

/-! ### One lane's START -/

/-- A START finds the lane OFF, or FAULTED with all its records final, and starts it (R159). -/
def Lane.startable (k : Lane) : Prop := k.state = .off ∨ (k.state = .faulted ∧ k.allFinal = true)

/-- The lane SEEKING with its configuration entry being read and its fault record cleared. -/
def Lane.started (k : Lane) : Lane := { k with state := .seeking, reading := some .config, fault := .none, faultAddr := 0 }

/-- The lane with one signal more refused. -/
def Lane.refuse (k : Lane) : Lane := { k with refused := k.refused + 1 }

theorem lastSeq_eq (old : Seq) (run : List WinRec) : lastSeq old run = (run.getLast?.map WinRec.seq).getD old := by
  unfold lastSeq
  cases run.getLast? <;> rfl

theorem retireAtStart_nil (h : (s.lane l).window = []) : retireAtStart l s = s := by simp [retireAtStart, h]

theorem retireAtStart_cons (h : (s.lane l).window ≠ []) :
    retireAtStart l s = handCauses l (s.lane l).window (restate l retiredLane s) := by
  unfold retireAtStart
  dsimp only
  rw [if_neg (by simpa using h), retireAll]
  simp only [lastSeq_eq]
  rfl

theorem retireAtStart_lane (l : LaneId) (s : State) : (retireAtStart l s).lane l = { retiredLane (s.lane l) with
    lastStatus := if (s.lane l).window = [] then (s.lane l).lastStatus else some (retiredLane (s.lane l)).status } := by
  by_cases h : (s.lane l).window = []
  · have same : retiredLane (s.lane l) = s.lane l := by
      rw [retiredLane, h]
      exact congrArg (fun w => { s.lane l with window := w }) h.symm
    rw [retireAtStart_nil h, if_pos h, same]
  · rw [retireAtStart_cons h, (handCauses_ntuOnly ..).lane, restate_lane, if_neg h]

theorem startFromOff_lane (l : LaneId) (s : State) : (startFromOff l s).lane l = (s.lane l).started := by
  rw [startFromOff, emit_lane, modLane_lane, if_pos rfl]
  rfl

theorem startFromOff_out (l : LaneId) (s : State) :
    (startFromOff l s).out = s.out ++ [.hostRead (s.anchor + BitVec.ofNat 64 (64 + 64 * l.val)) 64] := rfl

theorem laneStart_off (h : (s.lane l).state = .off) : laneStart l s = startFromOff l s := by
  simp only [laneStart, h]

theorem laneStart_faulted (h : (s.lane l).state = .faulted) (g : (s.lane l).allFinal = true) :
    laneStart l s = startFromOff l (retireAtStart l s) := by
  simp only [laneStart, h, g, if_true]

theorem laneStart_refuses (h : ¬ (s.lane l).startable) : laneStart l s = refuseSignal l s := by
  unfold laneStart
  split
  · next off => exact absurd (.inl off) h
  · next faulted => exact if_neg fun final => h (.inr ⟨faulted, final⟩)
  · rfl

theorem refuseSignal_full (h : 65535 ≤ (s.lane l).refused) : refuseSignal l s = s := if_neg (Nat.not_lt.mpr h)

theorem refuseSignal_counts (h : (s.lane l).refused < 65535) : refuseSignal l s = restate l Lane.refuse s := if_pos h

theorem retireAtStart_out (l : LaneId) (s : State) : (retireAtStart l s).out = s.out := by
  by_cases h : (s.lane l).window = []
  · rw [retireAtStart_nil h]
  · rw [retireAtStart_cons h, (handCauses_ntuOnly ..).out, restate_out]

theorem refuseSignal_out (l : LaneId) (s : State) : (refuseSignal l s).out = s.out := by
  unfold refuseSignal
  split
  · exact askStatus_out ..
  · rfl

theorem laneStart_out_startable (h : (s.lane l).startable) :
    (laneStart l s).out = s.out ++ [.hostRead (s.anchor + BitVec.ofNat 64 (64 + 64 * l.val)) 64] := by
  rcases h with off | ⟨faulted, final⟩
  · rw [laneStart_off off, startFromOff_out]
  · rw [laneStart_faulted faulted final, startFromOff_out, retireAtStart_out, (retireAtStart_lanesOnly l s).device.anchor]

theorem retireAtStart_requests (h : k ≠ l) (s : State) : KeepsRequest (.laneStatus k) s (retireAtStart l s) := by
  by_cases hw : (s.lane l).window = []
  · rw [retireAtStart_nil hw]
    exact .refl _ s
  · rw [retireAtStart_cons hw]
    exact ((KeepsRequest.modLane l _ s).trans (.askStatus (by simpa using h) _)).trans (.handCauses (by simp) l _ _)

theorem laneStart_requests (h : k ≠ l) (s : State) : KeepsRequest (.laneStatus k) s (laneStart l s) := by
  have started : ∀ t, KeepsRequest (.laneStatus k) t (startFromOff l t) := fun t => .of_ntu rfl
  by_cases hs : (s.lane l).startable
  · rcases hs with off | ⟨faulted, final⟩
    · rw [laneStart_off off]
      exact started s
    · rw [laneStart_faulted faulted final]
      exact (retireAtStart_requests h s).trans (started _)
  · rw [laneStart_refuses hs, refuseSignal]
    split
    · exact (KeepsRequest.modLane l _ s).trans (.askStatus (by simpa using h) _)
    · exact .refl _ s

/-! ### The notification unit beside the lanes -/

namespace SameNotice

variable (h : SameNotice u t)
include h

theorem lanes {v : State} (only : LanesOnly t v) (ntu : v.ntu = t.ntu) : SameNotice u v :=
  ⟨h.device.trans only.device, ntu.trans h.ntu⟩

theorem modLane (l : LaneId) (f : Lane → Lane) : SameNotice u (modLane l f t) := h.lanes (modLane_lanesOnly l f t) rfl

theorem startFromOff (l : LaneId) : SameNotice u (startFromOff l t) := h.lanes (startFromOff_lanesOnly l t) rfl

theorem causes (l : LaneId) (run : List WinRec) :
    SameNotice (forEach (run.filter WinRec.notify) (fun _ => Machine.routeCause (t.lane l).cfg.notify) u) (handCauses l run t) := by
  rw [handCauses_eq]
  generalize (t.lane l).cfg.notify = route, run.filter WinRec.notify = rs
  induction rs generalizing u t with
  | nil => exact h
  | cons r rs ih => exact ih (h.routeCause route)

/-- The status entry of a changed lane, asked for when it differs from the one asked for last, and nothing else. -/
theorem restate (l : LaneId) (f : Lane → Lane) :
    SameNotice (if (f (t.lane l)).lastStatus = some (f (t.lane l)).status then u
      else Machine.askWrite (.laneStatus l) (f (t.lane l)).status.bytes u) (restate l f t) := by
  have lane := modLane_lane l l f t
  rw [if_pos rfl] at lane
  unfold Machine.restate askStatus
  rw [lane]
  exact .ite Iff.rfl (h.modLane l f) (((h.modLane l f).modLane l _).askWrite _ _)

theorem statusThenCauses (l : LaneId) (f : Lane → Lane) (run : List WinRec) :
    SameNotice (statusThenCauses l (f (t.lane l)).lastStatus (f (t.lane l)).status run (f (t.lane l)).cfg.notify u)
      (handCauses l run (Machine.restate l f t)) := by
  have causes := (h.restate l f).causes l run
  rw [restate_lane] at causes
  exact causes

end SameNotice

/-- Two loops over the lanes, the first one's steps matching the second's as to the notification unit. -/
theorem forEach_sameNotice {f g : LaneId → State → State} (only : ∀ l t, LanesOnly t (f l t))
    (others : ∀ l k t, k ≠ l → (f l t).lane k = t.lane k)
    (own : ∀ l t u, LanesOnly s t → t.lane l = s.lane l → SameNotice u t → SameNotice (g l u) (f l t)) (xs : List LaneId)
    (hn : xs.Nodup) : SameNotice (forEach xs g s) (forEach xs f s) := by
  suffices h : ∀ t u, LanesOnly s t → (∀ l ∈ xs, t.lane l = s.lane l) → SameNotice u t →
      SameNotice (forEach xs g u) (forEach xs f t) from h s s (.refl s) (fun _ _ => rfl) ⟨.refl s, rfl⟩
  induction xs with
  | nil => exact fun _ _ _ _ h => h
  | cons a xs ih =>
    obtain ⟨ha, hn⟩ := List.nodup_cons.mp hn
    intro t u ht lanes h
    exact ih hn (f a t) (g a u) (ht.trans (only a t))
      (fun l hl => (others a l t fun e => ha (e ▸ hl)).trans (lanes l (List.mem_cons_of_mem a hl)))
      (own a t u ht (lanes a List.mem_cons_self) h)

theorem KeepsRequest.eachOf {β : Type} {w : WriteTarget} {f : β → State → State} {xs : List β}
    (hf : ∀ b ∈ xs, ∀ t, KeepsRequest w t (f b t)) : KeepsRequest w s (forEach xs f s) := by
  induction xs generalizing s with
  | nil => exact .refl w s
  | cons b xs ih =>
    exact (hf b List.mem_cons_self s).trans (ih fun c hc => hf c (List.mem_cons_of_mem b hc))

/-- What a lane's own turn in a loop has placed for it is still there at the loop's end. -/
theorem forEach_requests {f : LaneId → State → State} (only : ∀ l t, LanesOnly t (f l t))
    (others : ∀ l k t, k ≠ l → (f l t).lane k = t.lane k)
    (keeps : ∀ l k t, k ≠ l → KeepsRequest (.laneStatus k) t (f l t)) (xs : List LaneId) (hn : xs.Nodup) (s : State) :
    ∀ l ∈ xs, ∃ u, LanesOnly s u ∧ u.lane l = s.lane l ∧ KeepsRequest (.laneStatus l) (f l u) (forEach xs f s) := by
  induction xs generalizing s with
  | nil => exact fun l h => absurd h List.not_mem_nil
  | cons a xs ih =>
    obtain ⟨ha, hn⟩ := List.nodup_cons.mp hn
    intro l hl
    rcases List.mem_cons.mp hl with rfl | hl
    · exact ⟨s, .refl s, rfl, .eachOf fun b hb t => keeps b l t fun e => ha (e ▸ hb)⟩
    · obtain ⟨u, hu, lane, kept⟩ := ih hn (f a s) l hl
      exact ⟨u, (only a s).trans hu, lane.trans (others a l s fun e => ha (e ▸ hl)), kept⟩

/-! ### START on a mask -/

/-- What START does to one lane of a device that takes it. -/
def startAt (mask : BitVec 4) (l : LaneId) (s : State) : State := if mask.getLsbD l.val then laneStart l s else s

theorem exec_start_ignored (h : startsTaken s = false) (mask : BitVec 4) : exec (.start mask) s = .next s := by
  change execStart mask s = _
  rw [execStart, h]
  rfl

theorem exec_start (h : startsTaken s = true) (mask : BitVec 4) : exec (.start mask) s = .next (forEach four (startAt mask) s) := by
  change execStart mask s = _
  rw [execStart, if_pos h, forEach_maskLanes]
  rfl

theorem startsTaken_live (h : startsTaken s = true) : s.anchor ≠ 0 ∧ s.dev.state ≠ .halted := by
  simp only [startsTaken, Bool.and_eq_true, bne_iff_ne, Bool.or_eq_true, beq_iff_eq] at h
  obtain ⟨⟨anchor, -⟩, state⟩ := h
  refine ⟨anchor, fun halted => ?_⟩
  rw [halted] at state
  exact absurd state (by decide)

theorem startAt_lanesOnly (mask : BitVec 4) (l : LaneId) (s : State) : LanesOnly s (startAt mask l s) := by
  unfold startAt
  split
  · exact laneStart_lanesOnly l s
  · exact .refl s

theorem startAt_lane_other (mask : BitVec 4) (l k : LaneId) (s : State) (h : k ≠ l) : (startAt mask l s).lane k = s.lane k := by
  unfold startAt
  split
  · exact laneStart_lane_other l k s h
  · rfl

theorem startAt_requests (mask : BitVec 4) (l k : LaneId) (s : State) (h : k ≠ l) :
    KeepsRequest (.laneStatus k) s (startAt mask l s) := by
  unfold startAt
  split
  · exact laneStart_requests h s
  · exact .refl _ s

theorem startAt_masked {mask : BitVec 4} (h : mask.getLsbD l.val = true) : startAt mask l s = laneStart l s := if_pos h

theorem startAt_unmasked {mask : BitVec 4} (h : mask.getLsbD l.val = false) : startAt mask l s = s :=
  if_neg (by rw [h]; exact Bool.false_ne_true)

/-- The notification unit's part of one lane's START, in the statement's words. -/
theorem startAt_notice {mask : BitVec 4} {proceeds : Bool} {q : Lane}
    (hp : proceeds = true ↔ mask.getLsbD l.val = true ∧ q.startable) (lane : t.lane l = q) (h : SameNotice u t) :
    SameNotice (if proceeds then
        if q.state = .off ∨ q.window = [] then u
        else statusThenCauses l q.lastStatus (retiredLane q).status q.window q.cfg.notify u
      else if mask.getLsbD l.val && decide (q.refused < 65535) then
        statusThenCauses l q.lastStatus { q with refused := q.refused + 1 }.status [] .none u
      else u) (startAt mask l t) := by
  subst lane
  by_cases hm : mask.getLsbD l.val = true
  case neg =>
    rw [startAt_unmasked (by simpa using hm), if_neg fun p => hm (hp.mp p).1, if_neg fun p => hm (Bool.and_eq_true_iff.mp p).1]
    exact h
  rw [startAt_masked hm]
  by_cases hs : (t.lane l).startable
  · rw [if_pos (hp.mpr ⟨hm, hs⟩)]
    by_cases off : (t.lane l).state = .off
    · rw [if_pos (.inl off), laneStart_off off]
      exact h.startFromOff l
    · obtain ⟨faulted, final⟩ := hs.resolve_left off
      rw [laneStart_faulted faulted final]
      by_cases hw : (t.lane l).window = []
      · rw [if_pos (.inr hw), retireAtStart_nil hw]
        exact h.startFromOff l
      · rw [if_neg (not_or.mpr ⟨off, hw⟩), retireAtStart_cons hw]
        exact (h.statusThenCauses l retiredLane _).startFromOff l
  · rw [if_neg fun p => hs (hp.mp p).2, laneStart_refuses hs]
    by_cases hr : (t.lane l).refused < 65535
    · rw [if_pos (by simp only [hm, hr]; decide), refuseSignal_counts hr]
      exact h.statusThenCauses l Lane.refuse []
    · rw [if_neg (by simp only [hr]; simp), refuseSignal_full (Nat.not_lt.mp hr)]
      exact h

/-- Settles O15: the lanes one by one in states that keep the lanes to come (`forEach_lane`), reads, status entries and causes by
the loops' own order. -/
theorem startSignalsTheLanes : Obligations.StartSignalsTheLanes := by
  refine fun mask s => ⟨fun h => exec_start_ignored h mask, fun taken proceeds hp => ⟨_, exec_start taken mask, ?_⟩⟩
  obtain ⟨anchor, live⟩ := startsTaken_live taken
  have only := LanesOnly.each (startAt_lanesOnly mask) four s
  have each : ∀ l, ∃ u, LanesOnly s u ∧ u.lane l = s.lane l ∧ (forEach four (startAt mask) s).lane l = (startAt mask l u).lane l :=
    fun l => (forEach_lane .refl .trans (startAt_lanesOnly mask) (startAt_lane_other mask) four four_nodup s).2 l (mem_four l)
  have refuses : ∀ l u, mask.getLsbD l.val = true → u.lane l = s.lane l → (s.lane l).state ≠ .off →
      ¬ ((s.lane l).state = .faulted ∧ (s.lane l).allFinal = true) → startAt mask l u = refuseSignal l u :=
    fun l u hm same off faulted => by
      rw [startAt_masked hm, laneStart_refuses (by rw [same]; exact not_or.mpr ⟨off, faulted⟩)]
  refine ⟨fun l h => ?unmasked, fun l hm hs => ?starts, ?out, ?ntu, fun l hm off faulted => ⟨fun hr => ?full, fun hr => ?counts⟩,
    fun h => ?same, only.device, only.media, only.records⟩
  case unmasked =>
    obtain ⟨u, -, same, own⟩ := each l
    rw [own, startAt_unmasked h, same]
  case starts =>
    obtain ⟨u, -, same, own⟩ := each l
    rw [own, startAt_masked hm]
    rcases hs with off | ⟨faulted, final⟩
    · rw [laneStart_off (by rw [same, off]), startFromOff_lane, same]
      exact ⟨rfl, rfl, rfl, rfl, rfl, fun _ => rfl, fun f => absurd (off.symm.trans f) (by decide)⟩
    · rw [laneStart_faulted (by rw [same, faulted]) (by rw [same, final]), startFromOff_lane, retireAtStart_lane, same]
      exact ⟨rfl, rfl, rfl, rfl, rfl, fun o => absurd (faulted.symm.trans o) (by decide), fun _ => ⟨rfl, rfl⟩⟩
  case out =>
    refine forEach_lanes_out (holds := LanesOnly s) (.refl s) (fun l t h => h.trans (startAt_lanesOnly mask l t))
      (startAt_lane_other mask) (fun l t ht same => ?_) four four_nodup
    by_cases hl : proceeds l = true
    · obtain ⟨hm, hs⟩ := (hp l).mp hl
      rw [if_pos hl, startAt_masked hm, laneStart_out_startable (by rw [same]; exact hs), ht.device.anchor]
    · rw [if_neg hl, List.append_nil]
      by_cases hm : mask.getLsbD l.val = true
      · rw [startAt_masked hm, laneStart_refuses (by rw [same]; exact fun hs => hl ((hp l).mpr ⟨hm, hs⟩)), refuseSignal_out]
      · rw [startAt_unmasked (by simpa using hm)]
  case ntu =>
    exact (forEach_sameNotice (startAt_lanesOnly mask) (startAt_lane_other mask)
      (fun l _ _ _ same h => startAt_notice (hp l) same h) four four_nodup).ntu
  case full =>
    obtain ⟨u, -, same, own⟩ := each l
    rw [own, refuses l u hm same off faulted, refuseSignal_full (by rw [same]; exact hr), same]
  case counts =>
    obtain ⟨u, -, same, own⟩ := each l
    have counted : (forEach four (startAt mask) s).lane l
        = { (s.lane l).refuse with lastStatus := some (s.lane l).refuse.status } := by
      rw [own, refuses l u hm same off faulted, refuseSignal_counts (by rw [same]; exact hr), restate_lane, same]
    refine ⟨by rw [counted]; rfl, fun asks => ?_⟩
    obtain ⟨v, only, same, kept⟩ :=
      forEach_requests (startAt_lanesOnly mask) (startAt_lane_other mask) (startAt_requests mask) four four_nodup s l (mem_four l)
    have status : ((restate l Lane.refuse v).lane l).status = ((forEach four (startAt mask) s).lane l).status := by
      rw [restate_lane, counted, same]
    refine kept.requests _ ?_
    rw [refuses l v hm same off faulted, refuseSignal_counts (by rw [same]; exact hr), ← status]
    exact restate_asks (fun _ => rfl) (by rw [only.device.anchor]; exact anchor) (by rw [only.device.dev]; exact live)
      (by rw [same, status]; exact asks)
  case same =>
    refine forEach_self fun l _ => ?_
    by_cases hm : mask.getLsbD l.val = true
    · obtain ⟨off, faulted, full⟩ := h l hm
      rw [refuses l s hm rfl off faulted, refuseSignal_full full]
    · exact startAt_unmasked (by simpa using hm)

end Sys2Proof.Machine
end
section
/-! An ABORT at the contexts (R67): what each becomes, which held steps leave the locks' lists, and that nothing else of the
records or the media changes. -/

namespace Sys2Proof.Machine

variable {s t u : State} {x y : CtxId} {c : Context} {p q : CtxId → Bool}

/-! ### One context -/

/-- The record's steps are being issued or drained. -/
def Context.stepping (c : Context) : Bool := c.state == .issuing || c.state == .drainingSteps

/-- The context with the mark set and its held steps withdrawn. -/
def Context.abortSteps (c : Context) : Context := { c.dropBlocks BlockPhase.isHeld with abortMark := true }

/-- The context after an abort, at tick `tick` and generation `gen` (R67). -/
def Context.aborted (c : Context) (gen : Nat) (tick : Tick) : Context :=
  if c.stepping then
    if c.abortSteps.restState = .finishing then c.abortSteps.finished gen tick
    else { c.abortSteps with state := c.abortSteps.restState }
  else if c.state = .loading then { c with abortMark := true } else c

theorem Context.stepping_iff : c.stepping = true ↔ c.state = .issuing ∨ c.state = .drainingSteps := by
  simp [Context.stepping]

theorem endBlocks_eq (js : List Nat) (c : Context) :
    ∃ bs us, js.foldl Context.endBlock c = { c with blocks := bs, bufs := us } := by
  induction js generalizing c with
  | nil => exact ⟨c.blocks, c.bufs, rfl⟩
  | cons j js ih =>
    obtain ⟨bs, us, e⟩ := ih (c.endBlock j)
    exact ⟨bs, us, e⟩

/-- The steps' withdrawal changes block table and buffers, and the mark. -/
theorem Context.abortSteps_eq (c : Context) : ∃ bs us, c.abortSteps = { c with abortMark := true, blocks := bs, bufs := us } := by
  obtain ⟨bs, us, e⟩ := endBlocks_eq ((c.blocks.filter fun b => b.phase.isHeld).map BlockEntry.j) c
  refine ⟨bs, us, ?_⟩
  rw [Context.abortSteps, Context.dropBlocks, e]

theorem Context.aborted_lane (c : Context) (gen : Nat) (tick : Tick) : (c.aborted gen tick).lane = c.lane := by
  obtain ⟨bs, us, e⟩ := c.abortSteps_eq
  unfold Context.aborted
  rw [e]
  (repeat' split) <;> rfl

theorem Context.aborted_other (h : c.state = .free ∨ c.state = .commitWait ∨ c.state = .finishing) (gen : Nat) (tick : Tick) :
    c.aborted gen tick = c := by
  unfold Context.aborted Context.stepping
  rcases h with h | h | h <;> rw [h] <;> rfl

theorem Context.aborted_loading (h : c.state = .loading) (gen : Nat) (tick : Tick) :
    c.aborted gen tick = { c with abortMark := true } := by
  unfold Context.aborted Context.stepping
  rw [h]
  rfl

theorem Context.aborted_stepping (h : c.stepping = true) (gen : Nat) (tick : Tick) : c.aborted gen tick
    = if c.abortSteps.restState = .finishing then c.abortSteps.finished gen tick
      else { c.abortSteps with state := c.abortSteps.restState } := if_pos h

/-- A stepping context with the mark set settles at once: ISSUING takes no further step into issue (R54). -/
theorem Context.abortSteps_settles (h : c.stepping = true) : c.abortSteps.settles := by
  obtain ⟨bs, us, e⟩ := c.abortSteps_eq
  rw [e]
  rcases Context.stepping_iff.mp h with h | h
  · exact .inl ⟨h, by simp [Context.issueOver]⟩
  · exact .inr (.inl h)

theorem ctxAbort_eq (hh : s.dev.state ≠ .halted) (x : CtxId) :
    ctxAbort x s = (if (s.ctx x).stepping then forgetHeld x s else s).setCtx x ((s.ctx x).aborted s.cme.gen s.tick) := by
  have stays : (s.ctx x).state = .free ∨ (s.ctx x).state = .commitWait ∨ (s.ctx x).state = .finishing →
      s = (if (s.ctx x).stepping then forgetHeld x s else s).setCtx x ((s.ctx x).aborted s.cme.gen s.tick) := fun h => by
    rw [Context.aborted_other h, if_neg (by rw [Context.stepping_iff]; rcases h with h | h | h <;> rw [h] <;> decide), setCtx_self]
  have steps : (s.ctx x).stepping = true →
      ctxSettle x ((withdrawHeld x s).setCtx x { (withdrawHeld x s).ctx x with abortMark := true })
        = (if (s.ctx x).stepping then forgetHeld x s else s).setCtx x ((s.ctx x).aborted s.cme.gen s.tick) := fun h => by
    have marked : (withdrawHeld x s).setCtx x { (withdrawHeld x s).ctx x with abortMark := true }
        = (forgetHeld x s).setCtx x (s.ctx x).abortSteps := by
      simp only [withdrawHeld, ctx_setCtx_same, setCtx_setCtx]
      rfl
    have own := ctx_setCtx_same (forgetHeld x s) x (s.ctx x).abortSteps
    have settle := ctxSettle_settles (s := (forgetHeld x s).setCtx x (s.ctx x).abortSteps) (x := x) hh
      (by rw [own]; exact Context.abortSteps_settles h)
    rw [if_pos h, marked, settle, Context.aborted_stepping h, own]
    split
    · rw [enterFinishing]
      simp only [own, setCtx_setCtx]
      rfl
    · rw [setCtx_setCtx]
  unfold ctxAbort
  split
  · next h => exact stays (.inl h)
  · next h => exact stays (.inr (.inl h))
  · next h => exact stays (.inr (.inr h))
  · next h =>
    rw [Context.aborted_loading h, if_neg (by rw [Context.stepping_iff, h]; decide)]
  · next h => exact steps (Context.stepping_iff.mpr (.inl h))
  · next h => exact steps (Context.stepping_iff.mpr (.inr h))

/-! ### Several contexts -/

/-- The channel with the held steps of the contexts `gone` off its locks' lists (R89). -/
def Channel.forget (c : Channel) (gone : CtxId → Bool) : Channel :=
  { c with locks := c.locks.map fun k => { k with held := k.held.filter fun h => !gone h.1 } }

theorem Channel.forget_none (c : Channel) : c.forget (fun _ => false) = c := by simp [Channel.forget]

theorem Channel.forget_forget (c : Channel) (p q : CtxId → Bool) : (c.forget p).forget q = c.forget fun x => p x || q x := by
  simp only [Channel.forget, List.map_map]
  congr 2
  funext k
  simp only [Function.comp_apply, List.filter_filter]
  congr 2
  funext h
  rw [Bool.not_or, Bool.and_comm]

/-- `t` is `s` but for lanes, notification unit, links, contexts and channels. -/
def AbortOnly (s t : State) : Prop := ∃ ls n o cs ch, t = { s with lanes := ls, ntu := n, out := o, ctxs := cs, chans := ch }

theorem AbortOnly.trans (h : AbortOnly s t) (g : AbortOnly t u) : AbortOnly s u := by
  obtain ⟨_, _, _, _, _, rfl⟩ := h
  obtain ⟨_, _, _, _, _, rfl⟩ := g
  exact ⟨_, _, _, _, _, rfl⟩

theorem LanesOnly.abortOnly (h : LanesOnly s t) : AbortOnly s t := by
  obtain ⟨_, _, _, rfl⟩ := h
  exact ⟨_, _, _, _, _, rfl⟩

theorem AbortOnly.device (h : AbortOnly s t) : SameDevice s t := by
  obtain ⟨_, _, _, _, _, rfl⟩ := h
  exact ⟨rfl, rfl, rfl, rfl, rfl, rfl, rfl, rfl, rfl, rfl, rfl⟩

theorem AbortOnly.cme (h : AbortOnly s t) : t.cme = s.cme := by
  obtain ⟨_, _, _, _, _, rfl⟩ := h
  rfl

/-- From `s` to `t` the contexts that `p` names have taken an abort and their held steps have left the locks' lists; besides,
lanes, notification unit and links may have changed. -/
structure Aborts (p : CtxId → Bool) (s t : State) : Prop where
  only : AbortOnly s t
  ctx : ∀ x, t.ctx x = if p x then (s.ctx x).aborted s.cme.gen s.tick else s.ctx x
  chan : ∀ v, t.chan v = (s.chan v).forget fun x => p x && (s.ctx x).stepping

namespace Aborts

theorem of_lanes (h : LanesOnly s t) : Aborts (fun _ => false) s t :=
  ⟨h.abortOnly, fun x => congrArg (fun cs => cs[x]) h.records.ctxs,
    fun v => (congrArg (fun cs => cs[v]) h.media.chans).trans (Channel.forget_none _).symm⟩

theorem congr (h : Aborts p s t) (e : ∀ x, p x = q x) : Aborts q s t := by
  rwa [← show p = q from funext e]

/-- The lane a context works for stays. -/
theorem lane (h : Aborts p s t) (x : CtxId) : (t.ctx x).lane = (s.ctx x).lane := by
  rw [h.ctx]
  split
  · exact Context.aborted_lane ..
  · rfl

theorem trans (h : Aborts p s t) (g : Aborts q t u) (disjoint : ∀ x, p x = true → q x = false) :
    Aborts (fun x => p x || q x) s u where
  only := h.only.trans g.only
  ctx := fun x => by
    have own := h.ctx x
    rw [g.ctx, h.only.cme, h.only.device.tick]
    cases hp : p x with
    | true => rw [disjoint x hp, own, hp]; rfl
    | false => rw [own, hp]; rfl
  chan := fun v => by
    rw [g.chan, h.chan, Channel.forget_forget]
    refine congrArg _ (funext fun x => ?_)
    have own := h.ctx x
    cases hp : p x with
    | true => rw [disjoint x hp]; simp
    | false => rw [own, hp]; rfl

theorem ctxAbort (hh : s.dev.state ≠ .halted) (x : CtxId) : Aborts (fun y => y == x) s (ctxAbort x s) := by
  rw [ctxAbort_eq hh]
  refine ⟨?_, fun y => ?_, fun v => ?_⟩
  · split
    · exact ⟨_, _, _, _, _, rfl⟩
    · exact ⟨_, _, _, _, _, rfl⟩
  · by_cases e : y = x
    · subst e
      rw [ctx_setCtx_same, if_pos (beq_self_eq_true y)]
    · rw [ctx_setCtx_other _ _ _ _ e, if_neg (c := (y == x) = true) (by simpa using e)]
      split <;> rfl
  · rw [setCtx_chan]
    split
    · next h =>
      have forgotten : (forgetHeld x s).chan v = (s.chan v).forget fun y => y == x := forgetHeld_chan x s v
      refine forgotten.trans (congrArg _ (funext fun y => ?_))
      by_cases e : y = x
      · simpa [e] using h
      · simp [e]
    · next h =>
      refine (Channel.forget_none _).symm.trans (congrArg _ (funext fun y => ?_))
      by_cases e : y = x
      · simpa [e] using h
      · simp [e]

/-- The abort of a lane reaches each context that works for it. -/
theorem abortContexts (hh : s.dev.state ≠ .halted) (l : LaneId) : Aborts (fun x => (s.ctx x).lane == l) s (abortContexts l s) := by
  suffices h : ∀ xs : List CtxId, xs.Nodup → ∀ s : State, s.dev.state ≠ .halted →
      Aborts (fun x => decide (x ∈ xs) && (s.ctx x).lane == l) s
        (forEach xs (fun x t => if (t.ctx x).lane = l then Machine.ctxAbort x t else t) s) from
    (h eight (by decide) s hh).congr fun x => by rw [decide_eq_true (by revert x; decide : x ∈ eight)]; rfl
  intro xs
  induction xs with
  | nil => exact fun _ s _ => of_lanes (.refl s)
  | cons a xs ih =>
    intro hn s hh
    obtain ⟨ha, hn⟩ := List.nodup_cons.mp hn
    have first : Aborts (fun x => x == a && (s.ctx x).lane == l) s (if (s.ctx a).lane = l then Machine.ctxAbort a s else s) := by
      split
      · next e => exact (ctxAbort hh a).congr fun x => by by_cases h : x = a <;> simp [h, e]
      · next e => exact (of_lanes (.refl s)).congr fun x => by by_cases h : x = a <;> simp [h, e]
    have rest := ih hn _ (by rw [first.only.device.dev]; exact hh)
    refine (first.trans rest fun x h => ?_).congr fun x => ?_
    · have e : x = a := by simpa using (Bool.and_eq_true_iff.mp h).1
      simp [e, ha]
    · rw [first.lane]
      by_cases e : x = a <;> simp [e]

end Aborts

end Sys2Proof.Machine
end
section
/-! O17, an ABORT at the lanes (R173, R174): what each lane becomes, the writes of a staged record cancelled, and the end of a
warm reset at the event's end (R200). -/

namespace Sys2Proof.Machine

variable {s t u : State} {l k : LaneId}

/-! ### One lane -/

/-- The lane takes an abort: it is neither OFF nor DRAINING (R173). -/
def Lane.active (k : Lane) : Bool := k.state != .off && k.state != .draining

/-- The lane DRAINING, its poll timer stopped and its fetch target set aside. -/
def Lane.drain (k : Lane) : Lane := { k with state := .draining, poll := none, drainNext := k.target, target := none }

/-- The lane with its staged record final in the window, CANCELLED. -/
def Lane.cancelled (k : Lane) : Lane :=
  match k.staged, k.stagedAddr with
  | some _, some _ => { k with staged := none, window := cancelInWindow k.window }
  | _, _ => k

/-- The writes of the lane's staged record cancelled. -/
def Lane.cancelOut (k : Lane) (gen : Nat) (tick : Tick) : List Output :=
  match k.staged, k.stagedAddr with
  | some r, some a => resultWrites a (cancelledPart r gen tick) .cancelled
  | _, _ => []

theorem setLane_self (s : State) (l : LaneId) : s.setLane l (s.lane l) = s := by
  simp [State.setLane, State.lane]

theorem cancelStaged_eq (l : LaneId) (s : State) :
    cancelStaged l s = (modLane l Lane.cancelled s).emit ((s.lane l).cancelOut s.cme.gen s.tick) := by
  unfold cancelStaged
  split
  · next r a hr ha => simp only [Lane.cancelOut, modLane, Lane.cancelled, hr, ha]
  · next h =>
    have none : (s.lane l).cancelled = s.lane l ∧ (s.lane l).cancelOut s.cme.gen s.tick = [] := by
      unfold Lane.cancelled Lane.cancelOut
      split
      · next r a hr ha => exact absurd ha (h r a hr)
      · exact ⟨rfl, rfl⟩
    rw [modLane, none.1, none.2, setLane_self, State.emit, List.append_nil]

theorem ctxAbort_quiet (x : CtxId) (s : State) : (ctxAbort x s).lanes = s.lanes ∧ (ctxAbort x s).out = s.out := by
  have settle : ∀ t, t.lanes = s.lanes → t.out = s.out → (ctxSettle x t).lanes = s.lanes ∧ (ctxSettle x t).out = s.out :=
    fun t lanes out => ⟨(RecordsKept.settle x t).lanes.trans lanes, (RecordsKept.settle x t).out.trans out⟩
  unfold ctxAbort
  split
  · exact ⟨rfl, rfl⟩
  · exact ⟨rfl, rfl⟩
  · exact ⟨rfl, rfl⟩
  · exact ⟨rfl, rfl⟩
  · exact settle _ rfl rfl
  · exact settle _ rfl rfl

theorem abortContexts_lane (l k : LaneId) (s : State) : (abortContexts l s).lane k = s.lane k := by
  refine congrArg (fun ls => ls[k]) (forEach_frame (p := State.lanes) _ (fun x t => ?_) eight s)
  split
  · exact (ctxAbort_quiet x t).1
  · rfl

theorem abortContexts_out (l : LaneId) (s : State) : (abortContexts l s).out = s.out := by
  refine forEach_frame (p := State.out) _ (fun x t => ?_) eight s
  split
  · exact (ctxAbort_quiet x t).2
  · rfl

/-- The lane DRAINING with its staged record cancelled, its contexts aborted and its status entry asked for; whether it turns OFF
at once is tested next. -/
def beginAbort (l : LaneId) (s : State) : State := askStatus l (abortContexts l (cancelStaged l (modLane l Lane.drain s)))

theorem laneAbort_idle (h : (s.lane l).active = false) : laneAbort l s = s := by
  unfold laneAbort
  split
  · rfl
  · rfl
  · simp_all [Lane.active]

theorem laneAbort_active (h : (s.lane l).active = true) : laneAbort l s = laneOff l (beginAbort l s) := by
  unfold laneAbort
  split
  · next e => simp [Lane.active, e] at h
  · next e => simp [Lane.active, e] at h
  · rfl

theorem drained_lane (l : LaneId) (s : State) :
    (cancelStaged l (modLane l Lane.drain s)).lane l = (s.lane l).drain.cancelled := by
  rw [cancelStaged_eq, emit_lane, modLane_lane, if_pos rfl, modLane_lane, if_pos rfl]

theorem drained_lane_other (h : k ≠ l) (s : State) : (cancelStaged l (modLane l Lane.drain s)).lane k = s.lane k := by
  rw [cancelStaged_eq, emit_lane, modLane_lane, if_neg h, modLane_lane, if_neg h]

theorem drained_lanesOnly (l : LaneId) (s : State) : LanesOnly s (cancelStaged l (modLane l Lane.drain s)) := by
  rw [cancelStaged_eq]
  exact ((modLane_lanesOnly ..).trans (modLane_lanesOnly ..)).trans (emit_lanesOnly ..)

theorem drained_out (l : LaneId) (s : State) :
    (cancelStaged l (modLane l Lane.drain s)).out = s.out ++ (s.lane l).cancelOut s.cme.gen s.tick := by
  rw [cancelStaged_eq, modLane_lane, if_pos rfl]
  rfl

theorem beginAbort_lane (l : LaneId) (s : State) : (beginAbort l s).lane l
    = { (s.lane l).drain.cancelled with lastStatus := some (s.lane l).drain.cancelled.status } := by
  rw [beginAbort, askStatus_lane, if_pos rfl, abortContexts_lane, drained_lane]

theorem laneAbort_lane_other (l k : LaneId) (s : State) (h : k ≠ l) : (laneAbort l s).lane k = s.lane k := by
  cases ha : (s.lane l).active with
  | false => rw [laneAbort_idle ha]
  | true =>
    rw [laneAbort_active ha, laneOff_lane_other _ _ _ h, beginAbort, askStatus_lane, if_neg h, abortContexts_lane,
      drained_lane_other h]

theorem laneAbort_out (h : (s.lane l).active = true) :
    (laneAbort l s).out = s.out ++ (s.lane l).cancelOut s.cme.gen s.tick := by
  rw [laneAbort_active h, laneOff_out, beginAbort, askStatus_out, abortContexts_out, drained_out]

theorem laneAbort_aborts (hh : s.dev.state ≠ .halted) (l : LaneId) :
    Aborts (fun x => (s.lane l).active && (s.ctx x).lane == l) s (laneAbort l s) := by
  cases ha : (s.lane l).active with
  | false =>
    rw [laneAbort_idle ha]
    exact .of_lanes (.refl s)
  | true =>
    have first := Aborts.of_lanes (drained_lanesOnly l s)
    have second := Aborts.abortContexts (s := cancelStaged l (modLane l Lane.drain s))
      (by rw [first.only.device.dev]; exact hh) l
    have third := Aborts.of_lanes ((askStatus_lanesOnly l (abortContexts l (cancelStaged l (modLane l Lane.drain s)))).trans
      (laneOff_lanesOnly l _))
    rw [laneAbort_active ha]
    exact ((first.trans second fun _ h => nomatch h).trans third fun _ _ => rfl).congr fun x => by rw [first.lane]; simp

/-- The lane once OFF, with its entry noted (R174). -/
theorem laneOff_lane_turns (hs : (s.lane l).state = .draining) (hr : (s.lane l).reading = none)
    (hw : ∀ r ∈ (s.lane l).window, ∃ fs, r.cond = .final fs) :
    (laneOff l s).lane l = { (s.lane l).off with lastStatus := some (s.lane l).off.status } := by
  rw [laneOff_turns hs hr hw, (handCauses_ntuOnly ..).lane, restate_lane]

/-- A lane that has been tested for OFF keeps when it is tested again. -/
theorem laneOff_again (h : t.lane l = (laneOff l s).lane l) : (laneOff l t).lane l = t.lane l := by
  by_cases off : (s.lane l).state ≠ .draining ∨ (s.lane l).reading ≠ none ∨ ∃ r ∈ (s.lane l).window, ∀ fs, r.cond ≠ .final fs
  · rw [laneOff_self off] at h
    rw [laneOff_self (by rw [h]; exact off)]
  · push Not at off
    obtain ⟨hs, hr, hw⟩ := off
    rw [laneOff_lane_turns hs hr hw] at h
    rw [laneOff_self (.inl (by rw [h]; exact fun e => nomatch e))]

/-- The lane that drains, its staged record, if any, being in the window. -/
theorem Lane.drain_cancelled {k : Lane} {window : List WinRec} (hs : k.staged.isSome = true → k.stagedAddr.isSome = true)
    (hw : window = if k.staged.isSome then cancelInWindow k.window else k.window) : k.drain.cancelled
      = { k with state := .draining, poll := none, drainNext := k.target, target := none, staged := none, window := window } := by
  have addr : k.drain.stagedAddr = k.stagedAddr := rfl
  cases hr : k.staged with
  | none => simp_all [Lane.cancelled, Lane.drain]
  | some r =>
    obtain ⟨a, ha⟩ := Option.isSome_iff_exists.mp (hs (by rw [hr]; rfl))
    rw [hr] at hw
    simp only [Lane.cancelled, addr, ha, show k.drain.staged = some r from hr]
    rw [hw]
    rfl

/-- The device part of a record cancelled before its dispatch (R34): no context has worked on it. -/
theorem cancelledPart_eq (r : Bytes) (gen : Nat) (tick : Tick) : cancelledPart r gen tick
    = ⟨.aborted, 0, BitVec.allOnes 32, 0, 0,
        match recKind r with
        | .relocate => BitVec.allOnes 64
        | .regionDefine | .regionDelete | .regionGuard | .regionRelease | .regionFix | .lockdown => BitVec.ofNat 64 gen
        | _ => 0, tick, tick⟩ := by
  unfold cancelledPart Context.devicePart Context.resultWord
  cases recKind r <;> rfl

/-! ### The lanes of a mask -/

/-- What ABORT does to one lane. -/
def abortAt (mask : BitVec 4) (l : LaneId) (s : State) : State := if mask.getLsbD l.val then laneAbort l s else s

/-- The abort takes lane `l`. -/
def abortTakes (mask : BitVec 4) (s : State) (l : LaneId) : Bool := mask.getLsbD l.val && (s.lane l).active

theorem abortTakes_iff {mask : BitVec 4} : abortTakes mask s l = true
    ↔ mask.getLsbD l.val = true ∧ (s.lane l).state ≠ .off ∧ (s.lane l).state ≠ .draining := by
  simp only [abortTakes, Lane.active, Bool.and_eq_true, bne_iff_ne]

theorem abortTakes_congr {mask : BitVec 4} (h : t.lane l = s.lane l) : abortTakes mask t l = abortTakes mask s l := by
  rw [abortTakes, abortTakes, h]

theorem abortAt_takes {mask : BitVec 4} (h : abortTakes mask s l = true) :
    (s.lane l).active = true ∧ abortAt mask l s = laneAbort l s := by
  obtain ⟨hm, ha⟩ := Bool.and_eq_true_iff.mp h
  exact ⟨ha, if_pos hm⟩

theorem abortAt_skips {mask : BitVec 4} (h : abortTakes mask s l = false) : abortAt mask l s = s := by
  unfold abortAt
  split
  · next hm => exact laneAbort_idle (by simpa only [abortTakes, hm, Bool.true_and] using h)
  · rfl

theorem abortAt_lane_other (mask : BitVec 4) (l k : LaneId) (s : State) (h : k ≠ l) : (abortAt mask l s).lane k = s.lane k := by
  unfold abortAt
  split
  · exact laneAbort_lane_other l k s h
  · rfl

theorem abortAt_aborts (hh : s.dev.state ≠ .halted) (mask : BitVec 4) (l : LaneId) :
    Aborts (fun x => abortTakes mask s l && (s.ctx x).lane == l) s (abortAt mask l s) := by
  cases h : abortTakes mask s l with
  | false =>
    rw [abortAt_skips h]
    exact .of_lanes (.refl s)
  | true =>
    obtain ⟨active, e⟩ := abortAt_takes h
    rw [e]
    exact (laneAbort_aborts hh l).congr fun x => by rw [active]

/-- The state after the abort of the mask's lanes, before the tests of the event's end. -/
def abortLanes (mask : BitVec 4) (s : State) : State := forEach four (abortAt mask) s

theorem exec_abort (hh : s.dev.state ≠ .halted) (mask : BitVec 4) :
    exec (.abort mask) s = .next (finishEvent (abortLanes mask s)) := by
  change execAbort mask s = _
  rw [execAbort, if_neg (by simpa [State.halted] using hh), forEach_maskLanes]
  rfl

theorem exec_abort_halted (hh : s.dev.state = .halted) (mask : BitVec 4) : exec (.abort mask) s = .next s := by
  change execAbort mask s = _
  rw [execAbort, if_pos (by simp [State.halted, hh])]

theorem abortLanes_aborts (hh : s.dev.state ≠ .halted) (mask : BitVec 4) :
    Aborts (fun x => abortTakes mask s (s.ctx x).lane) s (abortLanes mask s) := by
  suffices h : ∀ xs : List LaneId, xs.Nodup → ∀ s : State, s.dev.state ≠ .halted →
      Aborts (fun x => decide ((s.ctx x).lane ∈ xs) && abortTakes mask s (s.ctx x).lane) s (forEach xs (abortAt mask) s) from
    (h four four_nodup s hh).congr fun x => by rw [decide_eq_true (mem_four _)]; rfl
  intro xs
  induction xs with
  | nil => exact fun _ s _ => .of_lanes (.refl s)
  | cons a xs ih =>
    intro hn s hh
    obtain ⟨ha, hn⟩ := List.nodup_cons.mp hn
    have first := abortAt_aborts hh mask a
    have rest := ih hn _ (by rw [first.only.device.dev]; exact hh)
    have takes : ∀ x, (s.ctx x).lane ≠ a → abortTakes mask (abortAt mask a s) (s.ctx x).lane = abortTakes mask s (s.ctx x).lane :=
      fun x h => abortTakes_congr (abortAt_lane_other mask a _ s h)
    refine (first.trans rest fun x h => ?_).congr fun x => ?_
    · have e : (s.ctx x).lane = a := by simpa using (Bool.and_eq_true_iff.mp h).2
      simp [first.lane, e, ha]
    · rw [first.lane]
      by_cases e : (s.ctx x).lane = a
      · simp [e, ha]
      · simp [e, takes x e]

theorem abortLanes_lane (mask : BitVec 4) (l : LaneId) (s : State) :
    ∃ u : State, u.lane l = s.lane l ∧ (abortLanes mask s).lane l = (abortAt mask l u).lane l := by
  obtain ⟨u, -, same, own⟩ := (forEach_lane (R := fun _ _ => True) (fun _ => trivial) (fun _ _ => trivial) (fun _ _ => trivial)
    (abortAt_lane_other mask) four four_nodup s).2 l (mem_four l)
  exact ⟨u, same, own⟩

theorem abortLanes_out (hh : s.dev.state ≠ .halted) (mask : BitVec 4) : (abortLanes mask s).out
    = s.out ++ four.flatMap fun l => if abortTakes mask s l then (s.lane l).cancelOut s.cme.gen s.tick else [] := by
  have live : ∀ t, AbortOnly s t → t.dev.state ≠ .halted := fun t h => by rw [h.device.dev]; exact hh
  refine forEach_lanes_out (holds := AbortOnly s) (LanesOnly.refl s).abortOnly
    (fun l t h => h.trans (abortAt_aborts (live t h) mask l).only) (abortAt_lane_other mask) (fun l t h same => ?_) four four_nodup
  rw [← abortTakes_congr same]
  cases ht : abortTakes mask t l with
  | false => rw [abortAt_skips ht]; exact (List.append_nil _).symm
  | true =>
    obtain ⟨active, e⟩ := abortAt_takes ht
    rw [e, laneAbort_out active, h.cme, h.device.tick, same]
    rfl

/-! ### The end of a warm reset (R200) -/

theorem resetDone_iff (hr : s.dev.resetInProgress = true) (hh : s.dev.state ≠ .halted) :
    resetDone s = true ↔ ResetWorkOver False s := by
  have ctxs : ∀ x : CtxId, x ∈ eight := by decide
  have live : s.halted = false := by simpa [State.halted] using hh
  simp only [resetDone, hr, live, allFree, Bool.true_and, Bool.false_or, Bool.and_eq_true, List.all_eq_true, beq_iff_eq,
    List.isEmpty_iff, and_assoc]
  exact ⟨fun ⟨free, off, moves, engine, writes, handed⟩ =>
      ⟨fun x => free x (ctxs x), fun l => off l (mem_four l), fun v => moves v (mem_four v), engine, .inr ⟨writes, handed⟩⟩,
    fun h => ⟨fun x _ => h.contexts x, fun l _ => h.lanes l, fun v _ => h.moves v, h.engine, h.writes.resolve_left id⟩⟩

theorem resetEndCheck_waits (h : resetDone s = false) : resetEndCheck s = s :=
  if_neg (by rw [h]; exact Bool.false_ne_true)

theorem resetEndCheck_ends (h : resetDone s = true) : resetEndCheck s = resetEnd s := if_pos h

theorem stoppedCheck_reset (h : s.dev.resetInProgress = true) : stoppedCheck s = s :=
  if_neg fun g => Bool.false_ne_true (g.2.1.symm.trans h)

theorem stoppedCheck_resetInProgress (s : State) : (stoppedCheck s).dev.resetInProgress = s.dev.resetInProgress := by
  unfold stoppedCheck
  split <;> rfl

end Sys2Proof.Machine
end
section
/-! O17, the parts of an ABORT put together: lanes, links, contexts and held lists after the tests of the event's end. -/

namespace Sys2Proof.Machine

variable {s t u : State} {l : LaneId} {x : CtxId} {c : Context} {mask : BitVec 4}

/-! ### The event's end (R174, R200) -/

/-- The state after an ABORT and the tests of the event's end but that of a warm reset's end. -/
def abortSettled (mask : BitVec 4) (s : State) : State := stoppedCheck (settleLanes (abortLanes mask s))

theorem finishEvent_abortLanes (mask : BitVec 4) (s : State) :
    finishEvent (abortLanes mask s) = resetEndCheck (abortSettled mask s) := rfl

/-- The tests before that of a warm reset's end change the device mode, lanes, notification unit and links alone. -/
theorem stoppedCheck_settleLanes_eq (s : State) :
    ∃ d ls n o, stoppedCheck (settleLanes s) = { s with dev := d, lanes := ls, ntu := n, out := o } := by
  obtain ⟨ls, n, o, e⟩ := settleLanes_lanesOnly s
  rw [e]
  unfold stoppedCheck
  split
  · exact ⟨_, ls, n, o, rfl⟩
  · exact ⟨s.dev, ls, n, o, rfl⟩

theorem abortSettled_eq (hh : s.dev.state ≠ .halted) (mask : BitVec 4) :
    ∃ d ls n o cs ch, abortSettled mask s = { s with dev := d, lanes := ls, ntu := n, out := o, ctxs := cs, chans := ch } := by
  obtain ⟨_, _, _, cs, ch, e⟩ := (abortLanes_aborts hh mask).only
  obtain ⟨d, ls, n, o, e'⟩ := stoppedCheck_settleLanes_eq (abortLanes mask s)
  refine ⟨d, ls, n, o, cs, ch, e'.trans ?_⟩
  rw [e]

theorem abortSettled_ctx (mask : BitVec 4) (s : State) (x : CtxId) : (abortSettled mask s).ctx x = (abortLanes mask s).ctx x := by
  obtain ⟨_, _, _, _, e⟩ := stoppedCheck_settleLanes_eq (abortLanes mask s)
  rw [abortSettled, e]
  rfl

theorem abortSettled_chan (mask : BitVec 4) (s : State) (v : UnitId) :
    (abortSettled mask s).chan v = (abortLanes mask s).chan v := by
  obtain ⟨_, _, _, _, e⟩ := stoppedCheck_settleLanes_eq (abortLanes mask s)
  rw [abortSettled, e]
  rfl

theorem abortSettled_out (mask : BitVec 4) (s : State) : (abortSettled mask s).out = (abortLanes mask s).out :=
  (stoppedCheck_out _).trans (settleLanes_out _)

theorem abortSettled_resetInProgress (hh : s.dev.state ≠ .halted) (mask : BitVec 4) :
    (abortSettled mask s).dev.resetInProgress = s.dev.resetInProgress := by
  rw [abortSettled, stoppedCheck_resetInProgress, (settleLanes_lanesOnly _).device.dev, (abortLanes_aborts hh mask).only.device.dev]

/-- In a warm reset STOPPED is not tested, so the device mode stays until the reset's own end. -/
theorem abortSettled_dev (hh : s.dev.state ≠ .halted) (hr : s.dev.resetInProgress = true) (mask : BitVec 4) :
    (abortSettled mask s).dev = s.dev := by
  have dev : (settleLanes (abortLanes mask s)).dev = s.dev :=
    (settleLanes_lanesOnly _).device.dev.trans (abortLanes_aborts hh mask).only.device.dev
  rw [abortSettled, stoppedCheck_reset (by rw [dev]; exact hr), dev]

theorem resetDone_of_none (h : s.dev.resetInProgress = false) : resetDone s = false := by simp [resetDone, h]

theorem resetEnd_dev (s : State) :
    (resetEnd s).dev = { s.dev with state := .stopped, fault := .none, resetInProgress := false } := rfl

theorem resetEnd_route (s : State) (r : RouteId) : ((resetEnd s).route r).state = .idle := by cases r <;> rfl

/-! ### The lanes (R173, R174) -/

/-- Outside HALTED a lane after the event's tests is what the test of R174 makes of it. -/
theorem abortSettled_lane (hh : s.dev.state ≠ .halted) (mask : BitVec 4) (l : LaneId) :
    (abortSettled mask s).lane l = (laneOff l (abortLanes mask s)).lane l := by
  have live : ¬ (abortLanes mask s).halted = true := by
    rw [State.halted, (abortLanes_aborts hh mask).only.device.dev]
    simpa using hh
  rw [abortSettled, stoppedCheck_lane, settleLanes_lane_eq, settleLane, if_neg live]

theorem abortSettled_lane_kept (hh : s.dev.state ≠ .halted) (h : abortTakes mask s l = false) (hs : (s.lane l).state ≠ .draining) :
    (abortSettled mask s).lane l = s.lane l := by
  obtain ⟨u, same, own⟩ := abortLanes_lane mask l s
  rw [abortAt_skips (by rw [abortTakes_congr same, h]), same] at own
  rw [abortSettled_lane hh, (laneOff_lane l l _).kept (by rw [own]; exact hs), own]

/-- A lane taken is the one that drains, tested for OFF once. -/
theorem abortSettled_lane_taken (hh : s.dev.state ≠ .halted) (h : abortTakes mask s l = true) :
    ∃ v : State, v.lane l = { (s.lane l).drain.cancelled with lastStatus := some (s.lane l).drain.cancelled.status }
      ∧ (abortSettled mask s).lane l = (laneOff l v).lane l := by
  obtain ⟨u, same, own⟩ := abortLanes_lane mask l s
  obtain ⟨active, takes⟩ := abortAt_takes ((abortTakes_congr same).trans h)
  rw [takes, laneAbort_active active] at own
  refine ⟨beginAbort l u, by rw [beginAbort_lane, same], ?_⟩
  rw [abortSettled_lane hh, laneOff_again own, own]

/-! ### The contexts (R67) -/

theorem Context.abortSteps_blocks (c : Context) :
    c.abortSteps.blocks = c.blocks.filter fun b => c.blocks.all fun g => g.j != b.j || !g.phase.isHeld :=
  (dropBlocks_dropped BlockPhase.isHeld c).blocks

theorem Context.abortSteps_dropped (c : Context) : BlocksDropped BlockPhase.isHeld c c.abortSteps :=
  ⟨(dropBlocks_dropped _ c).blocks, (dropBlocks_dropped _ c).freed, (dropBlocks_dropped _ c).others⟩

theorem Context.abortSteps_finishing_iff : c.abortSteps.restState = .finishing
    ↔ (∀ b ∈ c.abortSteps.blocks, b.phase = .fold) ∧ c.waitCommit = false ∧ c.waitPass = false := by
  have waits : c.abortSteps.waitCommit = c.waitCommit ∧ c.abortSteps.waitPass = c.waitPass := by
    obtain ⟨bs, us, e⟩ := c.abortSteps_eq
    rw [e]
    exact ⟨rfl, rfl⟩
  rw [restState_finishing_iff, waits.1, waits.2, Context.work, List.filter_eq_nil_iff]
  simp only [bne_iff_ne, ne_eq, not_not]

/-- With work left a context that was stepping drains: the mark keeps it from COMMIT_WAIT (R54, R67). -/
theorem Context.abortSteps_draining (hs : c.stepping = true) (h : c.abortSteps.restState ≠ .finishing) :
    c.abortSteps.restState = .drainingSteps := by
  have mark : c.abortSteps.abortMark = true := rfl
  have state : c.abortSteps.state ≠ .commitWait := by
    obtain ⟨bs, us, e⟩ := c.abortSteps_eq
    rw [e]
    rcases Context.stepping_iff.mp hs with h | h <;> exact fun g => nomatch h.symm.trans g
  unfold Context.restState at h ⊢
  rw [if_neg fun done => h (if_pos done), if_neg state, if_neg (by simp [mark])]

/-- What is decided does not read the block table. -/
theorem Context.abortSteps_finished (c : Context) (gen : Nat) (tick : Tick) :
    c.abortSteps.finished gen tick = ({ c with abortMark := true } : Context).finished gen tick := by
  obtain ⟨bs, us, e⟩ := c.abortSteps_eq
  rw [e]
  rfl

theorem Context.finished_cancelled {gen : Nat} {tick : Tick} (hr : c.refusal = none) :
    (({ c with abortMark := true } : Context).finished gen tick).final.map (fun f => (f.1, f.2.status))
      = some (.cancelled, .aborted) := by
  simp [Context.finished, Context.devicePart, Context.outcome, hr]

theorem abortSettled_aborted (hh : s.dev.state ≠ .halted) (h : abortTakes mask s (s.ctx x).lane = true) :
    (abortSettled mask s).ctx x = (s.ctx x).aborted s.cme.gen s.tick := by
  rw [abortSettled_ctx, (abortLanes_aborts hh mask).ctx, if_pos h]

theorem abortSettled_decided (hh : s.dev.state ≠ .halted) (h : abortTakes mask s (s.ctx x).lane = true)
    (hs : (s.ctx x).stepping = true) (hb : ∀ b ∈ (s.ctx x).abortSteps.blocks, b.phase = .fold)
    (hc : (s.ctx x).waitCommit = false) (hp : (s.ctx x).waitPass = false) :
    (abortSettled mask s).ctx x = ({ s.ctx x with abortMark := true } : Context).finished s.cme.gen s.tick := by
  rw [abortSettled_aborted hh h, Context.aborted_stepping hs, if_pos (Context.abortSteps_finishing_iff.mpr ⟨hb, hc, hp⟩),
    Context.abortSteps_finished]

theorem abortSettled_drains (hh : s.dev.state ≠ .halted) (h : abortTakes mask s (s.ctx x).lane = true)
    (hs : (s.ctx x).stepping = true) (left : (∃ b ∈ (s.ctx x).abortSteps.blocks, b.phase ≠ .fold)
      ∨ (s.ctx x).waitCommit = true ∨ (s.ctx x).waitPass = true) :
    (abortSettled mask s).ctx x = { (s.ctx x).abortSteps with state := .drainingSteps } := by
  have working : (s.ctx x).abortSteps.restState ≠ .finishing := fun e => by
    obtain ⟨blocks, commit, pass⟩ := Context.abortSteps_finishing_iff.mp e
    rcases left with ⟨b, hb, hf⟩ | hc | hp
    · exact hf (blocks b hb)
    · exact Bool.false_ne_true (commit.symm.trans hc)
    · exact Bool.false_ne_true (pass.symm.trans hp)
  rw [abortSettled_aborted hh h, Context.aborted_stepping hs, if_neg working, Context.abortSteps_draining hs working]

/-! ### ABORT -/

/-- Settles O17: loop, tests and reset's end taken one after the other; `t` is the state before the test of the reset's end. -/
theorem abortDrainsTheLanes : Obligations.AbortDrainsTheLanes := by
  intro mask s taken withdrawn htaken hwithdrawn
  obtain rfl : taken = abortTakes mask s := funext fun l => Bool.eq_iff_iff.mpr ((htaken l).trans abortTakes_iff.symm)
  obtain rfl : withdrawn = fun x => abortTakes mask s (s.ctx x).lane && (s.ctx x).stepping := funext fun x =>
    Bool.eq_iff_iff.mpr ((hwithdrawn x).trans (by rw [Bool.and_eq_true, Context.stepping_iff]))
  refine ⟨fun hh => exec_abort_halted hh mask, fun hh => ⟨abortSettled mask s, finishEvent (abortLanes mask s), exec_abort hh mask,
    fun hr => ?noReset, fun hr => ⟨abortSettled_dev hh hr mask, fun h => ?waits, fun h => ?ends⟩,
    fun l window taken staged hw => ?taken, fun l h hs => abortSettled_lane_kept hh h hs, ?out,
    fun x => ⟨fun h => ?untouched, fun h hs => ?loading, fun kept h hk => ?stepping⟩, fun v => ?chans, ?rest⟩⟩
  case noReset =>
    exact resetEndCheck_waits (resetDone_of_none ((abortSettled_resetInProgress hh mask).trans hr))
  case waits =>
    have dev := abortSettled_dev hh hr mask
    rw [finishEvent_abortLanes]
    exact resetEndCheck_waits (Bool.eq_false_iff.mpr (mt (resetDone_iff (by rw [dev]; exact hr) (by rw [dev]; exact hh)).mp h))
  case ends =>
    have dev := abortSettled_dev hh hr mask
    have done : resetDone (abortSettled mask s) = true := (resetDone_iff (by rw [dev, hr]) (by rw [dev]; exact hh)).mpr h
    rw [finishEvent_abortLanes, resetEndCheck_ends done]
    generalize abortSettled mask s = t at dev
    exact ⟨by rw [resetEnd_dev, dev], rfl, rfl, resetEnd_route t, rfl, rfl, rfl, rfl, rfl, rfl, rfl, rfl, rfl, rfl⟩
  case taken =>
    obtain ⟨v, lane, settled⟩ := abortSettled_lane_taken hh taken
    rw [settled]
    rw [Lane.drain_cancelled staged hw] at lane
    by_cases off : (s.lane l).reading = none ∧ ∀ r ∈ window, ∃ fs, r.cond = .final fs
    · rw [laneOff_lane_turns (by rw [lane]) (by rw [lane]; exact off.1) (by rw [lane]; exact off.2), lane]
      refine ⟨rfl, rfl, rfl, rfl, rfl, rfl, rfl, fun _ _ => ⟨rfl, rfl, rfl, rfl⟩, fun busy => ?_⟩
      rcases busy with busy | ⟨r, hr, unfinished⟩
      · exact absurd off.1 busy
      · obtain ⟨fs, final⟩ := off.2 r hr
        exact absurd final (unfinished fs)
    · have busy : (s.lane l).reading ≠ none ∨ ∃ r ∈ window, ∀ fs, r.cond ≠ .final fs := by
        rw [not_and_or] at off
        exact off.imp id fun h => by push Not at h; exact h
      rw [laneOff_self (by rw [lane]; exact .inr busy), lane]
      exact ⟨rfl, rfl, rfl, rfl, rfl, rfl, rfl, fun hr hf => absurd ⟨hr, hf⟩ off, fun _ => ⟨rfl, rfl, rfl, rfl, rfl⟩⟩
  case out =>
    rw [abortSettled_out, abortLanes_out hh]
    refine congrArg (s.out ++ four.flatMap ·) (funext fun l => ?_)
    unfold Lane.cancelOut
    cases (s.lane l).staged with
    | none => exact ite_self (c := abortTakes mask s l = true) ([] : List Output)
    | some r =>
      cases (s.lane l).stagedAddr with
      | none => exact ite_self (c := abortTakes mask s l = true) ([] : List Output)
      | some a =>
        exact congrArg (fun d => if abortTakes mask s l then resultWrites a d .cancelled else [])
          (cancelledPart_eq r s.cme.gen s.tick)
  case untouched =>
    by_cases ht : abortTakes mask s (s.ctx x).lane = true
    · rw [abortSettled_aborted hh ht, Context.aborted_other (h.resolve_left (by rw [ht]; decide))]
    · rw [abortSettled_ctx, (abortLanes_aborts hh mask).ctx, if_neg ht]
  case loading =>
    rw [abortSettled_aborted hh h, Context.aborted_loading hs]
  case stepping =>
    obtain ⟨ht, hs⟩ := Bool.and_eq_true_iff.mp h
    obtain rfl : kept = (s.ctx x).abortSteps.blocks := by
      rw [hk, Context.abortSteps_blocks]
      refine List.filter_congr fun b _ => congrArg _ (funext fun g => ?_)
      cases g.phase <;> rfl
    refine ⟨fun hb hc hp => ?_, fun left => ?_⟩
    · rw [abortSettled_decided hh ht hs hb hc hp, enterFinishing_ctx, ctx_setCtx_same]
      exact ⟨rfl, fun hr => Context.finished_cancelled hr⟩
    · rw [abortSettled_drains hh ht hs left]
      have held : BlockPhase.isHeld = fun p => match p with | .held _ => true | _ => false := by
        funext p
        cases p <;> rfl
      have dropped := (s.ctx x).abortSteps_dropped
      rw [held] at dropped
      obtain ⟨bs, us, e⟩ := (s.ctx x).abortSteps_eq
      refine ⟨rfl, rfl, rfl, ⟨dropped.blocks, dropped.freed, dropped.others⟩, ?_, ?_, ?_, ?_⟩ <;> rw [e]
  case chans =>
    rw [abortSettled_chan, (abortLanes_aborts hh mask).chan]
    rfl
  case rest =>
    obtain ⟨_, _, _, _, _, _, e⟩ := abortSettled_eq hh mask
    rw [e]
    exact ⟨rfl, rfl, rfl, rfl, rfl, rfl, rfl, rfl, rfl, rfl⟩

end Sys2Proof.Machine
end
section
/-! O50, O51 and O52. The routes (R184 to R186): a cause, a send and an acknowledgement change routes and requests of the write
list alone, and each is one equation for every state a route is in. -/

namespace Sys2Proof.Machine

variable {s t u : State} {r q : RouteId}

/-! ### Writes and causes are taken or dropped (R178, R180, R183) -/

theorem silent_iff : (s.anchor = 0 ∨ s.halted = true) ↔ (s.anchor = 0 ∨ s.dev.state = .halted) := by simp [State.halted]

theorem not_silent (ha : s.anchor ≠ 0) (hd : s.dev.state ≠ .halted) : ¬ (s.anchor = 0 ∨ s.halted = true) :=
  fun h => (silent_iff.mp h).elim ha hd

/-- No message is placed: without an anchor, in HALTED and with messages disabled (R178, R180, R185). -/
theorem noMessage_iff : (s.anchor = 0 ∨ s.halted = true ∨ s.messagesEnabled = false)
    ↔ (s.anchor = 0 ∨ s.dev.state = .halted ∨ s.messagesEnabled = false) := by simp [State.halted]

theorem messagePlaced (ha : s.anchor ≠ 0) (hd : s.dev.state ≠ .halted) (hm : s.messagesEnabled = true) :
    ¬ (s.anchor = 0 ∨ s.halted = true ∨ s.messagesEnabled = false) := by
  rw [noMessage_iff, hm]
  exact fun h => h.elim ha fun h => h.elim hd Bool.noConfusion

/-! ### Only routes and requests change -/

/-- `t` is `s` but for the routes and the write list. -/
def RoutesOnly (s t : State) : Prop := ∃ ws a b, t = s.setNtu { s.ntu with writes := ws, routeA := a, routeB := b }

theorem RoutesOnly.refl (s : State) : RoutesOnly s s := ⟨s.ntu.writes, s.ntu.routeA, s.ntu.routeB, rfl⟩

theorem RoutesOnly.trans (h : RoutesOnly s t) (g : RoutesOnly t u) : RoutesOnly s u := by
  obtain ⟨_, _, _, rfl⟩ := h
  obtain ⟨ws, a, b, rfl⟩ := g
  exact ⟨ws, a, b, rfl⟩

theorem RoutesOnly.each {β : Type} {f : β → State → State} (hf : ∀ a t, RoutesOnly t (f a t)) (xs : List β) (s : State) :
    RoutesOnly s (forEach xs f s) := by
  induction xs generalizing s with
  | nil => exact .refl s
  | cons a xs ih => exact (hf a s).trans (ih (f a s))

theorem RoutesOnly.ntuOnly (h : RoutesOnly s t) : NtuOnly s t := by
  obtain ⟨_, _, _, rfl⟩ := h
  exact .set s _

theorem RoutesOnly.slots (h : RoutesOnly s t) : t.ntu.slots = s.ntu.slots := by
  obtain ⟨_, _, _, rfl⟩ := h
  rfl

theorem RoutesOnly.handed (h : RoutesOnly s t) : t.ntu.handed = s.ntu.handed := by
  obtain ⟨_, _, _, rfl⟩ := h
  rfl

theorem NtuOnly.lanes (h : NtuOnly s t) : t.lanes = s.lanes := by
  obtain ⟨_, rfl⟩ := h
  rfl

theorem NtuOnly.routeCfg (h : NtuOnly s t) (r : RouteId) : t.routeCfg r = s.routeCfg r := by
  obtain ⟨_, rfl⟩ := h
  cases r <;> rfl

theorem setRoute_routesOnly (s : State) (r : RouteId) (v : Route) : RoutesOnly s (s.setRoute r v) := by
  cases r with
  | a => exact ⟨s.ntu.writes, v, s.ntu.routeB, rfl⟩
  | b => exact ⟨s.ntu.writes, s.ntu.routeA, v, rfl⟩

theorem askMessage_routesOnly (r : RouteId) (s : State) : RoutesOnly s (askMessage r s) := by
  unfold askMessage
  split
  · exact .refl s
  · exact ⟨_, s.ntu.routeA, s.ntu.routeB, rfl⟩

theorem sendRoute_routesOnly (r : RouteId) (s : State) : RoutesOnly s (sendRoute r s) :=
  (setRoute_routesOnly s r _).trans (askMessage_routesOnly r _)

/-! ### A cause (R184) -/

theorem takeCause_idle (h : (s.route r).state = .idle) : takeCause r s =
    if (s.routeCfg r).hold = 0 ∨ (s.routeCfg r).threshold ≤ 1 then sendRoute r s
    else holdRoute r { s.route r with count := 1 } s := by
  simp only [takeCause, h]

theorem takeCause_holding (h : (s.route r).state = .holding) : takeCause r s =
    if (s.routeCfg r).threshold ≤ (s.route r).count + 1 then sendRoute r s
    else s.setRoute r { s.route r with count := (s.route r).count + 1 } := by
  simp only [takeCause, h]

theorem takeCause_signalled (h : (s.route r).state = .signalled) : takeCause r s =
    s.setRoute r { s.route r with more := true, count := min ((s.route r).count + 1) 64 } := by
  simp only [takeCause, h]

/-- Settles O50: the table's rows by the state of the route, and in IDLE and HOLDING by its settings. -/
theorem routeTakesACause : Obligations.RouteTakesACause := by
  intro r s
  refine ⟨fun h now => ?_, fun h hold threshold => ?_, fun h reached => ?_, fun h below => ?_, takeCause_signalled⟩
  · rw [takeCause_idle h, if_pos now]
  · rw [takeCause_idle h, if_neg (by omega)]
    rfl
  · rw [takeCause_holding h, if_pos reached]
  · rw [takeCause_holding h, if_neg (by omega)]

/-! ### A send and the expiry of a hold timer (R185) -/

theorem holdExpiry_due {expiry : Tick} (h : (s.route r).state = .holding) (ht : (s.route r).timer = some expiry)
    (due : reached s.tick expiry = true) : exec (.holdExpiry r) s = .next (sendRoute r s) := by
  simp only [exec, execHoldExpiry, h, ht, due, if_true]

/-- Outside HOLDING, without a timer and before its expiry nothing happens (log entries 2 and 23). -/
theorem holdExpiry_idle
    (h : ∀ expiry, (s.route r).state = .holding → (s.route r).timer = some expiry → reached s.tick expiry = false) :
    exec (.holdExpiry r) s = .next s := by
  simp only [exec, execHoldExpiry]
  split
  · next expiry hs ht => rw [h expiry hs ht]; rfl
  · rfl

/-- Settles O51: the send by what it leaves of routes and requests, the expiry by whether the timer runs and is due. -/
theorem routeSends : Obligations.RouteSends := by
  intro r s
  have only := sendRoute_routesOnly r s
  have rest := only.ntuOnly.lanesOnly
  refine ⟨⟨?_, fun q other => ?_, fun ha hd hm => ?_, fun unheard => ?_, rest.device, rest.media, rest.records,
    only.ntuOnly.lanes, only.ntuOnly.out⟩, fun _ => holdExpiry_due,
    fun h => holdExpiry_idle fun _ hs _ => absurd hs h, fun h => holdExpiry_idle fun expiry _ ht => h expiry ht⟩
  · rw [sendRoute_route, if_pos rfl]
    rfl
  · rw [sendRoute_route, if_neg other]
  · rw [sendRoute_writes, if_neg (messagePlaced ha hd hm)]
    rfl
  · rw [sendRoute_writes, if_pos (noMessage_iff.mpr unheard)]

/-! ### One route's acknowledgement (R186) -/

/-- A route after its acknowledgement, under its settings and at this tick. -/
def Route.acknowledged (cfg : RouteCfg) (tick : Tick) (v : Route) : Route :=
  if v.state ≠ .signalled then v
  else if v.more = false then { v with state := .idle, count := 0 }
  else if cfg.hold = 0 ∨ cfg.threshold ≤ v.count then { v with state := .signalled, count := 0, more := false, timer := none }
  else { v with state := .holding, more := false, timer := some (tick + BitVec.ofNat 64 cfg.hold) }

/-- An acknowledgement makes the route send: SIGNALLED with the more mark, and no time to hold its count. -/
def State.sendsAtAck (s : State) (r : RouteId) : Bool :=
  decide ((s.route r).state = .signalled ∧ (s.route r).more = true
    ∧ ((s.routeCfg r).hold = 0 ∨ (s.routeCfg r).threshold ≤ (s.route r).count))

theorem acknowledgeRoute_routesOnly (r : RouteId) (s : State) : RoutesOnly s (acknowledgeRoute r s) := by
  unfold acknowledgeRoute holdRoute
  dsimp only
  split
  · exact .refl s
  · exact .refl s
  · split
    · split
      · exact (setRoute_routesOnly s r _).trans (sendRoute_routesOnly r _)
      · exact setRoute_routesOnly s r _
    · exact setRoute_routesOnly s r _

theorem acknowledgeRoute_route (r q : RouteId) (s : State) : (acknowledgeRoute r s).route q
    = if q = r then (s.route q).acknowledged (s.routeCfg q) s.tick else s.route q := by
  by_cases h : q = r
  · subst h
    rw [if_pos rfl, acknowledgeRoute_self]
    rfl
  · rw [if_neg h, acknowledgeRoute_other r q s h]

theorem acknowledgeRoute_sends (h : s.sendsAtAck r = true) :
    acknowledgeRoute r s = sendRoute r (s.setRoute r { s.route r with more := false }) := by
  obtain ⟨hs, more, full⟩ := of_decide_eq_true h
  simp only [acknowledgeRoute, hs, more, if_pos full, if_true]

theorem acknowledgeRoute_asksNothing (h : s.sendsAtAck r = false) : (acknowledgeRoute r s).ntu.writes = s.ntu.writes := by
  have stays := of_decide_eq_false h
  unfold acknowledgeRoute holdRoute
  dsimp only
  split
  · rfl
  · rfl
  · next hs =>
    split
    · next more => rw [if_neg fun full => stays ⟨hs, more, full⟩, setRoute_writes]
    · exact setRoute_writes ..

/-- A route that sends places its message; another asks for nothing (R178, R185, R186). -/
theorem acknowledgeRoute_writes (ha : s.anchor ≠ 0) (hd : s.dev.state ≠ .halted) : (acknowledgeRoute r s).ntu.writes
    = if s.messagesEnabled && s.sendsAtAck r then placeMessage r s.ntu.writes else s.ntu.writes := by
  cases h : s.sendsAtAck r with
  | false => rw [acknowledgeRoute_asksNothing h, Bool.and_false]; rfl
  | true =>
    have only := (setRoute_ntuOnly s r { s.route r with more := false }).lanesOnly.device
    rw [acknowledgeRoute_sends h, sendRoute_writes, setRoute_writes, only.anchor, State.halted, only.dev, only.messagesEnabled,
      Bool.and_true]
    cases hm : s.messagesEnabled with
    | false => exact if_pos (.inr (.inr rfl))
    | true => exact if_neg (hm ▸ messagePlaced ha hd hm)

/-- What the acknowledgement of another route leaves for this one. -/
theorem acknowledgeRoute_sendsAtAck (h : q ≠ r) : (acknowledgeRoute r s).sendsAtAck q = s.sendsAtAck q := by
  rw [State.sendsAtAck, acknowledgeRoute_other r q s h, (acknowledgeRoute_ntuOnly r s).routeCfg, State.sendsAtAck]

/-! ### The routes one after the other (R186, log entry 53) -/

theorem acknowledgeRoutes_route {rs : List RouteId} (hn : rs.Nodup) (q : RouteId) (s : State) :
    (forEach rs acknowledgeRoute s).route q
      = if q ∈ rs then (s.route q).acknowledged (s.routeCfg q) s.tick else s.route q := by
  induction rs generalizing s with
  | nil => rfl
  | cons r rs ih =>
    obtain ⟨fresh, hn⟩ := List.nodup_cons.mp hn
    have only := acknowledgeRoute_ntuOnly r s
    have later := ih hn (acknowledgeRoute r s)
    rw [only.routeCfg, only.lanesOnly.device.tick, acknowledgeRoute_route] at later
    refine Eq.trans later ?_
    by_cases h : q = r
    · subst h
      simp [fresh]
    · simp [h]

/-- The routes that send place their messages in the order of the list. -/
theorem acknowledgeRoutes_writes {rs : List RouteId} (hn : rs.Nodup) (ha : s.anchor ≠ 0) (hd : s.dev.state ≠ .halted) :
    (forEach rs acknowledgeRoute s).ntu.writes = if s.messagesEnabled = true
      then (rs.filter s.sendsAtAck).foldl (fun ws r => placeMessage r ws) s.ntu.writes else s.ntu.writes := by
  induction rs generalizing s with
  | nil => exact (ite_self _).symm
  | cons r rs ih =>
    obtain ⟨fresh, hn⟩ := List.nodup_cons.mp hn
    have device := (acknowledgeRoute_ntuOnly r s).lanesOnly.device
    have senders : rs.filter (acknowledgeRoute r s).sendsAtAck = rs.filter s.sendsAtAck :=
      List.filter_congr fun q m => acknowledgeRoute_sendsAtAck fun e => fresh (e ▸ m)
    have later := ih hn (s := acknowledgeRoute r s) (by rwa [device.anchor]) (by rwa [device.dev])
    rw [senders, device.messagesEnabled, acknowledgeRoute_writes ha hd] at later
    refine Eq.trans later ?_
    cases s.messagesEnabled <;> cases h : s.sendsAtAck r <;> simp [h]

/-! ### The routes an ATTN write names (R186) -/

theorem mem_maskRoutes_a (mask : BitVec 2) : .a ∈ maskRoutes mask ↔ mask.getLsbD 0 = true := by simp [maskRoutes]

theorem mem_maskRoutes_b (mask : BitVec 2) : .b ∈ maskRoutes mask ↔ mask.getLsbD 1 = true := by simp [maskRoutes]

theorem maskRoutes_nodup (mask : BitVec 2) : (maskRoutes mask).Nodup := by
  unfold maskRoutes
  cases mask.getLsbD 0 <;> cases mask.getLsbD 1 <;> decide

/-- Of the routes named those that meet `p`, A first. -/
theorem maskRoutes_filter (mask : BitVec 2) {p sends : RouteId → Bool}
    (h : ∀ r, sends r = true ↔ r ∈ maskRoutes mask ∧ p r = true) :
    (maskRoutes mask).filter p = (if sends .a then [.a] else []) ++ (if sends .b then [.b] else []) := by
  have a : sends .a = (mask.getLsbD 0 && p .a) := Bool.eq_iff_iff.mpr (by rw [h, mem_maskRoutes_a, Bool.and_eq_true])
  have b : sends .b = (mask.getLsbD 1 && p .b) := Bool.eq_iff_iff.mpr (by rw [h, mem_maskRoutes_b, Bool.and_eq_true])
  rw [a, b, maskRoutes, List.filter_append]
  cases mask.getLsbD 0 <;> cases mask.getLsbD 1 <;> simp [List.filter_cons]

/-- A's message and then B's placed, each where its route sends (R178, log entry 53). -/
theorem placeMessage_inOrder (sendsA sendsB : Bool) (ws : List WriteReq) :
    ((if sendsA then [RouteId.a] else []) ++ (if sendsB then [RouteId.b] else [])).foldl (fun ws r => placeMessage r ws) ws
      = ws.filter (fun w => !(sendsA && w.target == .message .a) && !(sendsB && w.target == .message .b))
        ++ (if sendsA then [⟨.message .a, []⟩] else []) ++ (if sendsB then [⟨.message .b, []⟩] else []) := by
  cases sendsA <;> cases sendsB <;> simp [placeMessage, bne, List.filter_append, List.filter_filter, Bool.and_comm]

/-! ### ACKNOWLEDGE (R186) -/

theorem exec_acknowledge_dropped (h : s.anchor = 0 ∨ s.dev.state = .halted) (mask : BitVec 2) :
    exec (.acknowledge mask) s = .next s :=
  congrArg Host.Outcome.next (if_pos (silent_iff.mpr h))

theorem exec_acknowledge (ha : s.anchor ≠ 0) (hd : s.dev.state ≠ .halted) (mask : BitVec 2) :
    exec (.acknowledge mask) s = .next (forEach (maskRoutes mask) acknowledgeRoute s) :=
  congrArg Host.Outcome.next (if_neg (not_silent ha hd))

/-- Settles O52: each route named is acknowledged by itself (`acknowledgeRoutes_route`), and those that send place their messages
in order (`acknowledgeRoutes_writes`). -/
theorem acknowledgeReleasesTheRoute : Obligations.AcknowledgeReleasesTheRoute := by
  intro mask s
  refine ⟨mem_maskRoutes_a mask, mem_maskRoutes_b mask, fun h => exec_acknowledge_dropped h mask, fun ha hd =>
    ⟨_, exec_acknowledge ha hd mask, fun r h => ?unchanged, fun r named hs more => ?released,
      fun r named hs more hold below => ?holds, fun r named hs more full => ?sends, fun sends before hsends hbefore => ?writes,
      ?rest⟩⟩
  case writes =>
    rw [acknowledgeRoutes_writes (maskRoutes_nodup mask) ha hd, hbefore,
      maskRoutes_filter mask (sends := sends) fun r => ?senders, placeMessage_inOrder]
    rw [hsends, State.sendsAtAck, decide_eq_true_iff]
  case rest =>
    have only := RoutesOnly.each acknowledgeRoute_routesOnly (maskRoutes mask) s
    have rest := only.ntuOnly.lanesOnly
    exact ⟨only.slots, only.handed, rest.device, rest.media, rest.records, only.ntuOnly.lanes, only.ntuOnly.out⟩
  all_goals rw [acknowledgeRoutes_route (maskRoutes_nodup mask)]
  case unchanged =>
    rcases h with h | h
    · exact if_neg h
    · rw [Route.acknowledged, if_pos h, ite_self]
  all_goals rw [if_pos named, Route.acknowledged, if_neg (not_not_intro hs)]
  case released => rw [if_pos more]
  all_goals rw [if_neg (by simp [more])]
  case holds => exact if_neg (by omega)
  case sends => exact if_pos full

end Sys2Proof.Machine
end
section
/-! O53. An occurrence of an event (R181): the slot copy, the slot's write in the write list (R178), and the cause of the kind's
route (R183). -/

namespace Sys2Proof.Machine

variable {s t : State} {w : WriteTarget}

/-! ### The request of a target (R178) -/

theorem putRequest_joins (c : Bytes) {ws : List WriteReq} (fresh : ∀ r ∈ ws, r.target ≠ w) :
    putRequest w c ws = ws ++ [⟨w, c⟩] := by
  induction ws with
  | nil => rfl
  | cons r rs ih =>
    rw [putRequest, if_neg (fresh r List.mem_cons_self), ih fun q m => fresh q (List.mem_cons_of_mem _ m)]
    rfl

theorem putRequest_replaces (c : Bytes) {before after : List WriteReq} {r : WriteReq} (fresh : ∀ v ∈ before, v.target ≠ w)
    (h : r.target = w) : putRequest w c (before ++ r :: after) = before ++ ⟨w, c⟩ :: after := by
  induction before with
  | nil => exact if_pos h
  | cons v before ih =>
    rw [List.cons_append, putRequest, if_neg (fresh v List.mem_cons_self), ih fun q m => fresh q (List.mem_cons_of_mem _ m)]
    rfl

theorem askWrite_writes (ha : s.anchor ≠ 0) (hd : s.dev.state ≠ .halted) (w : WriteTarget) (c : Bytes) :
    (askWrite w c s).ntu.writes = putRequest w c s.ntu.writes := by
  rw [askWrite, if_neg (not_silent ha hd)]
  rfl

theorem askWrite_dropped (h : s.anchor = 0 ∨ s.dev.state = .halted) (w : WriteTarget) (c : Bytes) : askWrite w c s = s :=
  if_pos (silent_iff.mpr h)

theorem askWrite_route (w : WriteTarget) (c : Bytes) (s : State) (r : RouteId) : (askWrite w c s).route r = s.route r := by
  unfold askWrite
  split
  · rfl
  · cases r <;> rfl

theorem askWrite_handed (w : WriteTarget) (c : Bytes) (s : State) : (askWrite w c s).ntu.handed = s.ntu.handed := by
  unfold askWrite
  split <;> rfl

theorem NtuOnly.eq_setNtu (h : NtuOnly s t) : t = s.setNtu t.ntu := by
  obtain ⟨_, rfl⟩ := h
  rfl

/-! ### The occurrence before its cause (R181) -/

/-- The slot of the kind after the occurrence. -/
def occurred (k : EventKind) (o : Occurrence) (s : State) : EventSlot := (s.ntu.slots[k.slot]).occur (o.detail s.tick)

/-- The occurrence stands in the slot copy. -/
def slotTaken (k : EventKind) (o : Occurrence) (s : State) : State :=
  s.setNtu { s.ntu with slots := s.ntu.slots.set k.slot (occurred k o s) }

/-- The slot's write is asked for too; the cause of the kind's route is not yet handed on. -/
def slotAsked (k : EventKind) (o : Occurrence) (s : State) : State :=
  askWrite (.slot k.slot) (occurred k o s).bytes (slotTaken k o s)

theorem slotAsked_ntuOnly (k : EventKind) (o : Occurrence) (s : State) : NtuOnly s (slotAsked k o s) :=
  (NtuOnly.set s _).trans (askWrite_ntuOnly _ _ _)

theorem postEvent_eq_routeCause (k : EventKind) (o : Occurrence) (s : State) :
    postEvent k o s = routeCause s.settings.eventRoutes[k.slot] (slotAsked k o s) := by
  rw [← (slotAsked_ntuOnly k o s).lanesOnly.device.settings]
  rfl

theorem postEvent_slots_eq (k : EventKind) (o : Occurrence) (s : State) :
    (postEvent k o s).ntu.slots = (slotAsked k o s).ntu.slots := by
  rw [postEvent_eq_routeCause, routeCause_slots]

theorem slotAsked_slots (k : EventKind) (o : Occurrence) (s : State) :
    (slotAsked k o s).ntu.slots = s.ntu.slots.set k.slot (occurred k o s) := askWrite_slots ..

theorem slotAsked_slot (k : EventKind) (o : Occurrence) (s : State) : (slotAsked k o s).ntu.slots[k.slot] = occurred k o s := by
  rw [slotAsked_slots]
  simp

theorem slotAsked_slot_other (k : EventKind) (o : Occurrence) (s : State) {j : Fin 10} (h : j ≠ k.slot) :
    (slotAsked k o s).ntu.slots[j] = s.ntu.slots[j] := by
  have apart : k.slot.val ≠ j.val := fun e => h (Fin.ext e.symm)
  rw [slotAsked_slots]
  simp [apart]

theorem slotAsked_route (k : EventKind) (o : Occurrence) (s : State) (r : RouteId) : (slotAsked k o s).route r = s.route r :=
  (askWrite_route ..).trans (by cases r <;> rfl)

theorem slotAsked_writes (ha : s.anchor ≠ 0) (hd : s.dev.state ≠ .halted) (k : EventKind) (o : Occurrence) :
    (slotAsked k o s).ntu.writes = putRequest (.slot k.slot) (occurred k o s).bytes s.ntu.writes :=
  askWrite_writes (s := slotTaken k o s) ha hd _ _

/-! ### The cause (R183) -/

theorem routeCause_dropped {sel : RouteSel} (h : sel = .none ∨ s.anchor = 0 ∨ s.dev.state = .halted) : routeCause sel s = s := by
  unfold routeCause
  rcases h with rfl | h
  · exact ite_self _
  · exact if_pos (silent_iff.mpr h)

theorem routeCause_taken (ha : s.anchor ≠ 0) (hd : s.dev.state ≠ .halted) :
    routeCause .a s = takeCause .a s ∧ routeCause .b s = takeCause .b s :=
  ⟨if_neg (not_silent ha hd), if_neg (not_silent ha hd)⟩

/-! ### The bytes of a slot (R181, section 8.1) -/

/-- The fields fill 35 of the slot's 64 bytes, the rest is zero. -/
theorem eventSlot_bytes (e : EventSlot) : e.bytes = leBytes 4 e.count ++ leBytes 4 e.detail.code.toNat
    ++ leBytes 8 e.detail.stamp.toNat ++ leBytes 8 e.detail.gen.toNat ++ leBytes 4 e.detail.logical.toNat
    ++ leBytes 4 e.detail.block.toNat ++ [e.detail.media, e.detail.lane, e.detail.region] ++ List.replicate 29 0 :=
  padTo_of_length (k := 35) (by simp)

/-- Settles O53: `t` is the state in which the slot's write is asked for and the cause not yet handed on (`slotAsked`). -/
theorem eventOccurrenceIsCountedAndWritten : Obligations.EventOccurrenceIsCountedAndWritten := by
  refine ⟨fun k o s => ⟨slotAsked k o s, postEvent_eq_routeCause k o s, (slotAsked_ntuOnly k o s).eq_setNtu, slotAsked_route k o s,
      askWrite_handed .., ?detail, ?count, fun j => slotAsked_slot_other k o s, fun ha hd => ⟨fun fresh => ?joins,
        fun before w after hw target fresh => ?replaces⟩, fun h => ?dropped, ?slots, fun ha hd => ?waits, ?rest⟩,
    fun sel s => ⟨routeCause_dropped, routeCause_taken⟩, fun o tick => rfl, eventSlot_bytes, rfl⟩
  case detail =>
    rw [slotAsked_slot]
    rfl
  case count =>
    rw [slotAsked_slot]
    rfl
  case joins => rw [slotAsked_slot, slotAsked_writes ha hd, putRequest_joins _ fresh]
  case replaces => rw [slotAsked_slot, slotAsked_writes ha hd, hw, putRequest_replaces _ fresh target]
  case dropped => exact congrArg (fun t => t.ntu.writes) (askWrite_dropped (s := slotTaken k o s) h _ _)
  case slots => exact postEvent_slots_eq k o s
  case waits =>
    have asked := postEvent_asks ha hd k o
    rwa [postEvent_slots_eq] at asked
  case rest =>
    have only := postEvent_ntuOnly k o s
    have rest := only.lanesOnly
    exact ⟨rest.device, rest.media, rest.records, only.lanes, only.out⟩

end Sys2Proof.Machine
end
section
/-! O54. The write list's head goes to the LIF (R178, R195), and a write that completes may end a warm reset (R179, R200). -/

namespace Sys2Proof.Machine

variable {s : State}

/-! ### DEVICE_AREA_WRITE (R178) -/

/-- The head of the write list handed to the LIF, the rest left waiting. -/
def handOver (w : WriteReq) (rest : List WriteReq) (s : State) : State :=
  (s.setNtu { s.ntu with writes := rest, handed := s.ntu.handed + (requestOutput s.anchor w).length }).emit
    (requestOutput s.anchor w)

theorem exec_deviceAreaWrite_empty (h : s.ntu.writes = []) : exec .deviceAreaWrite s = .next s := by
  simp only [exec, execDeviceAreaWrite, h]

theorem exec_deviceAreaWrite {w : WriteReq} {rest : List WriteReq} (h : s.ntu.writes = w :: rest) :
    exec .deviceAreaWrite s = .next (handOver w rest s) := by
  simp only [exec, execDeviceAreaWrite, h, handOver]

theorem handOver_lanesOnly (w : WriteReq) (rest : List WriteReq) (s : State) : LanesOnly s (handOver w rest s) :=
  (NtuOnly.set s _).lanesOnly.trans (emit_lanesOnly _ _)

/-- What goes out for the head of the list is counted as handed to the LIF. -/
theorem handOver_outputs {w : WriteReq} {os : List Output} (h : requestOutput s.anchor w = os) (rest : List WriteReq) :
    (handOver w rest s).out = s.out ++ os ∧ (handOver w rest s).ntu.handed = s.ntu.handed + os.length := by
  subst h
  exact ⟨rfl, rfl⟩

/-! ### What goes out for a request (R155, R178, R195) -/

section
variable {w : WriteReq} (anchor : Addr)

theorem requestOutput_slot {k : Fin 10} (h : w.target = .slot k) : requestOutput anchor w
    = [.hostWrite (anchor + BitVec.ofNat 64 (1536 + 64 * k.val) + 4) (w.content.drop 4),
      .hostWrite (anchor + BitVec.ofNat 64 (1536 + 64 * k.val)) (w.content.take 4)] := by
  simp only [requestOutput, h, WriteTarget.offset]

theorem requestOutput_laneStatus {l : LaneId} (h : w.target = .laneStatus l) :
    requestOutput anchor w = [.hostWrite (anchor + BitVec.ofNat 64 (1088 + 64 * l.val)) w.content] := by
  simp only [requestOutput, h, WriteTarget.offset]

/-- The zeros of the unlisted bytes follow the identity entry (log entry 37). -/
theorem requestOutput_identity (h : w.target = .identity) : requestOutput anchor w
    = [.hostWrite (anchor + 1024) w.content, .hostWrite (anchor + 1344) (List.replicate 192 0#8),
      .hostWrite (anchor + 2176) (List.replicate 1920 0#8)] := by
  simp only [requestOutput, h]
  rfl

theorem requestOutput_message {r : RouteId} (h : w.target = .message r) : requestOutput anchor w = [.message r] := by
  simp only [requestOutput, h]

end

/-! ### DEVICE_AREA_WRITE_COMPLETED (R179, R200) -/

/-- One write less is in flight. -/
def writeEnded (s : State) : State := s.setNtu { s.ntu with handed := s.ntu.handed - 1 }

theorem exec_deviceAreaWriteCompleted_none (h : s.ntu.handed = 0) (epoch : Nat) :
    exec (.deviceAreaWriteCompleted epoch) s = .next s :=
  congrArg Host.Outcome.next (if_neg fun g => (h ▸ g.2).false)

theorem exec_deviceAreaWriteCompleted (h : 0 < s.ntu.handed) :
    exec (.deviceAreaWriteCompleted s.lif.epoch) s = .next (resetEndCheck (writeEnded s)) :=
  congrArg Host.Outcome.next (if_pos ⟨awaits_self s, h⟩)

/-- A warm reset may end when none of its work is left, in HALTED without regard to the write list (R200). -/
theorem resetDone_iff_workOver (hr : s.dev.resetInProgress = true) :
    resetDone s = true ↔ ResetWorkOver (s.dev.state = .halted) s := by
  simp only [resetDone, hr, State.halted, allFree, Bool.true_and, Bool.or_eq_true, Bool.and_eq_true, List.all_eq_true, beq_iff_eq,
    List.isEmpty_iff, and_assoc]
  exact ⟨fun ⟨free, off, moves, engine, writes⟩ =>
      ⟨fun x => free x (mem_eight x), fun l => off l (mem_four l), fun v => moves v (mem_four v), engine, writes⟩,
    fun h => ⟨fun x _ => h.contexts x, fun l _ => h.lanes l, fun v _ => h.moves v, h.engine, h.writes⟩⟩

/-- The end of the reset changes nothing that its work is judged by but the device mode. -/
theorem workOver_resetEndCheck_iff (halted : Prop) (s : State) :
    ResetWorkOver halted (resetEndCheck s) ↔ ResetWorkOver halted s := by
  unfold resetEndCheck
  split
  · exact ⟨fun h => ⟨h.contexts, h.lanes, h.moves, h.engine, h.writes⟩,
      fun h => ⟨h.contexts, h.lanes, h.moves, h.engine, h.writes⟩⟩
  · exact .rfl

/-- The test of a warm reset's end changes the device mode, the anchor and the routes alone. -/
theorem resetEndCheck_eq (s : State) : ∃ d anchor high a b, resetEndCheck s
    = { s with dev := d, anchor := anchor, anchorHigh := high, ntu := { s.ntu with routeA := a, routeB := b } } := by
  unfold resetEndCheck
  split
  · exact ⟨_, _, _, _, _, rfl⟩
  · exact ⟨s.dev, s.anchor, s.anchorHigh, s.ntu.routeA, s.ntu.routeB, rfl⟩

/-- A write completes in a warm reset: the reset ends when none of its work is left after it. -/
theorem completed_inReset (hr : s.dev.resetInProgress = true) :
    (ResetWorkOver (s.dev.state = .halted) (resetEndCheck (writeEnded s)) →
        resetEndCheck (writeEnded s) = resetEnd (writeEnded s))
      ∧ (¬ ResetWorkOver (s.dev.state = .halted) (resetEndCheck (writeEnded s)) →
        resetEndCheck (writeEnded s) = writeEnded s) := by
  rw [workOver_resetEndCheck_iff]
  have done := resetDone_iff_workOver (s := writeEnded s) hr
  exact ⟨fun ended => resetEndCheck_ends (done.mpr ended),
    fun left => resetEndCheck_waits (Bool.eq_false_iff.mpr (mt done.mp left))⟩

/-- Settles O54: the head goes out by its target (`requestOutput_slot` and its neighbours), and a completion is the test of a warm
reset's end with one write less in flight. -/
theorem writeListIsIssuedInOrder : Obligations.WriteListIsIssuedInOrder := by
  intro s
  refine ⟨exec_deviceAreaWrite_empty, fun w rest h => ⟨handOver w rest s, exec_deviceAreaWrite h, rfl,
      fun _ target => handOver_outputs (requestOutput_slot s.anchor target) rest,
      fun _ target => handOver_outputs (requestOutput_laneStatus s.anchor target) rest,
      fun target => handOver_outputs (requestOutput_identity s.anchor target) rest,
      fun _ target => handOver_outputs (requestOutput_message s.anchor target) rest, rfl, rfl, rfl, ?handed⟩,
    exec_deviceAreaWriteCompleted_none, fun h hr => ?noReset,
    fun h hr => ⟨_, exec_deviceAreaWriteCompleted h, ?handedCount, ?writes, ?slots, resetEndCheck_out _, ?media, ?records, ?lanes,
      ?lif, fun ended => ?ends, (completed_inReset hr).2⟩⟩
  case handed =>
    have only := handOver_lanesOnly w rest s
    exact ⟨only.device, only.media, only.records, rfl⟩
  case noReset =>
    rw [exec_deviceAreaWriteCompleted h, resetEndCheck_waits (s := writeEnded s) (resetDone_of_none hr)]
    rfl
  case ends =>
    rw [(completed_inReset hr).1 ended]
    exact ⟨rfl, rfl, rfl, resetEnd_route _⟩
  all_goals
    obtain ⟨_, _, _, _, _, e⟩ := resetEndCheck_eq (writeEnded s)
    rw [e]
  case media => exact ⟨rfl, rfl, rfl, rfl, rfl⟩
  case records => exact ⟨rfl, rfl, rfl⟩
  all_goals rfl

end Sys2Proof.Machine
end
section
/-! The device mode along an event (R189, R192, R196 to R200): which changes the internal effects and the tests at an event's end
make, and that each of them keeps the mode bits legal. -/

namespace Sys2Proof.Machine

variable {α : Type} {p : State → α} {s t u : State} {c d : Device}

/-! ### The changes of the device mode at an event -/

/-- What an event's own effects make of the device mode: nothing, the end of the probe that has passed (R192), or the entry to
HALTED (R193, R198). -/
inductive ModeChange (d : Device) : Device → Prop
  | kept : ModeChange d d
  | passed (probing : d.state = .probing) : ModeChange d { d with state := .stopped }
  | halts (cause : FaultCode) (halt : cause.isHaltCause = true) :
    ModeChange d { d with state := .halted, fault := cause, runPending := false }

theorem ModeChange.of_eq {d e : Device} (h : e = d) : ModeChange d e := h ▸ .kept

/-- HALTED is not left but by a reset, and after the probe the mode changes by a halt alone. -/
theorem ModeChange.after_probe {d e : Device} (h : ModeChange d e) (probed : d.state ≠ .probing) :
    e = d ∨ e.state = .halted ∧ e.resetInProgress = d.resetInProgress := by
  cases h with
  | kept => exact .inl rfl
  | passed probing => exact absurd probing probed
  | halts => exact .inr ⟨rfl, rfl⟩

/-- No change leads back to PROBING. -/
theorem ModeChange.probing {d e : Device} (h : ModeChange d e) (probing : e.state = .probing) : e = d := by
  cases h with
  | kept => rfl
  | passed => cases probing
  | halts => cases probing

/-! ### The internal effects -/

theorem CascadeFrame.comp {β : Type} (hp : CascadeFrame p) (g : α → β) : CascadeFrame (fun s => g (p s)) where
  ctx s x v := congrArg g (hp.ctx s x v)
  held x s := congrArg g (hp.held x s)
  region s i v := congrArg g (hp.region s i v)
  patrol s v := congrArg g (hp.patrol s v)
  patrolUnit s u v := congrArg g (hp.patrolUnit s u v)
  ntu s v := congrArg g (hp.ntu s v)
  emit s os := congrArg g (hp.emit s os)
  durable s d := congrArg g (hp.durable s d)
  chan s c v := congrArg g (hp.chan s c v)
  rlt s u v := congrArg g (hp.rlt s u v)

/-- The probe's test apart, no internal effect changes the device mode: it is a part that `handle` leaves when the test's outcome
is not told from the mode before. -/
theorem handle_dev (m : Msg) (s : State) : (handle m s).1.dev = s.dev ∨ (handle m s).1.dev = (probeCheck s).dev := by
  by_cases same : (probeCheck s).dev = s.dev
  · exact .inl (handle_frame cascadeFrame_dev (fun _ _ => rfl) m s same)
  · have left := handle_frame (p := fun t => if t.dev = (probeCheck s).dev then s.dev else t.dev)
      (cascadeFrame_dev.comp fun d => if d = (probeCheck s).dev then s.dev else d) (fun _ _ => rfl) m s (by simp)
    by_cases tested : (handle m s).1.dev = (probeCheck s).dev
    · exact .inr tested
    · rw [if_neg tested, if_neg (Ne.symm same)] at left
      exact .inl left

theorem probeCheck_mode (s : State) : ModeChange s.dev (probeCheck s).dev := by
  unfold probeCheck
  split
  · next h =>
    split
    · next im _ =>
      rw [(probePasses_passed im.width (loadImage im s)).dev, loadImage_dev]
      exact .passed h.1
    · split
      · next n _ =>
        rw [(probePasses_passed n (freshStart s)).dev]
        exact .passed h.1
      · rw [(probeFails_halts (s := s) rfl).1.1]
        exact .halts _ rfl
  · exact .kept

/-- The internal effects change the device mode at most once, at the probe's test. -/
theorem drain_mode (n : Nat) (ms : List Msg) (s : State) : ModeChange s.dev (drain n ms s).dev := by
  induction n generalizing ms s with
  | zero => exact .kept
  | succ n ih =>
    cases ms with
    | nil => exact .kept
    | cons m rest =>
      have next := ih ((handle m s).2 ++ rest) (handle m s).1
      change ModeChange s.dev (drain n ((handle m s).2 ++ rest) (handle m s).1).dev
      rcases handle_dev m s with same | tested
      · rwa [same] at next
      · by_cases probing : (handle m s).1.dev.state = .probing
        · rwa [(tested ▸ probeCheck_mode s : ModeChange s.dev (handle m s).1.dev).probing probing] at next
        · rw [(drain_after_probe cascadeFrame_dev (fun _ _ => rfl) n _ _ probing).2, tested]
          exact probeCheck_mode s

theorem workOff_mode (e : Eff) : ModeChange e.1.dev (workOff e).dev := drain_mode _ _ _

theorem haltEntry_dev (cause : FaultCode) (s : State) :
    (haltEntry cause s).dev = { s.dev with state := .halted, fault := cause, runPending := false } := by
  have view := haltEntry_haltView cause s
  simp only [haltView, Prod.mk.injEq] at view
  exact view.1

/-! ### The tests at an event's end (R197, R200) -/

theorem settleLanes_dev (s : State) : (settleLanes s).dev = s.dev := (settleLanes_lanesOnly s).device.dev

theorem drained_iff : drained s = true ↔ NothingToDrain s := by
  simp only [drained, allFree, Bool.and_eq_true, List.all_eq_true, beq_iff_eq, and_assoc]
  exact ⟨fun ⟨free, lanes, engine⟩ => ⟨fun x => free x (mem_eight x), fun l => lanes l (mem_four l), engine⟩,
    fun h => ⟨fun x _ => h.contexts x, fun l _ => h.lanes l, h.engine⟩⟩

/-- What is left to drain does not depend on the tests at an event's end. -/
theorem nothingToDrain_congr (ctxs : t.ctxs = s.ctxs) (lanes : ∀ l, (t.lane l).reading = (s.lane l).reading)
    (cme : t.cme = s.cme) : NothingToDrain t ↔ NothingToDrain s :=
  ⟨fun h => ⟨fun x => ctx_same ctxs x ▸ h.contexts x, fun l => (lanes l).symm.trans (h.lanes l), cme ▸ h.engine⟩,
    fun h => ⟨fun x => (ctx_same ctxs x).symm ▸ h.contexts x, fun l => (lanes l).trans (h.lanes l), cme.symm ▸ h.engine⟩⟩

theorem nothingToDrain_settleLanes : NothingToDrain (settleLanes s) ↔ NothingToDrain s :=
  nothingToDrain_congr (settleLanes_lanesOnly s).records.ctxs (fun l => (settleLanes_lane l s).reading)
    (settleLanes_lanesOnly s).media.cme

theorem nothingToDrain_finishEvent : NothingToDrain (finishEvent s) ↔ NothingToDrain s :=
  nothingToDrain_congr (finishEvent_keeps s).ctxs (fun l => (finishEvent_lane l s).reading) (finishEvent_keeps s).cme

/-- With no warm reset in progress an event's end changes the device mode from STOPPING to STOPPED, when nothing is left to
drain, and else not at all. -/
theorem finishEvent_noReset (hr : s.dev.resetInProgress = false) :
    finishEvent s = stoppedCheck (settleLanes s) :=
  resetEndCheck_waits (resetDone_of_none (by rw [stoppedCheck_resetInProgress, settleLanes_dev, hr]))

theorem finishEvent_drained (hr : s.dev.resetInProgress = false) (hs : s.dev.state = .stopping) (h : NothingToDrain s) :
    (finishEvent s).dev = { s.dev with state := .stopped } := by
  rw [finishEvent_noReset hr, stoppedCheck, if_pos, setDev_dev, settleLanes_dev]
  rw [settleLanes_dev]
  exact ⟨hs, hr, drained_iff.mpr (nothingToDrain_settleLanes.mpr h)⟩

theorem finishEvent_waits (hr : s.dev.resetInProgress = false) (h : s.dev.state ≠ .stopping ∨ ¬ NothingToDrain s) :
    (finishEvent s).dev = s.dev := by
  rw [finishEvent_noReset hr, stoppedCheck, if_neg, settleLanes_dev]
  rw [settleLanes_dev, drained_iff, nothingToDrain_settleLanes]
  exact fun ⟨stopping, _, drained⟩ => h.elim (fun other => other stopping) fun left => left drained

/-- In a warm reset an event's end is the test of the reset's end on the settled lanes (R200). -/
theorem finishEvent_reset (hr : s.dev.resetInProgress = true) : finishEvent s = resetEndCheck (settleLanes s) := by
  rw [finishEvent, stoppedCheck_reset (by rw [settleLanes_dev, hr])]

theorem finishEvent_reset_cases (hr : s.dev.resetInProgress = true) :
    (ResetWorkOver (s.dev.state = .halted) (finishEvent s) → finishEvent s = resetEnd (settleLanes s))
      ∧ (¬ ResetWorkOver (s.dev.state = .halted) (finishEvent s) → finishEvent s = settleLanes s) := by
  rw [finishEvent_reset hr, workOver_resetEndCheck_iff, ← settleLanes_dev s]
  have done := resetDone_iff_workOver (s := settleLanes s) (by rw [settleLanes_dev, hr])
  exact ⟨fun ended => resetEndCheck_ends (done.mpr ended), fun left => resetEndCheck_waits (Bool.eq_false_iff.mpr (mt done.mp left))⟩

end Sys2Proof.Machine
end
section
/-! How each command ends, seen from the device mode: either the mode stays and no work is taken off the device that it drains, or
the event ends with the tests of `finishEvent`. The commands of the register window and the resets are taken by themselves. -/

namespace Sys2Proof.Machine

variable {s t u : State} {x : CtxId} {l : LaneId}

/-! ### Events without a test at their end -/

/-- The mode stays, and what was left to drain in a STOPPING device is left still. -/
structure Quiet (s t : State) : Prop where
  dev : t.dev = s.dev
  busy : s.dev.state = .stopping → NothingToDrain t → NothingToDrain s

theorem Quiet.refl (s : State) : Quiet s s := ⟨rfl, fun _ h => h⟩

theorem Quiet.of_dev (dev : t.dev = s.dev) (active : s.dev.state ≠ .stopping) : Quiet s t :=
  ⟨dev, fun stopping => absurd stopping active⟩

theorem Quiet.trans (h : Quiet s t) (g : Quiet t u) : Quiet s u :=
  ⟨g.dev.trans h.dev, fun stopping drained => h.busy stopping (g.busy (h.dev ▸ stopping) drained)⟩

/-- Device mode, lanes and commit engine, which the work of a context on itself leaves. -/
def State.modeView (s : State) : Device × Vector Lane 4 × Cme := (s.dev, s.lanes, s.cme)

theorem cascadeFrame_modeView : CascadeFrame State.modeView :=
  ⟨⟨fun _ _ _ => rfl, fun _ _ => rfl, fun _ _ _ => rfl, fun _ _ => rfl, fun _ _ _ => rfl, fun _ _ => rfl,
    fun _ _ => rfl, fun s d => by simp [State.modeView]⟩, fun _ _ _ => rfl, fun _ _ _ => rfl⟩

theorem Quiet.of_view (view : t.modeView = s.modeView)
    (ctxs : s.dev.state = .stopping → ∀ y, (t.ctx y).state = .free → (s.ctx y).state = .free) : Quiet s t := by
  simp only [State.modeView, Prod.mk.injEq] at view
  obtain ⟨dev, lanes, cme⟩ := view
  exact ⟨dev, fun stopping h => ⟨fun y => ctxs stopping y (h.contexts y), fun l => lane_same lanes l ▸ h.lanes l, cme ▸ h.engine⟩⟩

theorem Quiet.of_ctxs (view : t.modeView = s.modeView) (ctxs : t.ctxs = s.ctxs) : Quiet s t :=
  .of_view view fun _ y h => ctx_same ctxs y ▸ h

/-- A lane's own event, when no read in flight is over with it. -/
theorem LanesOnly.quiet (h : LanesOnly s t) (reads : ∀ l, (t.lane l).reading = none → (s.lane l).reading = none) : Quiet s t :=
  ⟨h.device.dev, fun _ drained => ⟨fun y => ctx_same h.records.ctxs y ▸ drained.contexts y, fun l => reads l (drained.lanes l),
    h.media.cme ▸ drained.engine⟩⟩

theorem forEach_quiet {β : Type} {f : β → State → State} (h : ∀ b t, Quiet t (f b t)) (bs : List β) (s : State) :
    Quiet s (forEach bs f s) := by
  induction bs generalizing s with
  | nil => exact .refl s
  | cons b bs ih => exact (h b s).trans (ih (f b s))

/-! ### The contexts (R54, R62) -/

theorem restState_ne_free (c : Context) : c.restState ≠ .free := by
  unfold Context.restState
  (repeat' split) <;> nofun

/-- Outside HALTED no context is FREE because it settles. -/
theorem ctxSettle_free_of (live : s.dev.state ≠ .halted) {y : CtxId} (h : ((ctxSettle x s).ctx y).state = .free) :
    (s.ctx y).state = .free := by
  by_cases settles : (s.ctx x).settles
  · rw [ctxSettle_settles live settles] at h
    by_cases own : y = x
    · subst own
      split at h
      · rw [enterFinishing_ctx] at h
        cases h
      · rw [ctx_setCtx_same] at h
        exact absurd h (restState_ne_free _)
    · split at h
      · rwa [(enterFinishing_ctxOnly x s).ctxs y own] at h
      · rwa [ctx_setCtx_other _ _ _ _ own] at h
  · rwa [ctxSettle_stays live settles] at h

theorem setCtx_free_of {c : Context} (same : c.state = .free → (s.ctx x).state = .free) {y : CtxId}
    (h : ((s.setCtx x c).ctx y).state = .free) : (s.ctx y).state = .free := by
  by_cases own : y = x
  · subst own
    rw [ctx_setCtx_same] at h
    exact same h
  · rwa [ctx_setCtx_other _ _ _ _ own] at h

theorem setCtx_quiet {c : Context} (same : c.state = .free → (s.ctx x).state = .free) : Quiet s (s.setCtx x c) :=
  .of_view rfl fun _ _ h => setCtx_free_of same h

theorem ctxUpdate_quiet {c : Context} (same : c.state = .free → (s.ctx x).state = .free) : Quiet s (ctxUpdate x c s) :=
  .of_view (ctxUpdate_frame cascadeFrame_modeView.toBlockFrame x c s) fun stopping _ h =>
    setCtx_free_of same (ctxSettle_free_of (s := s.setCtx x c) (stopping ▸ nofun) h)

theorem emit_quiet (os : List Output) (s : State) : Quiet s (s.emit os) := .of_ctxs rfl rfl

theorem issueChunk_quiet (x : CtxId) (s : State) : Quiet s (issueChunk x s) :=
  (ctxUpdate_quiet (c := { s.ctx x with cursor := (s.ctx x).cursor + 1, blocks := [⟨(s.ctx x).cursor, .bufferWrite⟩] })
    fun h => h).trans (emit_quiet _ _)

theorem enterFinishing_quiet (x : CtxId) (s : State) : Quiet s (enterFinishing x s) :=
  setCtx_quiet (c := (s.ctx x).finished s.cme.gen s.tick) fun h => nomatch h

theorem refuseRecord_quiet (x : CtxId) (st : Status) (s : State) : Quiet s (refuseRecord x st s) :=
  (setCtx_quiet (c := { s.ctx x with refusal := some st }) fun h => h).trans (enterFinishing_quiet x _)

theorem chunkEnds_quiet (x : CtxId) (j : Nat) (error : Bool) (s : State) : Quiet s (chunkEnds x j error s) := by
  unfold chunkEnds
  dsimp only
  split
  · exact ctxUpdate_quiet fun h => h
  · split
    · exact ctxUpdate_quiet fun h => h
    · exact (setCtx_quiet (c := (s.ctx x).chunkWritten j) fun h => h).trans (issueChunk_quiet x _)

theorem bufferWriteEnds_quiet (x : CtxId) (j : Nat) (error : Bool) (s : State) : Quiet s (bufferWriteEnds x j error s) := by
  unfold bufferWriteEnds
  dsimp only
  split
  · exact chunkEnds_quiet x j error s
  · split
    · exact ctxUpdate_quiet fun h => h
    · exact ctxUpdate_quiet fun h => h

theorem acceptBlocks_quiet (x : CtxId) (s : State) : Quiet s (acceptBlocks x s).1 :=
  .of_view (acceptBlocks_frame cascadeFrame_modeView.toBlockFrame x s) fun _ y h => by
    by_cases own : y = x
    · subst own
      rw [show (acceptBlocks y s).1 = acceptData y s from rfl, acceptData_ctx] at h
      cases h
    · rwa [show (acceptBlocks x s).1 = acceptData x s from rfl, acceptData_ctx_other s own] at h

theorem acceptTableRead_quiet (x : CtxId) (s : State) : Quiet s (acceptTableRead x s).1 := by
  unfold acceptTableRead
  refine Quiet.trans (setCtx_quiet ?_) (issueChunk_quiet x _)
  exact fun h => nomatch h

/-- An access that ends its list read hands no effect on: the record is refused, or its blocks come later (R33). -/
theorem checkAccess_quiet (k : OpKind) (x : CtxId) (s : State) :
    (checkAccess k (acceptListed k) x s).2 = [] ∧ Quiet s (checkAccess k (acceptListed k) x s).1 := by
  unfold checkAccess acceptListed
  dsimp only
  split
  · exact ⟨rfl, refuseRecord_quiet x _ _⟩
  · split
    · exact ⟨rfl, acceptTableRead_quiet x _⟩
    · exact ⟨rfl, acceptBlocks_quiet x _⟩

theorem listReadEnds_quiet (x : CtxId) (read : HostResult Bytes) (s : State) :
    (listReadEnds x read s).2 = [] ∧ Quiet s (listReadEnds x read s).1 := by
  have unlisted : Quiet s (s.setCtx x { s.ctx x with listReading := false }) := setCtx_quiet fun h => h
  have listed (gs : List Segment) : Quiet s (s.setCtx x ((s.ctx x).listed gs)) := setCtx_quiet fun h => h
  unfold listReadEnds
  dsimp only
  split
  · exact ⟨rfl, unlisted.trans (enterFinishing_quiet x _)⟩
  · split
    · exact ⟨rfl, unlisted.trans (refuseRecord_quiet x _ _)⟩
    · split
      · exact ⟨(checkAccess_quiet _ x _).1, (listed _).trans (checkAccess_quiet _ x _).2⟩
      · exact ⟨rfl, unlisted.trans (refuseRecord_quiet x _ _)⟩

/-! ### The lanes (R159, R166) -/

theorem refuseSignal_reading (l k : LaneId) (s : State) : ((refuseSignal l s).lane k).reading = (s.lane k).reading := by
  unfold refuseSignal
  split
  · rw [askStatus_lane, modLane_lane, modLane_lane]
    by_cases own : k = l
    · subst own
      simp
    · simp [own]
  · rfl

/-- A START ends no read (R159). -/
theorem laneStart_quiet (l : LaneId) (s : State) : Quiet s (laneStart l s) := by
  refine (laneStart_lanesOnly l s).quiet fun k h => ?_
  by_cases own : k = l
  · subst own
    have started : ∀ t : State, ((startFromOff k t).lane k).reading ≠ none := fun t => by rw [startFromOff_lane]; nofun
    unfold laneStart at h
    split at h
    · exact absurd h (started s)
    · split at h
      · exact absurd h (started _)
      · rwa [refuseSignal_reading] at h
    · rwa [refuseSignal_reading] at h
  · rwa [laneStart_lane_other l k s own] at h

theorem stopPoll_quiet (l : LaneId) (s : State) : Quiet s (stopPoll l s) := by
  refine (modLane_lanesOnly l _ s).quiet fun k h => ?_
  rw [modLane_lane] at h
  by_cases own : k = l
  · subst own
    rwa [if_pos rfl] at h
  · rwa [if_neg own] at h

end Sys2Proof.Machine
end
section
/-! O57, part 2: the commands beside the register window, each by how it ends. -/

namespace Sys2Proof.Machine

variable {s t u : State} {x : CtxId} {l : LaneId}

/-! ### What the shared operations of the commands leave of the device mode -/

theorem cancelStaged_dev (l : LaneId) (s : State) : (cancelStaged l s).dev = s.dev := by
  rw [cancelStaged_eq]
  rfl

theorem laneAbort_dev (l : LaneId) (s : State) : (laneAbort l s).dev = s.dev := by
  cases active : (s.lane l).active with
  | false => rw [laneAbort_idle active]
  | true =>
    have contexts : ∀ t, (abortContexts l t).dev = t.dev := fun t => by
      unfold abortContexts
      refine forEach_frame (p := State.dev) _ (fun x t => ?_) _ _
      split
      · exact ctxAbort_frame cascadeFrame_dev.toBlockFrame x t
      · rfl
    rw [laneAbort_active active, (laneOff_lanesOnly l _).device.dev, beginAbort, (askStatus_lanesOnly l _).device.dev, contexts,
      cancelStaged_dev]
    rfl

theorem takeBlock_dev (x : CtxId) (s : State) : (takeBlock x s).1.dev = s.dev := by
  unfold takeBlock
  dsimp only
  split
  · split <;> rfl
  · exact issueProgram_frame cascadeFrame_dev.toBlockFrame _ _ _ _
  · exact issueStep_frame cascadeFrame_dev.toBlockFrame _ _ _ _

theorem hostReadEnds_dev (x : CtxId) (j : Nat) (read : HostResult Bytes) (s : State) : (hostReadEnds x j read s).1.dev = s.dev := by
  unfold hostReadEnds
  dsimp only
  split
  · exact ctxUpdate_frame cascadeFrame_dev.toBlockFrame _ _ _
  · split
    · exact ctxUpdate_frame cascadeFrame_dev.toBlockFrame _ _ _
    · exact issueProgram_frame cascadeFrame_dev.toBlockFrame _ _ _ _

theorem finalWrite_dev (x : CtxId) (fs : FinalState) (part : DevicePart) (s : State) : (finalWrite x fs part s).dev = s.dev :=
  (reportFinal_lanesOnly _ _ _ _).device.dev.trans (freeContext_frame cascadeFrame_dev.toBlockFrame _ _)

theorem configRead_dev (l : LaneId) (read : HostResult Bytes) (s : State) : (configRead l read s).dev = s.dev := by
  unfold configRead
  split
  · exact (laneFault_lanesOnly ..).device.dev
  · split
    · exact (laneFault_lanesOnly ..).device.dev
    · split
      · exact (laneFault_lanesOnly ..).device.dev
      · exact (issueFetch_lanesOnly ..).device.dev.trans (askStatus_lanesOnly ..).device.dev

theorem fetched_lanesOnly (l : LaneId) (a : Addr) (read : HostResult Bytes) (s : State) : LanesOnly s (fetched l a read s) := by
  unfold fetched
  split
  · exact laneFault_lanesOnly ..
  · split
    · exact park_lanesOnly ..
    · split
      · exact laneFault_lanesOnly ..
      · exact modLane_lanesOnly ..

theorem linkRead_lanesOnly (l : LaneId) (a : Addr) (read : HostResult Addr) (s : State) : LanesOnly s (linkRead l a read s) := by
  unfold linkRead
  split
  · exact laneFault_lanesOnly ..
  · split
    · exact park_lanesOnly ..
    · split
      · exact ((modLane_lanesOnly ..).trans (laneRetire_lanesOnly ..)).trans (laneFault_lanesOnly ..)
      · exact (((modLane_lanesOnly ..).trans (modLane_lanesOnly ..)).trans (laneRetire_lanesOnly ..)).trans (issueFetch_lanesOnly ..)

theorem drainedLink_lanesOnly (l : LaneId) (read : HostResult Addr) (s : State) : LanesOnly s (drainedLink l read s) := by
  unfold drainedLink
  split
  · exact .refl s
  · split
    · exact .refl s
    · exact ((modLane_lanesOnly ..).trans (modLane_lanesOnly ..)).trans (laneRetire_lanesOnly ..)

theorem takeGrant_dev (l : LaneId) (x : CtxId) (r : Bytes) (s : State) : (takeGrant l x r s).dev = s.dev :=
  (issueLinkRead_lanesOnly ..).device.dev

/-- A grant is made in RUNNING alone, and leaves it. -/
theorem grantRow_quiet (k : OpKind) (s : State) : Quiet s (grantRow k (acceptOf k) s) := by
  unfold grantRow
  split
  · next l x r granted =>
    split
    · have running : s.dev.state = .running := by
        obtain ⟨granted, -, -⟩ := grantOf_eq_some_iff.mp granted
        exact ((eligible_iff s l).mp (grantLane_eligible granted).1).2.2.1
      have taken : (checkRecord k (acceptOf k) x (takeGrant l x r s)).1.dev = s.dev :=
        (checkRecord_frame cascadeFrame_dev.toBlockFrame
          (acceptOf_frame cascadeFrame_dev.toBlockFrame (fun _ _ _ => rfl) x) _).trans (takeGrant_dev l x r s)
      refine .of_dev ?_ (running ▸ nofun)
      rw [workOff_after_probe cascadeFrame_dev (fun _ _ => rfl) _ (by rw [taken, running]; nofun), taken]
    · exact .refl s
  · exact .refl s

/-- A patrol timer: in RUNNING its unit offers and the probe is long over, else it waits in READY (R125, R126, R135). -/
theorem becomeReady_quiet (u : UnitId) (p : PatrolUnit) (s : State) : Quiet s (workOff (becomeReady u (s.setPatrolUnit u p))) := by
  by_cases running : s.dev.state = .running
  · have dev : (becomeReady u (s.setPatrolUnit u p)).1.dev = s.dev := becomeReady_frame cascadeFrame_dev u _
    refine .of_dev ?_ (running ▸ nofun)
    rw [workOff_after_probe cascadeFrame_dev (fun _ _ => rfl) _ (by rw [dev, running]; nofun), dev]
  · rw [becomeReady_notRunning running]
    exact .of_ctxs rfl rfl

theorem NtuOnly.quiet (h : NtuOnly s t) : Quiet s t := by
  obtain ⟨n, rfl⟩ := h
  exact .of_ctxs rfl rfl

/-! ### How a command ends -/

/-- A command's event: quiet, or with the tests an event ends with after its own effects. -/
inductive EventEnds (s t : State) : Prop
  | quiet (h : Quiet s t)
  | finished (u : State) (change : ModeChange s.dev u.dev) (h : t = finishEvent u)

theorem EventEnds.refl (s : State) : EventEnds s s := .quiet (.refl s)

theorem EventEnds.finish (h : u.dev = s.dev) : EventEnds s (finishEvent u) := .finished u (.of_eq h) rfl

theorem EventEnds.run {e : Eff} (h : e.1.dev = s.dev) : EventEnds s (runEvent e) :=
  .finished _ (h ▸ workOff_mode (e.1, e.2 ++ [.closingCheck])) rfl

theorem EventEnds.halts (cause : FaultCode) (h : cause.isHaltCause = true) : EventEnds s (finishEvent (haltEntry cause s)) :=
  .finished (haltEntry cause s) (by rw [haltEntry_dev]; exact .halts cause h) rfl

theorem writeAnswered_ends (cmd : StepCmd) (u : UnitId) (attempt : Nat) (answer : ProgramAnswer) (s : State) :
    EventEnds s (writeAnswered cmd u attempt answer s) := by
  unfold writeAnswered
  split
  · split
    · exact .run (writeEnds_frame cascadeFrame_dev ..)
    · exact .refl s
  · exact .refl s

theorem attemptExpires_ends (u : UnitId) (s : State) : EventEnds s (attemptExpires u s) := by
  unfold attemptExpires
  split
  · split
    · exact .run (postEvent_frame cascadeFrame_dev.toBlockFrame ..)
    · exact .quiet (.of_ctxs rfl rfl)
  · split
    · exact .run (unitLoss_frame cascadeFrame_dev ..)
    · exact .quiet (.of_ctxs rfl rfl)
  · exact .refl s

/-- The commands of the register window that act on the device mode or the anchor, the resets, and the two ends of host accesses
that the device mode is judged by alone. -/
def controls : Instr → Bool
  | .coldReset _ | .run | .runTaken _ _ | .stop | .reset | .anchorHi _ | .anchorLo _ | .controlRefused _ | .resetInputRelease
  | .deviceAreaWriteCompleted _ => true
  | _ => false

theorem grantCommand_ends (k : OpKind) (h : exec (grantCommand k) s = .next t) : EventEnds s t := by
  rw [exec_grantCommand_acceptOf] at h
  cases h
  exact .quiet (grantRow_quiet k s)

/-- How the commands beside the register window end. -/
theorem exec_ends (c : Instr) (hc : controls c = false) (h : exec c s = .next t) : EventEnds s t := by
  cases c
  case start =>
    cases h
    split
    · exact .quiet (forEach_quiet laneStart_quiet _ s)
    · exact .refl s
  case look =>
    cases h
    split
    · next taken =>
      exact .quiet (.of_dev (forEach_frame (p := State.dev) _ (fun l t => (laneLook_lanesOnly l t).device.dev) _ s)
        (taken.2 ▸ nofun))
    · exact .refl s
  case abort =>
    cases h
    split
    · exact .refl s
    · exact .finish (forEach_frame (p := State.dev) _ laneAbort_dev _ s)
  case acknowledge =>
    cases h
    split
    · exact .refl s
    · exact .quiet (forEach_quiet (fun r t => (acknowledgeRoute_ntuOnly r t).quiet) _ s)
  case ignoredWrite => cases h; exact .refl s
  case read => exact grantCommand_ends .read h
  case write => exact grantCommand_ends .write h
  case fill => exact grantCommand_ends .fill h
  case copy => exact grantCommand_ends .copy h
  case verify => exact grantCommand_ends .verify h
  case digest => exact grantCommand_ends .digest h
  case relocate => exact grantCommand_ends .relocate h
  case barrier => exact grantCommand_ends .barrier h
  case tableRead => exact grantCommand_ends .tableRead h
  case startPass => exact grantCommand_ends .startPass h
  case stopPass => exact grantCommand_ends .stopPass h
  case setPatrol => exact grantCommand_ends .setPatrol h
  case regionDefine => exact grantCommand_ends .regionDefine h
  case regionDelete => exact grantCommand_ends .regionDelete h
  case regionGuard => exact grantCommand_ends .regionGuard h
  case regionRelease => exact grantCommand_ends .regionRelease h
  case regionFix => exact grantCommand_ends .regionFix h
  case lockdown => exact grantCommand_ends .lockdown h
  case badOp => exact grantCommand_ends .badOp h
  case listReadEnd x read epoch =>
    cases h
    split
    · obtain ⟨none, quiet⟩ := listReadEnds_quiet x read s
      rw [show listReadEnds x read s = ((listReadEnds x read s).1, []) from Prod.ext rfl none, workOff_none]
      exact .quiet quiet
    · exact .refl s
  case takeBlock =>
    cases h
    split
    · exact .run ((ctxSettle_frame cascadeFrame_dev.toBlockFrame _ _).trans (takeBlock_dev _ s))
    · exact .refl s
  case hostReadEnd =>
    cases h
    split
    · exact .run (hostReadEnds_dev ..)
    · exact .refl s
  case bufferWriteEnd =>
    cases h
    split
    · exact .quiet (bufferWriteEnds_quiet ..)
    · exact .refl s
  case finalWrite =>
    cases h
    split
    · split
      · exact .refl s
      · exact .finish (finalWrite_dev ..)
    · exact .refl s
  case resultError =>
    cases h
    split
    · exact .halts _ rfl
    · exact .refl s
  case configReadEnd =>
    cases h
    split
    · refine .finish ?_
      split
      · rfl
      · exact configRead_dev ..
    · exact .refl s
  case fetchEnd =>
    cases h
    split
    · refine .finish ?_
      split
      · rfl
      · exact (fetched_lanesOnly ..).device.dev
    · exact .refl s
  case linkReadEnd =>
    cases h
    split
    · refine .finish ?_
      split
      · exact (drainedLink_lanesOnly ..).device.dev
      · exact (linkRead_lanesOnly ..).device.dev
    · exact .refl s
  case pollExpiry l =>
    cases h
    split
    · split
      · split
        · next due =>
          exact .quiet (.of_dev (reread_lanesOnly l _).device.dev (by rw [(Bool.and_eq_true_iff.mp due).2 |> beq_iff_eq.mp]; nofun))
        · exact .quiet (stopPoll_quiet l s)
      · exact .refl s
    · exact .refl s
  case identifyAnswer =>
    cases h
    split
    · split
      · exact .run rfl
      · exact .refl s
    · exact .refl s
  case readAnswer =>
    cases h
    split
    · split
      · exact .run (readEnds_frame cascadeFrame_dev ..)
      · exact .refl s
    · exact .refl s
  case programAnswer => cases h; exact writeAnswered_ends ..
  case clearAnswer => cases h; exact writeAnswered_ends ..
  case noResponse =>
    cases h
    split
    · exact attemptExpires_ends ..
    · exact .refl s
  case paceExpiry u =>
    cases h
    split
    · split
      · unfold paceExpires
        dsimp only
        split
        · exact .quiet (becomeReady_quiet u _ s)
        · rw [workOff_none]
          exact .quiet (.of_ctxs rfl rfl)
      · exact .refl s
    · exact .refl s
  case settleExpiry u =>
    cases h
    split
    · split
      · unfold settleExpires
        dsimp only
        split
        · exact .quiet (becomeReady_quiet u _ s)
        · rw [workOff_none]
          exact .quiet (.of_ctxs rfl rfl)
      · exact .refl s
    · exact .refl s
  case deviceAreaWrite =>
    cases h
    split
    · exact .refl s
    · exact .quiet (.of_ctxs rfl rfl)
  case deviceAreaError =>
    cases h
    split
    · exact .halts _ rfl
    · exact .refl s
  case holdExpiry =>
    cases h
    split
    · split
      · exact .quiet (sendRoute_ntuOnly ..).quiet
      · exact .refl s
    · exact .refl s
  all_goals exact Bool.noConfusion hc

end Sys2Proof.Machine
end
section
/-! O57: every step keeps the anchor page-aligned and the mode bits legal (R189, R194, R196, R200). -/

namespace Sys2Proof.Machine

variable {α : Type} {p : State → α} {s t u : State}

/-! ### The legal mode bits -/

theorem ModesLegal.of_dev (f : ModesLegal s) (dev : t.dev = s.dev) : ModesLegal t := by
  constructor <;> rw [dev]
  exacts [f.runPending, f.reset, f.fault]

/-- A probe that passes had no bit set, and a halt withdraws the RUN and shows its cause. -/
theorem ModesLegal.change (f : ModesLegal s) (h : ModeChange s.dev t.dev) : ModesLegal t := by
  generalize e : t.dev = d at h
  cases h with
  | kept => exact f.of_dev e
  | passed probing =>
    constructor <;> rw [e]
    · exact fun _ => rfl
    · intro reset
      rcases f.reset reset with h | h <;> rw [probing] at h <;> cases h
    · rw [f.fault, probing]
      exact ⟨fun h => (nomatch h), fun h => (nomatch h)⟩
  | halts cause halt =>
    constructor <;> rw [e]
    · exact fun h => (nomatch h)
    · exact fun _ => .inr rfl
    · exact ⟨fun _ => rfl, fun _ => halt⟩

theorem modesLegal_resetEnd (s : State) : ModesLegal (resetEnd s) where
  runPending _ := rfl
  reset h := nomatch h
  fault := ⟨fun h => (nomatch h), fun h => (nomatch h)⟩

theorem ModesLegal.resetEndCheck (f : ModesLegal s) : ModesLegal (resetEndCheck s) := by
  unfold Machine.resetEndCheck
  split
  · exact modesLegal_resetEnd s
  · exact f

theorem ModesLegal.stoppedCheck (f : ModesLegal s) : ModesLegal (stoppedCheck s) := by
  unfold Machine.stoppedCheck
  split
  · next ends =>
    refine ⟨fun _ => rfl, fun reset => absurd reset (Bool.eq_false_iff.mp ends.2.1), ?_⟩
    exact f.fault.trans ⟨fun h => absurd (ends.1.symm.trans h) nofun, fun h => (nomatch h)⟩
  · exact f

theorem ModesLegal.finishEvent (f : ModesLegal s) : ModesLegal (finishEvent s) :=
  ((f.of_dev (settleLanes_dev s)).stoppedCheck).resetEndCheck

theorem ModesLegal.ends (f : ModesLegal s) (h : EventEnds s t) : ModesLegal t := by
  cases h with
  | quiet h => exact f.of_dev h.dev
  | finished u change h => exact h ▸ (f.change change).finishEvent

/-- A fault code that no halt causes may be shown outside HALTED. -/
theorem ModesLegal.code (f : ModesLegal s) {c : FaultCode} (hc : c.isHaltCause = false) (live : s.dev.state ≠ .halted) :
    ModesLegal (s.setDev { s.dev with fault := c }) :=
  ⟨f.runPending, f.reset, ⟨fun h => absurd (hc.symm.trans h) nofun, fun h => absurd h live⟩⟩

theorem takeAction_live (live : s.dev.state ≠ .halted) : s.takeAction = s.setDev { s.dev with fault := .none } := by
  simp [State.takeAction, State.halted, live]

theorem takeAction_halted (h : s.dev.state = .halted) : s.takeAction = s := by
  simp [State.takeAction, State.halted, h]

theorem refuseAction_live (live : s.dev.state ≠ .halted) (c : FaultCode) :
    s.refuseAction c = s.setDev { s.dev with fault := c } := by
  simp [State.refuseAction, State.halted, live]

theorem refuseAction_halted (h : s.dev.state = .halted) (c : FaultCode) : s.refuseAction c = s := by
  simp [State.refuseAction, State.halted, h]

theorem ModesLegal.takeAction (f : ModesLegal s) : ModesLegal s.takeAction := by
  by_cases halted : s.dev.state = .halted
  · rwa [takeAction_halted halted]
  · rw [takeAction_live halted]
    exact f.code rfl halted

theorem ModesLegal.refuseAction (f : ModesLegal s) {c : FaultCode} (hc : c.isHaltCause = false) : ModesLegal (s.refuseAction c) := by
  by_cases halted : s.dev.state = .halted
  · rwa [refuseAction_halted halted]
  · rw [refuseAction_live halted]
    exact f.code hc halted

/-! ### Resets (R200, R201) -/

theorem beginProbe_dev (s : State) : (beginProbe s).dev = s.dev := 
  forEach_frame (p := State.dev) _ (fun _ _ => (cascadeFrame_dev.emit _ _).trans (cascadeFrame_dev.chan _ _ _)) _ _

theorem coldReset_dev (source : ResetSource) (s : State) :
    (coldReset source s).dev = ⟨.probing, .none, false, false, inputAfter source s.dev.resetAsserted⟩ := by
  unfold coldReset
  dsimp only
  split
  · rfl
  · exact beginProbe_dev _

theorem resetDevice_dev (s : State) : (resetDevice s).dev = { s.takeAction.dev with
    resetInProgress := true, runPending := false, state := if s.dev.state = .halted then .halted else .stopping } := by
  simp [resetDevice, State.halted]

/-- The lanes at a warm reset (R176, R200). -/
def resetLane (l : LaneId) (s : State) : State := if s.halted then laneHaltedAbort l s else laneAbort l s

theorem laneHaltedAbort_lanesOnly (l : LaneId) (s : State) : LanesOnly s (laneHaltedAbort l s) := by
  unfold laneHaltedAbort
  split
  · exact .refl s
  · exact .refl s
  · exact modLane_lanesOnly ..

theorem resetLane_dev (l : LaneId) (s : State) : (resetLane l s).dev = s.dev := by
  unfold resetLane
  split
  · exact (laneHaltedAbort_lanesOnly l s).device.dev
  · exact laneAbort_dev l s

/-- What the warm reset of lanes and channels leaves, before patrol's and the relocation tables' (R200). -/
def resetChannels (s : State) : Eff := effEach four chanReset (forEach four resetLane s)

theorem resetBlocks_eq (s : State) : resetBlocks s
    = ((effEach four rltReset (resetChannels s).1).1,
        (resetChannels s).2 ++ ((patrolReset (resetChannels s).1).2 ++ (effEach four rltReset (resetChannels s).1).2)) := by
  have lanes : (fun (l : LaneId) (t : State) => if t.halted then laneHaltedAbort l t else laneAbort l t) = resetLane := rfl
  simp only [resetBlocks, andThen, resetChannels, patrolReset_fst, List.nil_append, lanes]

/-- A part of the state that the lanes' reset leaves and no update of a block touches is left by the reset of the blocks. -/
theorem resetBlocks_frame (hp : CascadeFrame p) (hl : ∀ l t, p (resetLane l t) = p t) (s : State) :
    p (resetBlocks s).1 = p s := by
  rw [resetBlocks_eq, resetChannels, effEach_frame rltReset (fun u t => rltReset_frame hp u t),
    effEach_frame chanReset (fun u t => chanReset_frame hp u t), forEach_frame resetLane hl]

/-- The blocks' part of a warm reset, with the closing regions' test at its end. -/
def resetEffects (s : State) : Eff :=
  ((resetBlocks (resetDevice s)).1, (resetBlocks (resetDevice s)).2 ++ [.closingCheck])

/-- A warm reset up to the tests of its event's end. -/
def resetWorked (s : State) : State := forEach eight ctxSettle (workOff (resetEffects s))

theorem warmReset_eq (s : State) : warmReset s = finishEvent (resetWorked s) := rfl

theorem resetDevice_probed (s : State) : (resetDevice s).dev.state ≠ .probing := by
  rw [resetDevice_dev]
  dsimp only
  split <;> nofun

theorem settleWorked_frame (hp : CascadeFrame p) (hc : ∀ (t : State) (c : Cme), p (t.setCme c) = p t) (e : Eff)
    (probed : e.1.dev.state ≠ .probing) : p (forEach eight ctxSettle (workOff e)) = p e.1 :=
  (forEach_frame ctxSettle (fun x t => ctxSettle_frame hp.toBlockFrame x t) _ _).trans (workOff_after_probe hp hc e probed)

/-- Device mode apart, what the reset of the blocks leaves is left until the tests of the event's end. -/
theorem resetWorked_frame (hp : CascadeFrame p) (hc : ∀ (t : State) (c : Cme), p (t.setCme c) = p t)
    (hl : ∀ l t, p (resetLane l t) = p t) (s : State) : p (resetWorked s) = p (resetDevice s) := by
  have probed : (resetEffects s).1.dev.state ≠ .probing := by
    rw [resetEffects, resetBlocks_frame cascadeFrame_dev resetLane_dev]
    exact resetDevice_probed s
  calc p (resetWorked s) = p (forEach eight ctxSettle (workOff (resetEffects s))) := by rw [resetWorked]
    _ = p (resetEffects s).1 := settleWorked_frame hp hc (resetEffects s) probed
    _ = p (resetBlocks (resetDevice s)).1 := by rw [resetEffects]
    _ = p (resetDevice s) := resetBlocks_frame hp hl (resetDevice s)

theorem resetWorked_dev (s : State) : (resetWorked s).dev = (resetDevice s).dev :=
  resetWorked_frame cascadeFrame_dev (fun _ _ => rfl) resetLane_dev s

theorem ModesLegal.warmReset (f : ModesLegal s) : ModesLegal (warmReset s) := by
  rw [warmReset_eq]
  refine ModesLegal.finishEvent ?_
  have action := f.takeAction.fault
  have same : s.takeAction.dev.state = s.dev.state := by
    by_cases halted : s.dev.state = .halted
    · rw [takeAction_halted halted]
    · rw [takeAction_live halted]
      rfl
  rw [same] at action
  constructor <;> rw [resetWorked_dev, resetDevice_dev]
  · exact fun h => (nomatch h)
  · intro _
    dsimp only
    split
    · exact .inr rfl
    · exact .inl rfl
  · refine action.trans ?_
    dsimp only
    split
    · next halted => exact ⟨fun _ => rfl, fun _ => halted⟩
    · next live => exact ⟨fun h => absurd h live, fun h => (nomatch h)⟩

/-! ### RUN (R196) -/

theorem enterRunning_event (hp : DeviceFrame p) (hs : ∀ (t : State) (d : Device) (v : Settings), p { t with dev := d, settings := v } = p t)
    (read : HostResult Bytes) (s : State) : p (enterRunning read s) = p s := by
  unfold enterRunning
  dsimp only
  rw [applyThreshold_event hp, applyThreshold_event hp, forEach_frame laneRun (laneRun_event hp), hs, takeAction_event hp]

theorem enterRunning_dev (live : s.dev.state ≠ .halted) (read : HostResult Bytes) :
    (enterRunning read s).dev = { s.dev with state := .running, runPending := false, fault := .none } := by
  unfold enterRunning
  dsimp only
  rw [(applyThreshold_ntuOnly ..).lanesOnly.device.dev, (applyThreshold_ntuOnly ..).lanesOnly.device.dev,
    forEach_frame (p := State.dev) laneRun (fun l t => (laneRun_lanesOnly l t).device.dev), takeAction_live live]
  rfl

theorem runTaken_dev (live : s.dev.state ≠ .halted) (read : HostResult Bytes) :
    (workOff (enterRunning read s, readyUnits (enterRunning read s))).dev
      = { s.dev with state := .running, runPending := false, fault := .none } := by
  have dev := enterRunning_dev live read
  rw [workOff_after_probe cascadeFrame_dev (fun _ _ => rfl) _ (by rw [dev]; nofun), dev]

/-! ### Every command keeps the mode bits legal -/

theorem execRun_legal (f : ModesLegal s) (h : exec .run s = .next t) : ModesLegal t := by
  cases h
  split
  · next stopped =>
    split
    · exact f
    · split
      · exact f.refuseAction rfl
      · unfold runRequested
        rw [takeAction_live (stopped ▸ nofun)]
        exact ⟨fun _ => stopped, f.reset, ⟨fun h => (nomatch h), fun h => absurd (stopped.symm.trans h) nofun⟩⟩
  · exact f
  · exact f.refuseAction rfl
  · exact f.refuseAction rfl
  · exact f

theorem execRunTaken_legal (f : ModesLegal s) {read : HostResult Bytes} {number : Nat} (h : exec (.runTaken read number) s = .next t) :
    ModesLegal t := by
  cases h
  split
  · next taken =>
    have stopped := f.runPending (Bool.and_eq_true_iff.mp taken).1
    have noReset : s.dev.resetInProgress ≠ true := fun reset => by
      rcases f.reset reset with h | h <;> rw [stopped] at h <;> cases h
    constructor <;> rw [runTaken_dev (stopped ▸ nofun)]
    · exact fun h => (nomatch h)
    · exact fun reset => absurd reset noReset
    · exact ⟨fun h => (nomatch h), fun h => (nomatch h)⟩
  · exact f

theorem execStop_legal (f : ModesLegal s) (h : exec .stop s = .next t) : ModesLegal t := by
  cases h
  split
  · next running =>
    rw [takeAction_live (running ▸ nofun)]
    refine ModesLegal.finishEvent ⟨fun pending => ?_, fun _ => .inl rfl, ⟨fun h => (nomatch h), fun h => (nomatch h)⟩⟩
    exact absurd (running.symm.trans (f.runPending pending)) nofun
  · next stopped =>
    split
    · rw [takeAction_live (stopped ▸ nofun)]
      exact ⟨fun h => (nomatch h), f.reset, ⟨fun h => (nomatch h), fun h => absurd (stopped.symm.trans h) nofun⟩⟩
    · exact f
  · exact f
  · exact f.refuseAction rfl
  · exact f

theorem initDeviceArea_dev (s : State) : (initDeviceArea s).dev = s.dev := rfl

theorem setAnchor_dev (a : Addr) (s : State) : (setAnchor a s).dev = s.dev := by
  unfold setAnchor
  dsimp only
  split <;> rfl

/-- Every command keeps the mode bits legal. -/
theorem exec_legal (f : ModesLegal s) (c : Instr) (h : exec c s = .next t) : ModesLegal t := by
  by_cases beside : controls c = false
  · exact f.ends (exec_ends c beside h)
  · cases c
    case coldReset source =>
      cases h
      constructor <;> rw [coldReset_dev]
      · exact fun h => (nomatch h)
      · exact fun h => (nomatch h)
      · exact ⟨fun h => (nomatch h), fun h => (nomatch h)⟩
    case run => exact execRun_legal f h
    case runTaken => exact execRunTaken_legal f h
    case stop => exact execStop_legal f h
    case reset =>
      cases h
      split
      · exact f.warmReset
      · exact f
    case anchorHi =>
      cases h
      split
      · exact f.takeAction.of_dev rfl
      · exact f.refuseAction rfl
    case anchorLo =>
      cases h
      split
      · exact f.takeAction.of_dev (setAnchor_dev _ _)
      · exact f.refuseAction rfl
    case controlRefused =>
      cases h
      exact f.refuseAction rfl
    case resetInputRelease =>
      cases h
      split
      · constructor <;> rw [beginProbe_dev]
        exacts [f.runPending, f.reset, f.fault]
      · exact f
    case deviceAreaWriteCompleted =>
      cases h
      split
      · exact ModesLegal.resetEndCheck (f.of_dev rfl)
      · exact f
    all_goals exact absurd rfl beside

/-! ### Every command keeps the anchor page-aligned (R194) -/

theorem AnchorAligned.settled (f : AnchorAligned s) (h : Settled State.anchor s t) : AnchorAligned t := by
  obtain ⟨u, same, rfl | rfl⟩ := h
  · exact (congrArg (BitVec.extractLsb' 0 12) same).trans f
  · exact BitVec.extractLsb'_zero

theorem extractLsb'_append_low (high low : Word32) : (high ++ low : Addr).extractLsb' 0 12 = low.extractLsb' 0 12 := by
  ext i hi
  rw [BitVec.getElem_extractLsb', BitVec.getElem_extractLsb', Nat.zero_add, BitVec.getLsbD_append]
  simp [show i < 32 by omega]

theorem setAnchor_anchor (a : Addr) (s : State) : (setAnchor a s).anchor = a := by
  unfold setAnchor
  dsimp only
  split <;> rfl

theorem coldReset_anchor (source : ResetSource) (s : State) : (coldReset source s).anchor = 0 := by
  unfold coldReset
  dsimp only
  split
  · rfl
  · exact beginProbe_event eventFrame_anchor _

/-- Every command keeps the anchor page-aligned: only ANCHOR_LO gives it a value other than 0, and tests the value. -/
theorem exec_aligned (f : AnchorAligned s) (c : Instr) (h : exec c s = .next t) : AnchorAligned t := by
  by_cases other : writesDevice c = false
  · exact f.settled (exec_event eventFrame_anchor c s t other h)
  · cases c
    case coldReset source =>
      cases h
      rw [AnchorAligned, coldReset_anchor]
      exact BitVec.extractLsb'_zero
    case runTaken =>
      refine f.settled (.of_eq ?_)
      cases h
      split
      · rw [workOff_event eventFrame_anchor, enterRunning_event eventFrame_anchor.toDeviceFrame (fun _ _ _ => rfl)]
      · rfl
    case anchorHi =>
      refine f.settled (.of_eq ?_)
      cases h
      split
      · exact takeAction_event eventFrame_anchor.toDeviceFrame s
      · exact refuseAction_event eventFrame_anchor.toDeviceFrame _ s
    case anchorLo value =>
      cases h
      split
      · next taken =>
        rw [AnchorAligned, setAnchor_anchor, extractLsb'_append_low]
        exact beq_iff_eq.mp (Bool.and_eq_true_iff.mp taken).2
      · exact f.settled (.of_eq (refuseAction_event eventFrame_anchor.toDeviceFrame _ s))
    case lockdown =>
      cases h
      exact f.settled (.of_eq (grantRow_event eventFrame_anchor _ _ s fun x t =>
        enterFinishing_frame eventFrame_anchor.toBlockFrame _ _))
    all_goals exact absurd rfl other

/-- Settles O57: an idle step changes neither, and every command keeps both (`exec_aligned`, `exec_legal`). -/
theorem anchorStaysAlignedAndModesLegal : Obligations.AnchorStaysAlignedAndModesLegal := by
  intro s t h
  unfold step at h
  split at h
  · cases h
    exact ⟨id, fun f => f.of_dev rfl⟩
  · next c rest _ =>
    exact ⟨fun f => exec_aligned (s := { s with pending := rest }) f c h,
      fun f => exec_legal (s := { s with pending := rest }) (f.of_dev rfl) c h⟩

end Sys2Proof.Machine
end
section
/-! O6, the cold reset and the release of the reset input (R192, R201, section 10.8). -/

namespace Sys2Proof.Machine

variable {s t u : State}

/-! ### IDENTIFY goes out (R192) -/

/-- A channel that sends IDENTIFY with a fresh answer timer. -/
def Channel.identifying (c : Channel) (tick : Tick) : Channel :=
  { c with link := .identify false (c.sent + 1) (tick + 2000), sent := c.sent + 1 }

/-- IDENTIFY goes out on one channel. -/
def sendIdentify (u : UnitId) (s : State) : State :=
  (s.setChan u ((s.chan u).identifying s.tick)).emit [.media u ((s.chan u).sent + 1) .identify]

theorem beginProbe_forEach (s : State) : beginProbe s = forEach four sendIdentify s := rfl

theorem forEach_sendIdentify (xs : List UnitId) (hn : xs.Nodup) (s : State) :
    (∃ cs, forEach xs sendIdentify s
        = { s with chans := cs, out := s.out ++ xs.map fun u => .media u ((s.chan u).sent + 1) .identify })
      ∧ (∀ u ∉ xs, (forEach xs sendIdentify s).chan u = s.chan u)
      ∧ ∀ u ∈ xs, (forEach xs sendIdentify s).chan u = (s.chan u).identifying s.tick := by
  induction xs generalizing s with
  | nil => exact ⟨⟨s.chans, by simp [forEach]⟩, fun _ _ => rfl, by simp⟩
  | cons a xs ih =>
    obtain ⟨ha, hn⟩ := List.nodup_cons.mp hn
    have own : (sendIdentify a s).chan a = (s.chan a).identifying s.tick := chan_setChan_same ..
    have other : ∀ u, u ≠ a → (sendIdentify a s).chan u = s.chan u := fun u ne => chan_setChan_other _ _ _ _ ne
    obtain ⟨⟨cs, rest⟩, outside, inside⟩ := ih hn (sendIdentify a s)
    refine ⟨⟨cs, ?_⟩, fun u hu => ?_, fun u hu => ?_⟩
    · have sends : xs.map (fun u => Output.media u (((sendIdentify a s).chan u).sent + 1) .identify)
          = xs.map fun u => Output.media u ((s.chan u).sent + 1) .identify :=
        List.map_congr_left fun u hu => by rw [other u fun e => ha (e ▸ hu)]
      rw [sends] at rest
      change forEach xs sendIdentify (sendIdentify a s) = _
      rw [rest, List.map_cons]
      simp [sendIdentify, State.emit]
    · obtain ⟨ne, hu⟩ := not_or.mp (mt List.mem_cons.mpr hu)
      exact (outside u hu).trans (other u ne)
    · rcases List.mem_cons.mp hu with rfl | hu
      · exact (outside _ ha).trans own
      · exact (inside u hu).trans (by rw [other u fun e => ha (e ▸ hu)]; rfl)

/-- The probe begins: channels and links change, and nothing else (R192). -/
theorem beginProbe_eq (s : State) : ∃ cs, beginProbe s = { s with
    chans := cs, out := s.out ++ [0, 1, 2, 3].map fun u => .media u ((s.chan u).sent + 1) .identify } :=
  (forEach_sendIdentify four four_nodup s).1

theorem beginProbe_chan (s : State) (u : UnitId) : (beginProbe s).chan u = (s.chan u).identifying s.tick :=
  (forEach_sendIdentify four four_nodup s).2.2 u (mem_four u)

/-! ### COLD_RESET and RESET_INPUT_RELEASE (R201, section 10.8) -/

theorem coldState_chan (source : ResetSource) (s : State) (u : UnitId) :
    (coldState source s).chan u = Channel.cold (s.chan u).sent := getElem_mapVec ..

theorem coldReset_held {source : ResetSource} (h : inputAfter source s.dev.resetAsserted = true) :
    coldReset source s = coldState source s := if_pos h

theorem coldReset_probes {source : ResetSource} (h : inputAfter source s.dev.resetAsserted = false) :
    coldReset source s = beginProbe (coldState source s) := if_neg (Bool.eq_false_iff.mp h)

theorem exec_release_idle (h : s.dev.resetAsserted = false) : exec .resetInputRelease s = .next s :=
  congrArg Host.Outcome.next (if_neg (Bool.eq_false_iff.mp h))

theorem exec_release_held (h : s.dev.resetAsserted = true) :
    exec .resetInputRelease s = .next (beginProbe (s.setDev { s.dev with resetAsserted := false })) :=
  congrArg Host.Outcome.next (if_pos h)

/-- Settles O6: the cold values stand in `coldState`, and `beginProbe` is the four sendings. -/
theorem coldResetAndReleaseStartTheProbe : Obligations.ColdResetAndReleaseStartTheProbe := by
  refine ⟨fun source s => ⟨coldReset source s, rfl, ?_⟩, fun s => ⟨exec_release_idle, fun held => ⟨_, exec_release_held held, ?_⟩⟩⟩
  · cases input : inputAfter source s.dev.resetAsserted with
    | true =>
      rw [coldReset_held input]
      refine ⟨congrArg (Device.mk _ _ _ _) input, rfl, rfl, rfl, rfl, rfl, rfl, rfl, rfl, rfl, rfl, rfl, rfl, rfl, rfl, rfl, rfl,
        rfl, rfl, rfl, (List.append_nil _).symm, fun u => ?_⟩
      rw [coldState_chan]
      exact ⟨rfl, rfl, rfl, rfl, rfl, rfl, rfl, rfl, rfl, rfl, rfl⟩
    | false =>
      rw [coldReset_probes input]
      have chan (u : UnitId) : (beginProbe (coldState source s)).chan u = (Channel.cold (s.chan u).sent).identifying 0 := by
        rw [beginProbe_chan, coldState_chan]
        rfl
      obtain ⟨cs, e⟩ := beginProbe_eq (coldState source s)
      simp only [coldState_chan] at e
      rw [e] at chan ⊢
      refine ⟨congrArg (Device.mk _ _ _ _) input, rfl, rfl, rfl, rfl, rfl, rfl, rfl, rfl, rfl, rfl, rfl, rfl, rfl, rfl, rfl, rfl,
        rfl, rfl, rfl, rfl, fun u => ?_⟩
      rw [chan u]
      exact ⟨rfl, rfl, rfl, rfl, rfl, rfl, rfl, rfl, rfl, rfl, rfl⟩
  · have chan := beginProbe_chan (s.setDev { s.dev with resetAsserted := false })
    obtain ⟨cs, e⟩ := beginProbe_eq (s.setDev { s.dev with resetAsserted := false })
    rw [e] at chan ⊢
    exact ⟨rfl, rfl, chan, rfl, rfl, rfl, rfl, rfl, rfl, rfl, rfl, rfl, rfl⟩

end Sys2Proof.Machine
end
section
/-! O11, STOP and the end of STOPPING (R197). -/

namespace Sys2Proof.Machine

variable {s t u : State}

/-! ### STOP by device state -/

/-- A RUNNING device that has taken STOP, before the tests of the event's end. -/
def stopTaken (s : State) : State := s.setDev { s.dev with state := .stopping, fault := .none }

theorem exec_stop_running (h : s.dev.state = .running) : exec .stop s = .next (finishEvent (stopTaken s)) := by
  change execStop s = _
  rw [execStop, takeAction_live (h ▸ nofun)]
  simp only [h]
  rfl

theorem exec_stop_stopped (h : s.dev.state = .stopped) : exec .stop s = .next (if s.dev.runPending then
    { s with dev := { s.dev with fault := .none, runPending := false } } else s) := by
  change execStop s = _
  rw [execStop, takeAction_live (h ▸ nofun)]
  simp only [h]
  rfl

theorem exec_stop_ignored (h : s.dev.state = .stopping ∨ s.dev.state = .halted) : exec .stop s = .next s := by
  change execStop s = _
  rcases h with h | h <;> simp only [execStop, h]

theorem exec_stop_probing (h : s.dev.state = .probing) :
    exec .stop s = .next { s with dev := { s.dev with fault := .controlRefused } } := by
  change execStop s = _
  rw [execStop, refuseAction_live (h ▸ nofun)]
  simp only [h]
  rfl

theorem stopTaken_drained : NothingToDrain (stopTaken s) ↔ NothingToDrain s := nothingToDrain_congr rfl (fun _ => rfl) rfl

/-- With no warm reset in progress an event's end writes device mode, lanes and notification unit alone. -/
theorem finishEvent_noReset_eq (hr : s.dev.resetInProgress = false) :
    ∃ d ls n o, finishEvent s = { s with dev := d, lanes := ls, ntu := n, out := o } := by
  rw [finishEvent_noReset hr]
  exact stoppedCheck_settleLanes_eq s

/-! ### How a command leaves a STOPPING device -/

/-- STOPPING with work left, STOPPED without, or HALTED. -/
def StoppingKept (t : State) : Prop :=
  (t.dev.state = .stopping ∧ ¬ NothingToDrain t) ∨ (t.dev.state = .stopped ∧ NothingToDrain t) ∨ t.dev.state = .halted

section
variable (stopping : s.dev.state = .stopping) (noReset : s.dev.resetInProgress = false) (busy : ¬ NothingToDrain s)
include stopping busy

theorem StoppingKept.of_quiet (state : t.dev.state = s.dev.state) (drained : NothingToDrain t → NothingToDrain s) :
    StoppingKept t := .inl ⟨state.trans stopping, mt drained busy⟩

theorem StoppingKept.of_same (state : t.dev.state = s.dev.state) (ctxs : t.ctxs = s.ctxs) (lanes : t.lanes = s.lanes)
    (cme : t.cme = s.cme) : StoppingKept t :=
  .of_quiet stopping busy state (nothingToDrain_congr ctxs (fun l => congrArg Lane.reading (lane_same lanes l)) cme).mp

include noReset

/-- The tests of an event's end decide between STOPPING and STOPPED by what is left to drain, unless the event has halted the
device. -/
theorem StoppingKept.ends (h : EventEnds s t) : StoppingKept t := by
  cases h with
  | quiet h => exact .of_quiet stopping busy (congrArg Device.state h.dev) (h.busy stopping)
  | finished u change h =>
    subst h
    rcases change.after_probe (stopping ▸ nofun) with same | ⟨halted, reset⟩
    · by_cases drained : NothingToDrain u
      · refine .inr (.inl ⟨?_, nothingToDrain_finishEvent.mpr drained⟩)
        rw [finishEvent_drained (same ▸ noReset) (same ▸ stopping) drained]
      · refine .inl ⟨?_, mt nothingToDrain_finishEvent.mp drained⟩
        rw [finishEvent_waits (same ▸ noReset) (.inr drained), same, stopping]
    · refine .inr (.inr ?_)
      rw [finishEvent_waits (reset.trans noReset) (.inl (halted ▸ nofun)), halted]

theorem exec_stopping (f : ModesLegal s) (c : Instr) (hr : ∀ source, c ≠ .coldReset source) (hw : c ≠ .reset)
    (h : exec c s = .next t) : StoppingKept t := by
  have refused (code : FaultCode) : StoppingKept (s.refuseAction code) := by
    rw [refuseAction_live (stopping ▸ nofun)]
    exact .of_same stopping busy rfl rfl rfl rfl
  have unchanged : StoppingKept s := .of_same stopping busy rfl rfl rfl rfl
  have unwritable : anchorWritable s = false := by simp [anchorWritable, stopping]
  by_cases beside : controls c = false
  · exact .ends stopping noReset busy (exec_ends c beside h)
  · cases c
    case coldReset source => exact absurd rfl (hr source)
    case reset => exact absurd rfl hw
    case run =>
      change execRun s = _ at h
      simp only [execRun, stopping] at h
      cases h
      exact refused _
    case runTaken read number =>
      have noRun : s.dev.runPending = false :=
        Bool.eq_false_iff.mpr fun pending => absurd (stopping.symm.trans (f.runPending pending)) nofun
      change execRunTaken read s number = _ at h
      simp only [execRunTaken, noRun, Bool.false_and, Bool.false_eq_true, if_false] at h
      cases h
      exact unchanged
    case stop =>
      rw [exec_stop_ignored (.inl stopping)] at h
      cases h
      exact unchanged
    case anchorHi value =>
      change execAnchorHi value s = _ at h
      simp only [execAnchorHi, unwritable, Bool.false_eq_true, if_false] at h
      cases h
      exact refused _
    case anchorLo value =>
      change execAnchorLo value s = _ at h
      simp only [execAnchorLo, unwritable, Bool.false_and, Bool.false_eq_true, if_false] at h
      cases h
      exact refused _
    case controlRefused =>
      cases h
      exact refused _
    case resetInputRelease =>
      cases h
      split
      · obtain ⟨cs, e⟩ := beginProbe_eq (s.setDev { s.dev with resetAsserted := false })
        rw [e]
        exact .of_same stopping busy rfl rfl rfl rfl
      · exact unchanged
    case deviceAreaWriteCompleted =>
      cases h
      split
      · have waits := resetEndCheck_waits (s := s.setNtu { s.ntu with handed := s.ntu.handed - 1 }) (resetDone_of_none noReset)
        rw [waits]
        exact .of_same stopping busy rfl rfl rfl rfl
      · exact unchanged
    all_goals exact absurd rfl beside

end

/-- Settles O11: STOP by device state, the tests that end STOPPING (`finishEvent_drained` and its neighbours), and what each
command leaves of a STOPPING device (`exec_stopping`). -/
theorem stopFollowsTheDeviceState : Obligations.StopFollowsTheDeviceState := by
  refine ⟨fun s f => ⟨fun running => ?running, fun stopped pending => ?_, fun stopped idle => ?_,
      fun stopping => exec_stop_ignored (.inl stopping), exec_stop_probing, fun halted => exec_stop_ignored (.inr halted)⟩,
    fun s stopping => ⟨fun noReset drained => finishEvent_drained noReset stopping drained,
      fun noReset busy => finishEvent_waits noReset (.inr busy), fun reset left => ?reset⟩,
    fun c s t f stopping noReset busy hr hw h => exec_stopping stopping noReset busy f c hr hw h⟩
  case running =>
    have noReset : s.dev.resetInProgress = false := Bool.eq_false_iff.mpr fun reset => by
      rcases f.reset reset with h | h <;> rw [running] at h <;> cases h
    refine ⟨_, exec_stop_running running, fun drained => ?_, fun busy => ?_, ?_⟩
    · exact finishEvent_drained (s := stopTaken s) noReset rfl (stopTaken_drained.mpr drained)
    · exact finishEvent_waits (s := stopTaken s) noReset (.inr (mt stopTaken_drained.mp busy))
    · have out : (finishEvent (stopTaken s)).out = s.out := finishEvent_out _
      have lane : ∀ l, (s.lane l).state ≠ .draining → (finishEvent (stopTaken s)).lane l = s.lane l := fun l active =>
        (finishEvent_lane l (stopTaken s)).kept active
      obtain ⟨d, ls, n, o, e⟩ := finishEvent_noReset_eq (s := stopTaken s) noReset
      rw [e] at out lane ⊢
      exact ⟨⟨rfl, rfl, rfl, rfl, rfl⟩, ⟨rfl, rfl, rfl⟩, rfl, rfl, rfl, rfl, rfl, rfl, out, rfl, lane⟩
  · rw [exec_stop_stopped stopped, pending]
    rfl
  · rw [exec_stop_stopped stopped, idle]
    rfl
  case reset =>
    have left : ¬ ResetWorkOver (s.dev.state = .halted) (finishEvent s) := fun h =>
      left ⟨h.contexts, h.lanes, h.moves, h.engine, .inr (h.writes.resolve_left (stopping ▸ nofun))⟩
    rw [(finishEvent_reset_cases reset).2 left, settleLanes_dev]

end Sys2Proof.Machine
end
section
/-! O2 and O3, what a step and every command leave of queue and clock (R190). -/

namespace Sys2Proof.Machine

variable {α : Type} {p : State → α} {s t : State}

theorem step_idle (h : s.pending = []) : step s = .next s.idle := by
  unfold step
  split
  · rfl
  · next c rest h' => exact absurd (h.symm.trans h') nofun

/-- Settles O2. -/
theorem idleStepLetsAMicrosecondPass : Obligations.IdleStepLetsAMicrosecondPass := fun _ h => step_idle h

/-! ### Queue, clock and inputs -/

/-- A part of the state that no block's update, no register write and no end of a reset touches. -/
structure ControlFrame {α : Type} (p : State → α) : Prop extends EventFrame p where
  settings : ∀ (s : State) (d : Device) (v : Settings), p { s with dev := d, settings := v } = p s
  anchors : ∀ (s : State) (a : Addr) (h : Word32), p { s with anchor := a, anchorHigh := h } = p s
  lanes : ∀ (s : State) (ls : Vector Lane 4), p { s with lanes := ls } = p s
  lockdown : ∀ (s : State) (b : Bool), p { s with lockdown := b } = p s

theorem resetEnd_control (hp : ControlFrame p) (s : State) : p (resetEnd s) = p s :=
  (hp.dev _ _).trans ((hp.ntu _ _).trans (hp.anchors s _ _))

theorem setAnchor_control (hp : ControlFrame p) (a : Addr) (s : State) : p (setAnchor a s) = p s := by
  have anchor : p { s with anchor := a } = p s := hp.anchors s a s.anchorHigh
  unfold setAnchor initDeviceArea idleRoutes
  dsimp only
  split
  · exact (hp.ntu _ _).trans anchor
  · exact (hp.ntu _ _).trans ((hp.ntu _ _).trans ((hp.lanes { s with anchor := a } _).trans anchor))

/-- Every command but COLD_RESET leaves such a part. -/
theorem exec_control (hp : ControlFrame p) (c : Instr) (hc : ∀ source, c ≠ .coldReset source) (h : exec c s = .next t) :
    p t = p s := by
  by_cases hw : writesDevice c = false
  · exact (exec_event hp.toEventFrame c s t hw h).eq (resetEnd_control hp)
  · cases c
    case coldReset source => exact absurd rfl (hc source)
    case runTaken =>
      cases h
      split
      · rw [workOff_event hp.toEventFrame, enterRunning_event hp.toDeviceFrame hp.settings]
      · rfl
    case anchorHi value =>
      cases h
      split
      · exact (hp.anchors s.takeAction s.takeAction.anchor value).trans (takeAction_event hp.toDeviceFrame s)
      · exact refuseAction_event hp.toDeviceFrame _ s
    case anchorLo =>
      cases h
      split
      · exact (setAnchor_control hp _ _).trans (takeAction_event hp.toDeviceFrame s)
      · exact refuseAction_event hp.toDeviceFrame _ s
    case lockdown =>
      cases h
      exact grantRow_event hp.toEventFrame _ _ s fun x t =>
        (enterFinishing_frame hp.toBlockFrame x _).trans (hp.lockdown t true)
    all_goals exact absurd rfl hw

theorem controlFrame_pending : ControlFrame State.pending :=
  ⟨eventFrame_pending, fun _ _ _ => rfl, fun _ _ _ => rfl, fun _ _ => rfl, fun _ _ => rfl⟩
theorem controlFrame_tick : ControlFrame State.tick :=
  ⟨eventFrame_tick, fun _ _ _ => rfl, fun _ _ _ => rfl, fun _ _ => rfl, fun _ _ => rfl⟩
theorem controlFrame_messagesEnabled : ControlFrame State.messagesEnabled :=
  ⟨eventFrame_messagesEnabled, fun _ _ _ => rfl, fun _ _ _ => rfl, fun _ _ => rfl, fun _ _ => rfl⟩
theorem controlFrame_unitPresent : ControlFrame State.unitPresent :=
  ⟨eventFrame_unitPresent, fun _ _ _ => rfl, fun _ _ _ => rfl, fun _ _ => rfl, fun _ _ => rfl⟩

theorem coldReset_event (hp : EventFrame p) (source : ResetSource) (s : State) :
    p (coldReset source s) = p (coldState source s) := by
  unfold coldReset
  dsimp only
  split
  · rfl
  · exact beginProbe_event hp _

/-- Settles O3: a cold reset keeps queue, enable and inputs (`coldState`), every other command the tick too (`exec_control`). -/
theorem everyCommandCompletes : Obligations.EveryCommandCompletes := by
  intro c s
  by_cases cold : ∃ source, c = .coldReset source
  · obtain ⟨source, rfl⟩ := cold
    exact ⟨_, rfl, coldReset_event eventFrame_pending source s, coldReset_event eventFrame_messagesEnabled source s,
      coldReset_event eventFrame_unitPresent source s, fun other => absurd rfl (other source)⟩
  · have other : ∀ source, c ≠ .coldReset source := fun source e => cold ⟨source, e⟩
    obtain ⟨t, executed⟩ := exec_next c s
    exact ⟨t, executed, exec_control controlFrame_pending c other executed,
      exec_control controlFrame_messagesEnabled c other executed, exec_control controlFrame_unitPresent c other executed,
      fun _ => exec_control controlFrame_tick c other executed⟩

end Sys2Proof.Machine
end
section
/-! O4 and O5, the state right after reset (R192, R201). -/

namespace Sys2Proof.Machine

theorem reset_region (i : Nat) : State.reset.region i = RegionEntry.undefined := by
  change ((Vector.replicate 32 RegionEntry.undefined)[i]?).getD RegionEntry.undefined = _
  rw [Vector.getElem?_replicate]
  split <;> rfl

theorem reset_lane (l : LaneId) : State.reset.lane l = Lane.cold := Vector.getElem_replicate l.isLt

theorem reset_ctx (x : CtxId) : State.reset.ctx x = Context.empty := Vector.getElem_replicate x.isLt

theorem reset_chan (u : UnitId) : State.reset.chan u = Channel.probing 0 := Vector.getElem_replicate u.isLt

theorem reset_rlt (u : UnitId) : State.reset.rlt u = Rlt.cold := Vector.getElem_replicate u.isLt

/-- Settles O4: the tables are rows of one cold entry. -/
theorem resetStateIsTheColdState : Obligations.ResetStateIsTheColdState := by
  refine ⟨rfl, rfl, rfl, rfl, rfl, rfl, rfl, rfl, fun l => ?_, fun x => ?_, fun i => ?_, rfl, rfl, rfl, rfl, fun k => ?_, rfl,
    fun r => ?_, fun u => ?_, rfl⟩
  · rw [reset_lane]
    exact ⟨rfl, rfl, rfl⟩
  · rw [reset_ctx]
    rfl
  · rw [reset_region]
    rfl
  · exact Vector.getElem_replicate k.isLt
  · cases r <;> rfl
  · rw [reset_chan]
    rfl

/-- No lock and no move, and a channel that sends IDENTIFY performs no entry. -/
theorem moveLocksFit_reset : MoveLocksFit State.reset := fun u => by
  rw [reset_chan, reset_rlt]
  exact ⟨by decide, List.nodup_nil, List.nodup_nil, nofun, nofun, List.nodup_nil, nofun⟩

/-- Settles O5. -/
theorem resetHasTheInvariants : Obligations.ResetHasTheInvariants :=
  ⟨BitVec.extractLsb'_zero, ⟨nofun, nofun, ⟨nofun, nofun⟩⟩, moveLocksFit_reset,
    (CountersInRange.coldState .powerOn State.reset).view rfl, ⟨nofun, fun _ => ⟨rfl, rfl, rfl⟩⟩⟩

end Sys2Proof.Machine
end
section
/-! O8, O9, O12 and O13, the writes of the register window (R188, R189, R194 to R196). -/

namespace Sys2Proof.Machine

variable {s t : State}

/-! ### CONTROL (R189, R196) -/

/-- Settles O8. -/
theorem ignoredAndRefusedControlWrites : Obligations.IgnoredAndRefusedControlWrites := by
  refine ⟨fun _ _ _ _ => rfl, fun bits s => congrArg Host.Outcome.next ?_⟩
  split
  · next halted => exact refuseAction_halted halted _
  · next live => exact refuseAction_live live _

theorem exec_run_ignored (h : s.dev.state = .running ∨ s.dev.state = .halted ∨ s.dev.state = .stopped ∧ s.dev.runPending = true) :
    exec .run s = .next s := by
  refine congrArg Host.Outcome.next ?_
  rcases h with h | h | ⟨h, pending⟩
  · simp only [h]
  · simp only [h]
  · simp only [h, pending, if_true]

theorem exec_run_refused (h : s.dev.state = .stopping ∨ s.dev.state = .probing) :
    exec .run s = .next (s.refuseAction .controlRefused) := by
  refine congrArg Host.Outcome.next ?_
  rcases h with h | h <;> simp only [h]

section
variable (stopped : s.dev.state = .stopped) (idle : s.dev.runPending = false)
include stopped idle

theorem exec_run_unanchored (h : s.anchor = 0) : exec .run s = .next (s.refuseAction .noAnchor) := by
  refine congrArg Host.Outcome.next ?_
  simp only [stopped, idle, h, Bool.false_eq_true, if_false, if_true]

theorem exec_run_taken (h : s.anchor ≠ 0) : exec .run s = .next (runRequested s) := by
  refine congrArg Host.Outcome.next ?_
  simp only [stopped, idle, h, Bool.false_eq_true, if_false]

end

/-- Settles O9. -/
theorem runFollowsTheDeviceState : Obligations.RunFollowsTheDeviceState := by
  refine fun s => ⟨fun stopped pending => exec_run_ignored (.inr (.inr ⟨stopped, pending⟩)), fun stopped idle unset => ?_,
    fun stopped idle set => ?_, fun running => exec_run_ignored (.inl running), fun other => ?_,
    fun halted => exec_run_ignored (.inr (.inl halted))⟩
  · rw [exec_run_unanchored stopped idle unset, refuseAction_live (stopped ▸ nofun)]
    rfl
  · rw [exec_run_taken stopped idle set, runRequested, takeAction_live (stopped ▸ nofun)]
    rfl
  · rw [exec_run_refused other, refuseAction_live (by rcases other with h | h <;> exact h ▸ nofun)]
    rfl

/-! ### The anchor (R194, R195) -/

theorem anchorWritable_live (h : anchorWritable s = true) : s.dev.state ≠ .halted := by
  simp only [anchorWritable, Bool.and_eq_true, beq_iff_eq] at h
  rw [h.1.1.1]
  nofun

theorem setAnchor_zero {a : Addr} (h : a = 0) (s : State) :
    setAnchor a s = { s with anchor := 0, ntu := { s.ntu with writes := [] } } := by
  subst h
  rfl

theorem setAnchor_set {a : Addr} (h : a ≠ 0) (s : State) : setAnchor a s = initDeviceArea { s with anchor := a } := if_neg h

theorem anchor_refused : Host.Outcome.next (s.refuseAction .anchorRefused)
    = (.next (if s.dev.state = .halted then s else { s with dev := { s.dev with fault := .anchorRefused } }) : Res) := by
  split
  · next halted => rw [refuseAction_halted halted]
  · next live =>
    rw [refuseAction_live live]
    rfl

theorem exec_anchorHi_taken (h : anchorWritable s = true) (value : Word32) :
    exec (.anchorHi value) s = .next { s.takeAction with anchorHigh := value } := congrArg Host.Outcome.next (if_pos h)

theorem exec_anchorHi_refused (h : anchorWritable s = false) (value : Word32) :
    exec (.anchorHi value) s = .next (s.refuseAction .anchorRefused) :=
  congrArg Host.Outcome.next (if_neg (Bool.eq_false_iff.mp h))

theorem exec_anchorLo_taken {value : Word32} (h : anchorWritable s = true) (aligned : value.extractLsb' 0 12 = 0) :
    exec (.anchorLo value) s = .next (setAnchor (s.anchorHigh ++ value) s.takeAction) :=
  congrArg Host.Outcome.next (if_pos (by rw [h, aligned]; rfl))

theorem exec_anchorLo_refused {value : Word32} (h : anchorWritable s = false ∨ value.extractLsb' 0 12 ≠ 0) :
    exec (.anchorLo value) s = .next (s.refuseAction .anchorRefused) :=
  congrArg Host.Outcome.next (if_neg fun taken => by
    obtain ⟨writable, aligned⟩ := Bool.and_eq_true_iff.mp taken
    exact h.elim (fun h => Bool.eq_false_iff.mp h writable) fun h => h (beq_iff_eq.mp aligned))

/-- Settles O13. -/
theorem anchorWritesAreTakenOrRefused : Obligations.AnchorWritesAreTakenOrRefused := by
  refine ⟨fun value s => ⟨fun h => ?_, fun h => (exec_anchorHi_refused h value).trans anchor_refused⟩,
    fun value s => ⟨fun h aligned zero => ?_, fun h => (exec_anchorLo_refused h).trans anchor_refused⟩⟩
  · rw [exec_anchorHi_taken h, takeAction_live (anchorWritable_live h)]
    rfl
  · rw [exec_anchorLo_taken h aligned, setAnchor_zero zero, takeAction_live (anchorWritable_live h)]
    rfl

/-- The identity entry is padded to its 64 bytes. -/
theorem identityBytes_eq (width : Nat) (tick : Tick) : identityBytes width tick = leBytes 4 0x00AC0740 ++ leBytes 4 1
    ++ leBytes 1 width ++ leBytes 1 4 ++ leBytes 1 4 ++ List.replicate 5 0 ++ leBytes 8 tick.toNat ++ List.replicate 40 0 :=
  padTo_of_length (k := 24) (by simp [zeros])

theorem slotBytes_zero : (⟨0, EventDetail.zero⟩ : EventSlot).bytes = List.replicate 64 0 := by decide

theorem atInit_eq (k : Lane) : k.atInit
    = { k with refused := 0, lastStatus := some { k.status with refused := 0 } } := rfl

theorem atInit_status (k : Lane) : k.atInit.status = { k.status with refused := 0 } := rfl

theorem initDeviceArea_lane (s : State) (l : LaneId) : (initDeviceArea s).lane l = (s.lane l).atInit := getElem_mapVec ..

/-- The windows' records that a grant has taken are counted or listed alike. -/
theorem dispatched_eq (k : Lane) : k.dispatched = (k.window.filter WinRec.granted).length := List.countP_eq_length_filter

/-- Settles O12: the writes of the initialization are `initWrites`, the entries those of section 8.1 with their padding. -/
theorem anchorSetInitializesTheDeviceArea : Obligations.AnchorSetInitializesTheDeviceArea := by
  refine ⟨fun value s h aligned set => ?init, fun e => ?status, fun k => ?entry⟩
  case init =>
    rw [exec_anchorLo_taken h aligned, setAnchor_set set, takeAction_live (anchorWritable_live h)]
    refine ⟨_, rfl, rfl, rfl, rfl, ?_, fun k => ?_, fun r => ?_, fun l => ?_, ⟨rfl, rfl, rfl, rfl, rfl⟩, ⟨rfl, rfl, rfl⟩, rfl, rfl,
      rfl, rfl⟩
    · rw [← identityBytes_eq, ← slotBytes_zero]
      rfl
    · exact Vector.getElem_replicate k.isLt
    · cases r <;> rfl
    · rw [initDeviceArea_lane]
      rfl
  case status =>
    have padded := padTo_of_length (n := 64) (k := 30) (bs := leBytes 4 e.retireSeq.toNat ++ leBytes 1 e.state.code
      ++ leBytes 1 e.fault.code ++ leBytes 2 e.refused ++ leBytes 8 e.resume.toNat ++ leBytes 8 e.faultAddr.toNat
      ++ leBytes 4 e.expSeq.toNat ++ leBytes 1 e.dispatched ++ leBytes 1 (bit e.staged)) (by simp)
    have state : e.state.code = match e.state with
        | .off => 0 | .seeking => 1 | .staged => 2 | .parkedEnd => 3 | .parkedUnposted => 4 | .faulted => 5 | .draining => 6 := by
      cases e.state <;> rfl
    have fault : e.fault.code = match e.fault with
        | .none => 0 | .seqBreak => 1 | .badLink => 2 | .fetchError => 3 | .badConfig => 4 := by
      cases e.fault <;> rfl
    have staged : bit e.staged = if e.staged then 1 else 0 := rfl
    rw [LaneStatus.bytes, padded, state, fault, staged] <;> rfl
  case entry =>
    rw [← dispatched_eq]
    rfl

end Sys2Proof.Machine
end
section
/-! O14, what the window reads (R186, R188 to R190, R194, section 10.1). -/

namespace Sys2Proof.Machine

/-! ### Fields of a register -/

/-- A field of a register that holds a sum of fields is the sum's digits at its place. -/
theorem extractLsb'_ofNat {i n : Nat} (N v : Nat) (inside : i + n ≤ 32) (digits : N / 2 ^ i % 2 ^ n = v % 2 ^ n) :
    (BitVec.ofNat 32 N).extractLsb' i n = BitVec.ofNat n v := by
  apply BitVec.eq_of_toNat_eq
  have places : 2 ^ 32 = 2 ^ i * 2 ^ (32 - i) := by rw [← pow_add, Nat.add_sub_cancel' (by omega)]
  rw [BitVec.extractLsb'_toNat, BitVec.toNat_ofNat, BitVec.toNat_ofNat, Nat.shiftRight_eq_div_pow, places,
    Nat.mod_mul_right_div_self, Nat.mod_mod_of_dvd _ (pow_dvd_pow 2 (by omega)), digits]

theorem getLsbD_ofNat {i : Nat} (N : Nat) (b : Bool) (inside : i < 32) (digit : N / 2 ^ i % 2 = bit b) :
    (BitVec.ofNat 32 N).getLsbD i = b := by
  rw [BitVec.getLsbD_ofNat, Nat.testBit_eq_decide_div_mod_eq, digit]
  cases b <;> simp [inside, bit]

/-! ### STATE (section 10.1) -/

section
variable (s : State)

/-- The sum of STATE's fields. -/
def stateFields : Nat :=
  s.dev.state.code + 8 * bit s.dev.resetInProgress + 16 * bit s.dev.runPending + 32 * bit (s.anchor != 0)
    + 256 * s.dev.fault.code + 4096 * bit s.lockdown + 65536 * s.width

theorem stateRegister_eq : s.stateRegister = BitVec.ofNat 32 (stateFields s) := rfl

/-- Each field of STATE stands at its place, since each is narrower than the step to the next. -/
theorem stateFields_digits :
    stateFields s / 2 ^ 0 % 2 ^ 3 = s.dev.state.code ∧ stateFields s / 2 ^ 3 % 2 = bit s.dev.resetInProgress
      ∧ stateFields s / 2 ^ 4 % 2 = bit s.dev.runPending ∧ stateFields s / 2 ^ 5 % 2 = bit (s.anchor != 0)
      ∧ stateFields s / 2 ^ 6 % 2 ^ 2 = 0 ∧ stateFields s / 2 ^ 8 % 2 ^ 4 = s.dev.fault.code
      ∧ stateFields s / 2 ^ 13 % 2 ^ 3 = 0 ∧ stateFields s / 2 ^ 16 = s.width := by
  have state := devState_code_lt s.dev.state
  have fault := faultCode_code_lt s.dev.fault
  have reset := bit_le s.dev.resetInProgress
  have run := bit_le s.dev.runPending
  have anchor := bit_le (s.anchor != 0)
  have lock := bit_le s.lockdown
  unfold stateFields
  generalize s.dev.state.code = a at *
  generalize bit s.dev.resetInProgress = b at *
  generalize bit s.dev.runPending = c at *
  generalize bit (s.anchor != 0) = d at *
  generalize s.dev.fault.code = e at *
  generalize bit s.lockdown = f at *
  refine ⟨?_, ?_, ?_, ?_, ?_, ?_, ?_, ?_⟩ <;> omega

end

theorem devState_field (d : DevState) : BitVec.ofNat 3 d.code
    = match d with | .probing => 0#3 | .stopped => 1#3 | .running => 2#3 | .stopping => 3#3 | .halted => 4#3 := by
  cases d <;> rfl

theorem faultCode_field (c : FaultCode) : BitVec.ofNat 4 c.code
    = match c with
      | .none => 0#4 | .anchorRefused => 1#4 | .noAnchor => 2#4 | .controlRefused => 3#4 | .probeLayout => 8#4
      | .deviceAreaError => 9#4 | .resultError => 10#4 := by
  cases c <;> rfl

/-! ### ATTN (R186) -/

theorem attnRegister_digits (a b : Bool) :
    (bit a + 2 * bit b) / 2 ^ 0 % 2 = bit a ∧ (bit a + 2 * bit b) / 2 ^ 1 % 2 = bit b ∧ (bit a + 2 * bit b) / 2 ^ 2 % 2 ^ 30 = 0 := by
  cases a <;> cases b <;> decide

/-! ### Reads of the window (R188) -/

theorem leBytes_eq_ofFn (k v : Nat) : leBytes k v = (List.range k).map fun j => BitVec.ofNat 8 (v / 256 ^ j) := by
  induction k generalizing v with
  | zero => rfl
  | succ k ih =>
    rw [leBytes, ih, List.range_succ_eq_map, List.map_cons, List.map_map]
    refine congrArg₂ List.cons (by simp) (List.map_congr_left fun j _ => ?_)
    rw [Function.comp_apply, Nat.div_div_eq_div_mul, ← pow_succ']

/-- A read within a register gives its bytes from the one addressed on. -/
theorem readWindow_within (s : State) {i w : Nat} (k : Nat) (inside : i + w ≤ 4) (hi : i < 4) :
    s.readWindow (4 * k + i) w = (List.range w).map fun j => (s.register (4 * k)).extractLsb' (8 * (i + j)) 8 := by
  have offset : (4 * k + i) % 4 = i := by omega
  unfold State.readWindow
  rw [offset, Nat.add_sub_cancel, leBytes_eq_ofFn]
  apply List.ext_getElem
  · simp
    omega
  · intro j hj _
    simp only [List.getElem_take, List.getElem_drop, List.getElem_map, List.getElem_range]
    apply BitVec.eq_of_toNat_eq
    rw [BitVec.toNat_ofNat, BitVec.extractLsb'_toNat, Nat.shiftRight_eq_div_pow, pow_mul]
    rfl

/-- Settles O14: the fields of STATE and ATTN are digits of their sums, and a read takes bytes of one register. -/
theorem registersReadTheState : Obligations.RegistersReadTheState := by
  intro s
  obtain ⟨state, reset, run, anchor, gap, fault, gap', width⟩ := stateFields_digits s
  obtain ⟨attnA, attnB, attnRest⟩ := attnRegister_digits (s.ntu.routeA.state == .signalled) (s.ntu.routeB.state == .signalled)
  refine ⟨rfl, ?state, ?reset, ?run, ?anchor, ?gap, ?fault, ?lock, ?gap', ?width, fun narrow => ?top, ?attnA, ?attnB, ?attnRest,
    rfl, rfl, rfl, rfl, rfl, fun k low high => ?zero, fun k i w hk hw inside => readWindow_within s k inside (by omega)⟩
  case state => exact (extractLsb'_ofNat (stateFields s) s.dev.state.code (by decide) (by rw [state]; omega)).trans (devState_field _)
  case reset => exact Bool.eq_iff_iff.mp (getLsbD_ofNat _ s.dev.resetInProgress (by decide) reset)
  case run => exact Bool.eq_iff_iff.mp (getLsbD_ofNat _ s.dev.runPending (by decide) run)
  case anchor => exact (Bool.eq_iff_iff.mp (getLsbD_ofNat _ (s.anchor != 0) (by decide) anchor)).trans bne_iff_ne
  case gap => exact extractLsb'_ofNat (stateFields s) 0 (by decide) gap
  case fault => exact (extractLsb'_ofNat (stateFields s) s.dev.fault.code (by decide) (by rw [fault]; omega)).trans (faultCode_field _)
  case lock => exact Bool.eq_iff_iff.mp (stateRegister_bit12 s)
  case gap' => exact extractLsb'_ofNat (stateFields s) 0 (by decide) gap'
  case width => exact extractLsb'_ofNat (stateFields s) s.width (by decide) (by rw [width])
  case top => exact extractLsb'_ofNat (stateFields s) 0 (by decide) (by omega)
  case attnA => exact (Bool.eq_iff_iff.mp (getLsbD_ofNat _ _ (by decide) attnA)).trans beq_iff_eq
  case attnB => exact (Bool.eq_iff_iff.mp (getLsbD_ofNat _ _ (by decide) attnB)).trans beq_iff_eq
  case attnRest => exact extractLsb'_ofNat _ 0 (by decide) attnRest
  case zero => interval_cases k <;> rfl

end Sys2Proof.Machine
end
section
/-! O10, the end of the settings read that a pending RUN has sent (R135, R156, R175, R187, R196). -/

namespace Sys2Proof.Machine

variable {s t u : State} {l k : LaneId} {r q : RouteId}

/-! ### The lanes at RUN (R175) -/

/-- The read a lane of a device that enters RUNNING sends (R161, R175). -/
def Lane.runReads (k : Lane) : List Output :=
  match k.state, k.target, k.reading, k.newest with
  | .seeking, some a, none, _ | .parkedUnposted, some a, none, _ => [.hostRead a 128]
  | .parkedEnd, _, _, some r => [.hostRead r.addr 8]
  | _, _, _, _ => []

theorem Lane.runReads_parked {k : Lane} (h : k.state = .parkedEnd ∨ k.state = .parkedUnposted) : k.runReads = k.rereads := by
  unfold Lane.runReads Lane.rereads
  rcases h with h | h <;> rw [h] <;> cases k.target <;> cases k.reading <;> cases k.newest <;> rfl

theorem laneRun_ntu (l : LaneId) (s : State) : (laneRun l s).ntu = s.ntu := by
  unfold laneRun
  split
  · exact issueFetch_ntu l s
  · exact reread_ntu l s
  · exact reread_ntu l s
  · rfl

theorem laneRun_seeking (h : (s.lane l).state = .seeking) : laneRun l s = issueFetch l s := by simp only [laneRun, h]

theorem laneRun_parkedEnd (h : (s.lane l).state = .parkedEnd) : laneRun l s = reread l s := by simp only [laneRun, h]

theorem laneRun_parkedUnposted (h : (s.lane l).state = .parkedUnposted) : laneRun l s = reread l s := by simp only [laneRun, h]

theorem laneRun_idle (h : (s.lane l).state = .off ∨ (s.lane l).state = .staged ∨ (s.lane l).state = .faulted
    ∨ (s.lane l).state = .draining) : laneRun l s = s := by
  rcases h with h | h | h | h <;> simp only [laneRun, h]

theorem issueFetch_waits (h : (s.lane l).target = none ∨ (s.lane l).reading ≠ none) : issueFetch l s = s := by
  unfold issueFetch
  split
  · next target reading =>
    rcases h with h | h
    · rw [h] at target
      cases target
    · exact absurd reading h
  · rfl

/-- The read goes out as the lane's first and only one at the event. -/
theorem laneRun_out (running : s.dev.state = .running) (l : LaneId) : (laneRun l s).out = s.out ++ (s.lane l).runReads := by
  cases state : (s.lane l).state
  case seeking =>
    rw [laneRun_seeking state]
    cases target : (s.lane l).target with
    | none =>
      rw [issueFetch_waits (.inl target)]
      simp [Lane.runReads, state, target]
    | some a =>
      cases reading : (s.lane l).reading with
      | none =>
        rw [issueFetch_fetches state target reading running]
        simp [Lane.runReads, state, target, reading, State.emit, modLane, State.setLane]
      | some _ =>
        rw [issueFetch_waits (.inr (by rw [reading]; nofun))]
        simp [Lane.runReads, state, target, reading]
  case parkedEnd =>
    rw [laneRun_parkedEnd state, reread_out running, Lane.runReads_parked (.inl state)]
  case parkedUnposted =>
    rw [laneRun_parkedUnposted state, reread_out running, Lane.runReads_parked (.inr state)]
  all_goals
    rw [laneRun_idle (by simp [state])]
    simp [Lane.runReads, state]

/-- The lanes' loop at RUN: each lane as its own step makes it, in a state that has changed in other lanes alone. -/
theorem laneRuns_lane (l : LaneId) (s : State) :
    ∃ u, LanesOnly s u ∧ u.lane l = s.lane l ∧ (forEach four laneRun s).lane l = (laneRun l u).lane l :=
  (forEach_lane LanesOnly.refl LanesOnly.trans (fun l t => laneRun_lanesOnly l t) laneRun_lane_other four four_nodup s).2 l (mem_four l)

theorem laneRuns_out (running : s.dev.state = .running) :
    (forEach four laneRun s).out = s.out ++ four.flatMap fun l => (s.lane l).runReads :=
  forEach_lanes_out (holds := fun t => t.dev.state = .running) running
    (fun l t h => (congrArg Device.state (laneRun_lanesOnly l t).device.dev).trans h) laneRun_lane_other
    (fun l _ h e => e ▸ laneRun_out h l) four four_nodup

/-! ### The routes under the new thresholds (R187) -/

/-- A HOLDING route whose count the threshold in force has reached. -/
def State.sendsAtRun (s : State) (r : RouteId) : Bool :=
  decide ((s.route r).state = .holding ∧ (s.routeCfg r).threshold ≤ (s.route r).count)

theorem applyThreshold_eq (r : RouteId) (s : State) : applyThreshold r s = if s.sendsAtRun r then sendRoute r s else s := by
  unfold applyThreshold State.sendsAtRun
  simp only [decide_eq_true_eq]

theorem applyThreshold_routesOnly (r : RouteId) (s : State) : RoutesOnly s (applyThreshold r s) := by
  unfold applyThreshold
  split
  · exact sendRoute_routesOnly r s
  · exact .refl s

theorem applyThreshold_route (r q : RouteId) (s : State) :
    (applyThreshold r s).route q = if q = r ∧ s.sendsAtRun r = true then (s.route q).signalled else s.route q := by
  rw [applyThreshold_eq]
  by_cases sends : s.sendsAtRun r = true
  · rw [if_pos sends, sendRoute_route]
    by_cases own : q = r
    · rw [if_pos own, if_pos ⟨own, sends⟩, own]
    · rw [if_neg own, if_neg fun h => own h.1]
  · rw [if_neg sends, if_neg fun h => sends h.2]

theorem applyThreshold_sendsAtRun (other : q ≠ r) : (applyThreshold r s).sendsAtRun q = s.sendsAtRun q := by
  rw [State.sendsAtRun, applyThreshold_route, if_neg fun h => other h.1, (applyThreshold_ntuOnly r s).routeCfg, State.sendsAtRun]

theorem applyThreshold_writes (r : RouteId) (s : State) : (applyThreshold r s).ntu.writes
    = if s.sendsAtRun r = true ∧ ¬ (s.anchor = 0 ∨ s.halted = true ∨ s.messagesEnabled = false) then placeMessage r s.ntu.writes
      else s.ntu.writes := by
  rw [applyThreshold_eq]
  by_cases sends : s.sendsAtRun r = true
  · rw [if_pos sends, sendRoute_writes]
    by_cases unheard : s.anchor = 0 ∨ s.halted = true ∨ s.messagesEnabled = false
    · rw [if_pos unheard, if_neg fun h => h.2 unheard]
    · rw [if_neg unheard, if_pos ⟨sends, unheard⟩]
  · rw [if_neg sends, if_neg fun h => sends h.1]

/-- Both routes, A before B (log entry 53). -/
def applyThresholds (s : State) : State := applyThreshold .b (applyThreshold .a s)

theorem applyThresholds_routesOnly (s : State) : RoutesOnly s (applyThresholds s) :=
  (applyThreshold_routesOnly .a s).trans (applyThreshold_routesOnly .b _)

theorem applyThresholds_route (r : RouteId) (s : State) :
    (applyThresholds s).route r = if s.sendsAtRun r then (s.route r).signalled else s.route r := by
  unfold applyThresholds
  cases r with
  | a => simp [applyThreshold_route]
  | b => simp [applyThreshold_route, applyThreshold_sendsAtRun]

theorem applyThresholds_placed (h : ¬ (s.anchor = 0 ∨ s.halted = true ∨ s.messagesEnabled = false)) :
    (applyThresholds s).ntu.writes
      = s.ntu.writes.filter (fun w => !(s.sendsAtRun .a && w.target == .message .a) && !(s.sendsAtRun .b && w.target == .message .b))
        ++ (if s.sendsAtRun .a then [⟨.message .a, []⟩] else []) ++ (if s.sendsAtRun .b then [⟨.message .b, []⟩] else []) := by
  have device := (applyThreshold_ntuOnly .a s).lanesOnly.device
  have heard : ¬ ((applyThreshold .a s).anchor = 0 ∨ (applyThreshold .a s).halted = true
      ∨ (applyThreshold .a s).messagesEnabled = false) := by
    rw [device.anchor, State.halted, device.dev, device.messagesEnabled]
    exact h
  rw [← placeMessage_inOrder, applyThresholds, applyThreshold_writes, applyThreshold_sendsAtRun (by decide), applyThreshold_writes]
  simp only [heard, h, not_false_eq_true, and_true]
  cases s.sendsAtRun .a <;> cases s.sendsAtRun .b <;> rfl

theorem applyThresholds_unplaced (h : s.anchor = 0 ∨ s.halted = true ∨ s.messagesEnabled = false) :
    (applyThresholds s).ntu.writes = s.ntu.writes := by
  have device := (applyThreshold_ntuOnly .a s).lanesOnly.device
  have unheard : (applyThreshold .a s).anchor = 0 ∨ (applyThreshold .a s).halted = true
      ∨ (applyThreshold .a s).messagesEnabled = false := by
    rw [device.anchor, State.halted, device.dev, device.messagesEnabled]
    exact h
  rw [applyThresholds, applyThreshold_writes, if_neg fun g => g.2 unheard, applyThreshold_writes, if_neg fun g => g.2 h]

/-! ### RUN_TAKEN (R196) -/

/-- Device mode and settings as RUN is taken, before lanes and routes. -/
def runEntered (read : HostResult Bytes) (s : State) : State :=
  { s with
    dev := { s.dev with state := .running, runPending := false, fault := .none }
    settings := settingsAfter s.settings read }

theorem enterRunning_eq (live : s.dev.state ≠ .halted) (read : HostResult Bytes) :
    enterRunning read s = applyThresholds (forEach four laneRun (runEntered read s)) := by
  unfold enterRunning
  rw [takeAction_live live]
  rfl

theorem exec_runTaken_ignored (read : HostResult Bytes) {number : Nat}
    (h : s.dev.runPending = false ∨ number ≠ s.lif.settingsReads) : exec (.runTaken read number) s = .next s := by
  refine congrArg Host.Outcome.next (if_neg fun taken => ?_)
  obtain ⟨pending, awaited⟩ := Bool.and_eq_true_iff.mp taken
  rcases h with h | h
  · exact Bool.eq_false_iff.mp h pending
  · exact h (beq_iff_eq.mp awaited)

theorem exec_runTaken (pending : s.dev.runPending = true) (read : HostResult Bytes) :
    exec (.runTaken read s.lif.settingsReads) s = .next (workOff (enterRunning read s, readyUnits (enterRunning read s))) :=
  congrArg Host.Outcome.next (if_pos (by simp [pending]))

theorem workOff_after_probe_msgs {α : Type} {p : State → α} (hp : CascadeFrame p) (hc : ∀ (t : State) (c : Cme), p (t.setCme c) = p t)
    (probed : s.dev.state ≠ .probing) (ms : List Msg) : p (workOff (s, ms)) = p s := workOff_after_probe hp hc (s, ms) probed

theorem readyUnits_eq (s : State) : readyUnits s = (if s.patrol.running
    then four.filter (fun u => u.val < s.width && (s.patrolUnit u).sub == .ready) else []).map Msg.patrolReady := by
  unfold readyUnits State.members
  split
  · rw [List.filter_filter]
    refine congrArg (List.map _) (List.filter_congr fun u _ => ?_)
    rw [State.isMember, Bool.and_comm]
  · rfl

/-- Settles O10: the lanes one by one (`laneRuns_lane`), the routes A before B (`applyThresholds_route` and its neighbours), and
what the offers of patrol's units leave. -/
theorem runTakenEntersRunning : Obligations.RunTakenEntersRunning := by
  intro read s
  refine ⟨fun number h => exec_runTaken_ignored read h, fun pending stopped set cfg sends before hset cfgA cfgB hsends hbefore => ?_⟩
  have live : s.dev.state ≠ .halted := stopped ▸ nofun
  subst hset hbefore
  have routes := applyThresholds_routesOnly (forEach four laneRun (runEntered read s))
  have lanes : LanesOnly (runEntered read s) (forEach four laneRun (runEntered read s)) := .each laneRun_lanesOnly four _
  have only : LanesOnly (runEntered read s) (enterRunning read s) := enterRunning_eq live read ▸ lanes.trans routes.ntuOnly.lanesOnly
  have ntu : (forEach four laneRun (runEntered read s)).ntu = s.ntu := forEach_frame (p := State.ntu) laneRun laneRun_ntu four _
  have route (r : RouteId) : (forEach four laneRun (runEntered read s)).route r = s.route r := by
    cases r
    · exact congrArg Ntu.routeA ntu
    · exact congrArg Ntu.routeB ntu
  have senders (r : RouteId) : (forEach four laneRun (runEntered read s)).sendsAtRun r = sends r := by
    have config : (forEach four laneRun (runEntered read s)).routeCfg r = cfg r := by
      cases r
      · exact (congrArg Settings.routeA lanes.device.settings).trans cfgA.symm
      · exact (congrArg Settings.routeB lanes.device.settings).trans cfgB.symm
    rw [State.sendsAtRun, route, config]
    exact Bool.eq_iff_iff.mpr (decide_eq_true_iff.trans (hsends r).symm)
  have lane (l : LaneId) : ∃ u, u.dev.state = .running ∧ u.lane l = s.lane l ∧ (enterRunning read s).lane l = (laneRun l u).lane l := by
    obtain ⟨u, only, same, own⟩ := laneRuns_lane l (runEntered read s)
    exact ⟨u, congrArg Device.state only.device.dev, same, by rw [enterRunning_eq live, routes.ntuOnly.lane, own]⟩
  have dev := enterRunning_dev live read
  have probed : (enterRunning read s).dev.state ≠ .probing := by rw [dev]; nofun
  have media : SameMedia s (enterRunning read s) := .trans (t := runEntered read s) ⟨rfl, rfl, rfl, rfl, rfl⟩ only.media
  have records : SameRecords s (enterRunning read s) := ⟨only.records.ctxs, only.records.regions, only.records.dar⟩
  have executed := exec_runTaken pending read
  rw [readyUnits_eq] at executed
  refine ⟨enterRunning read s, _, executed, fun idle => ?unready,
    fun offers => ?ready, dev, only.device.settings, fun l h => ?idle, fun l a state target reading => ?fetches,
    fun l state h => ?waits, ?out, fun l a state target reading => ?unposted, fun l r state newest => ?parkedEnd, fun r => ?route,
    fun anchor enabled => ?placed, fun unheard => ?unplaced, ?slots, only.device.pending, only.device.tick, only.device.width,
    only.device.anchor, only.device.anchorHigh, only.device.lockdown, only.records.dar, only.device.lif, media, records,
    ?lanes, ?dev⟩
  case lanes => exact workOff_after_probe_msgs cascadeFrame_lanes (fun _ _ => rfl) probed _
  case dev => exact workOff_after_probe_msgs cascadeFrame_dev (fun _ _ => rfl) probed _
  case ready =>
    rw [media.patrol, offers, if_pos rfl, only.device.width]
    refine List.filter_congr fun u _ => ?_
    rw [State.patrolUnit, only.media.patrol]
    rfl
  case unready => rw [media.patrol, idle, if_neg Bool.false_ne_true]
  case out =>
    rw [enterRunning_eq live, routes.ntuOnly.out, laneRuns_out rfl]
    rfl
  case route =>
    rw [enterRunning_eq live, applyThresholds_route, senders, route]
    rfl
  case placed =>
    have heard : ¬ ((forEach four laneRun (runEntered read s)).anchor = 0 ∨ (forEach four laneRun (runEntered read s)).halted = true
        ∨ (forEach four laneRun (runEntered read s)).messagesEnabled = false) := by
      rw [lanes.device.anchor, State.halted, lanes.device.dev, lanes.device.messagesEnabled]
      exact messagePlaced (s := runEntered read s) anchor nofun enabled
    rw [enterRunning_eq live, applyThresholds_placed heard, senders, senders, ntu]
  case unplaced =>
    rw [enterRunning_eq live, applyThresholds_unplaced, ntu]
    rw [lanes.device.anchor, lanes.device.messagesEnabled]
    exact unheard.imp id .inr
  case slots => rw [enterRunning_eq live, routes.slots, ntu]
  all_goals
    obtain ⟨u, running, same, own⟩ := lane l
    rw [own]
  case idle => rw [laneRun_idle (same ▸ h), same]
  case fetches =>
    rw [laneRun_seeking (same ▸ state), issueFetch_lane, if_pos ⟨rfl, same ▸ state, same ▸ reading, running⟩, same, target]
    rfl
  case waits => rw [laneRun_seeking (same ▸ state), issueFetch_waits (same ▸ h), same]
  case unposted =>
    rw [laneRun_parkedUnposted (same ▸ state), reread_parkedUnposted (same ▸ state) (same ▸ target) (same ▸ reading) running,
      emit_lane, modLane_lane, if_pos rfl, same]
  case parkedEnd =>
    rw [laneRun_parkedEnd (same ▸ state), reread_parkedEnd (same ▸ state) (same ▸ newest), issueLinkRead_lane, if_pos rfl, same]

end Sys2Proof.Machine
end
section
/-! The entry to HALTED, whether or not a warm reset is in progress (R70, R176, R180, R198): what it leaves of each part of the
state. -/

namespace Sys2Proof.Machine

variable {s t u : State} {x y : CtxId}

/-! ### The contexts (R70) -/

/-- `t` is `s` but for contexts, regions and channels. -/
def HaltOnly (s t : State) : Prop := ∃ cs rs ch, t = { s with ctxs := cs, regions := rs, chans := ch }

theorem HaltOnly.refl (s : State) : HaltOnly s s := ⟨s.ctxs, s.regions, s.chans, rfl⟩

theorem HaltOnly.trans (h : HaltOnly s t) (g : HaltOnly t u) : HaltOnly s u := by
  obtain ⟨_, _, _, rfl⟩ := h
  obtain ⟨cs, rs, ch, rfl⟩ := g
  exact ⟨cs, rs, ch, rfl⟩

theorem RecordsOnly.haltOnly (h : RecordsOnly s t) : HaltOnly s t := by
  refine ⟨t.ctxs, t.regions, t.chans, ?_⟩
  obtain ⟨⟨_, rlts, patrol, log, cme⟩, ⟨pending, dev, lif, width, tick, anchor, anchorHigh, settings, enabled, present, lockdown⟩,
    lanes, dar, ntu, out⟩ := h
  cases t
  simp only at *
  subst_vars
  rfl

theorem ctxSettle_recordsOnly (x : CtxId) (s : State) : RecordsOnly s (ctxSettle x s) := by
  rcases ctxSettle_cases x s with e | ⟨e, -⟩ | ⟨e, -⟩ | e <;> rw [e]
  · exact .refl s
  · exact freeContext_recordsOnly x s
  · exact (enterFinishing_ctxOnly x s).toRecordsOnly
  · exact (setCtx_ctxOnly s x _).toRecordsOnly

theorem ctxSettle_ctx_other (h : y ≠ x) (s : State) : (ctxSettle x s).ctx y = s.ctx y := by
  rcases ctxSettle_cases x s with e | ⟨e, -⟩ | ⟨e, -⟩ | e <;> rw [e]
  · exact freeContext_ctx_other s h
  · exact (enterFinishing_ctxOnly x s).ctxs y h
  · exact ctx_setCtx_other _ _ _ _ h

/-- A context at the entry to HALTED, before it settles. -/
def haltedContext (x : CtxId) (s : State) : State :=
  (withdrawHeld x s).setCtx x
    { ((withdrawHeld x s).ctx x).dropBlocks BlockPhase.hostFacing with abortMark := true, listReading := false }

theorem ctxHalt_free (h : (s.ctx x).state = .free) : ctxHalt x s = s := if_pos h

theorem ctxHalt_busy (h : (s.ctx x).state ≠ .free) : ctxHalt x s = ctxSettle x (haltedContext x s) := if_neg h

theorem haltedContext_only (x : CtxId) (s : State) : HaltOnly s (haltedContext x s) := ⟨_, _, _, rfl⟩

theorem ctxHalt_haltOnly (x : CtxId) (s : State) : HaltOnly s (ctxHalt x s) := by
  by_cases free : (s.ctx x).state = .free
  · rw [ctxHalt_free free]
    exact .refl s
  · rw [ctxHalt_busy free]
    exact (haltedContext_only x s).trans (ctxSettle_recordsOnly x _).haltOnly

theorem ctxHalt_ctx_other (h : y ≠ x) (s : State) : (ctxHalt x s).ctx y = s.ctx y := by
  by_cases free : (s.ctx x).state = .free
  · rw [ctxHalt_free free]
  · rw [ctxHalt_busy free, ctxSettle_ctx_other h, haltedContext, withdrawHeld, ctx_setCtx_other _ _ _ _ h, ctx_setCtx_other _ _ _ _ h]
    rfl

/-- The held steps of a context that is not FREE leave every lock's list, in a warm reset too. -/
theorem ctxHalt_chan (x : CtxId) (s : State) (v : UnitId) :
    (ctxHalt x s).chan v = (s.chan v).forget fun y => y == x && (s.ctx y).state != .free := by
  by_cases free : (s.ctx x).state = .free
  · rw [ctxHalt_free free]
    refine ((s.chan v).forget_none.symm).trans (congrArg _ (funext fun y => ?_))
    by_cases own : y = x
    · subst own
      simp [free]
    · simp [own]
  · have settled : (ctxHalt x s).chan v = (forgetHeld x s).chan v := by
      rw [ctxHalt_busy free]
      exact congrArg (fun cs : Vector Channel 4 => cs[v]) (ctxSettle_recordsOnly x _).media.chans
    have forgotten : (forgetHeld x s).chan v = (s.chan v).forget fun y => y == x := forgetHeld_chan x s v
    refine settled.trans (forgotten.trans (congrArg _ (funext fun y => ?_)))
    by_cases own : y = x
    · simp [own, free]
    · simp [own]

theorem forEach_ctxHalt_haltOnly (xs : List CtxId) (s : State) : HaltOnly s (forEach xs ctxHalt s) := by
  induction xs generalizing s with
  | nil => exact .refl s
  | cons a xs ih => exact (ctxHalt_haltOnly a s).trans (ih _)

theorem forEach_ctxHalt_chan (xs : List CtxId) (hn : xs.Nodup) (s : State) (v : UnitId) :
    (forEach xs ctxHalt s).chan v = (s.chan v).forget fun y => xs.contains y && (s.ctx y).state != .free := by
  induction xs generalizing s with
  | nil => exact ((s.chan v).forget_none.symm).trans (congrArg _ (funext fun y => rfl))
  | cons a xs ih =>
    obtain ⟨ha, hn⟩ := List.nodup_cons.mp hn
    change (forEach xs ctxHalt (ctxHalt a s)).chan v = _
    rw [ih hn, ctxHalt_chan, Channel.forget_forget]
    refine congrArg _ (funext fun y => ?_)
    by_cases own : y = a
    · subst own
      simp [ha]
    · simp [own, ctxHalt_ctx_other own]

/-! ### The lanes (R176) -/

theorem laneHalt_lane (l k : LaneId) (s : State) : (laneHalt l s).lane k
    = if k = l then { s.lane l with reading := none, poll := none } else s.lane k := modLane_lane l k _ s

theorem laneHalts_lane (l : LaneId) (s : State) :
    (forEach four laneHalt s).lane l = { s.lane l with reading := none, poll := none } := by
  obtain ⟨u, -, same, own⟩ := (forEach_lane (R := fun _ _ => True) (fun _ => trivial) (fun _ _ => trivial) (fun _ _ => trivial)
    (fun l k t h => (laneHalt_lane l k t).trans (if_neg h)) four four_nodup s).2 l (mem_four l)
  rw [own, laneHalt_lane, if_pos rfl, same]

theorem laneHalts_eq (s : State) : ∃ ls, forEach four laneHalt s = { s with lanes := ls } := ⟨_, rfl⟩

/-! ### The entry itself (R198) -/

/-- Device, LIF and notification unit at the entry to HALTED. -/
def haltBegun (cause : FaultCode) (s : State) : State :=
  { s with
    dev := { s.dev with state := .halted, fault := cause, runPending := false }
    lif := s.lif.cutOff
    ntu := { s.ntu with writes := [], handed := 0, routeA := s.ntu.routeA.frozen, routeB := s.ntu.routeB.frozen } }

theorem haltEntry_eq (cause : FaultCode) (s : State) :
    haltEntry cause s = forEach eight ctxHalt (forEach four laneHalt (haltBegun cause s)) := rfl

theorem haltEntry_parts (cause : FaultCode) (s : State) :
    ∃ cs rs ch ls, haltEntry cause s = { haltBegun cause s with ctxs := cs, regions := rs, chans := ch, lanes := ls } := by
  obtain ⟨ls, lanes⟩ := laneHalts_eq (haltBegun cause s)
  obtain ⟨cs, rs, ch, e⟩ := forEach_ctxHalt_haltOnly eight (forEach four laneHalt (haltBegun cause s))
  exact ⟨cs, rs, ch, ls, by rw [haltEntry_eq, e, lanes]⟩

theorem eight_nodup : eight.Nodup := by decide

theorem haltEntry_chan (cause : FaultCode) (s : State) (v : UnitId) : (haltEntry cause s).chan v = { s.chan v with
    locks := (s.chan v).locks.map fun k => { k with held := k.held.filter fun h => (s.ctx h.1).state == .free } } := by
  rw [haltEntry_eq, forEach_ctxHalt_chan eight eight_nodup]
  have busy : (fun y => eight.contains y && ((forEach four laneHalt (haltBegun cause s)).ctx y).state != .free)
      = fun y => (s.ctx y).state != .free := funext fun y => by
    rw [List.contains_iff_mem.mpr (mem_eight y), Bool.true_and]
    rfl
  rw [busy, Channel.forget]
  simp only [bne, Bool.not_not]
  rfl

theorem haltEntry_lane (cause : FaultCode) (s : State) (l : LaneId) :
    (haltEntry cause s).lane l = { s.lane l with reading := none, poll := none } := by
  have lanes := laneHalts_lane l (haltBegun cause s)
  obtain ⟨cs, rs, ch, e⟩ := forEach_ctxHalt_haltOnly eight (forEach four laneHalt (haltBegun cause s))
  rw [haltEntry_eq, e]
  exact lanes

end Sys2Proof.Machine
end
section
/-! O39, the errors that halt the device (R36, R70, R180, R198 to R200). -/

namespace Sys2Proof.Machine

variable {s t u : State}

/-! ### Ends of accesses of an earlier epoch -/

theorem awaits_stale {epoch : Nat} (h : epoch ≠ s.lif.epoch) : s.awaits epoch = false := beq_eq_false_iff_ne.mpr h

/-- The end of an access issued before the last halt or cold reset does nothing (log entry 75). -/
theorem exec_stale (c : Instr) {epoch : Nat} (issued : issuedIn c = some epoch) (h : epoch ≠ s.lif.epoch) :
    exec c s = .next s := by
  have stale := Bool.eq_false_iff.mp (awaits_stale h)
  cases c <;> cases issued <;> refine congrArg Host.Outcome.next ?_
  case fetchEnd => simp only [awaits_stale h]
  case linkReadEnd => simp only [awaits_stale h]
  all_goals exact if_neg fun awaited => stale awaited.1

/-! ### The two errors (R36, R180) -/

theorem exec_resultError_ignored (h : haltsTaken s = false) (epoch : Nat) : exec (.resultError epoch) s = .next s :=
  congrArg Host.Outcome.next (if_neg fun taken => Bool.eq_false_iff.mp h taken.2)

theorem exec_deviceAreaError_ignored (h : haltsTaken s = false ∨ s.ntu.handed = 0) (epoch : Nat) :
    exec (.deviceAreaError epoch) s = .next s :=
  congrArg Host.Outcome.next (if_neg fun taken => h.elim (fun h => Bool.eq_false_iff.mp h taken.2.2) (Nat.ne_of_gt taken.2.1))

theorem exec_error (h : haltsTaken s = true) {c : Instr} {cause : FaultCode}
    (error : (c = .resultError s.lif.epoch ∧ cause = .resultError)
      ∨ (c = .deviceAreaError s.lif.epoch ∧ cause = .deviceAreaError ∧ 0 < s.ntu.handed)) :
    exec c s = .next (finishEvent (haltEntry cause s)) := by
  rcases error with ⟨rfl, rfl⟩ | ⟨rfl, rfl, inFlight⟩
  · exact congrArg Host.Outcome.next (if_pos ⟨awaits_self s, h⟩)
  · exact congrArg Host.Outcome.next (if_pos ⟨awaits_self s, inFlight, h⟩)

/-! ### The tests of the event's end in HALTED (R176, R200) -/

/-- In HALTED the lanes turn OFF without a write or a cause. -/
theorem settleLanes_halted (halted : s.dev.state = .halted) : ∃ ls, settleLanes s = { s with lanes := ls } := by
  rw [settleLanes_eq]
  have each (l : LaneId) (t : State) (halted : t.dev.state = .halted) : ∃ ls, settleLane l t = { t with lanes := ls } := by
    unfold settleLane
    rw [if_pos (by simp [State.halted, halted])]
    split
    · unfold laneHaltedOff
      dsimp only
      split
      · exact ⟨_, rfl⟩
      · exact ⟨t.lanes, rfl⟩
    · exact ⟨t.lanes, rfl⟩
  generalize four = ls
  induction ls generalizing s with
  | nil => exact ⟨s.lanes, rfl⟩
  | cons l ls ih =>
    obtain ⟨own, e⟩ := each l s halted
    obtain ⟨rest, e'⟩ := ih (s := settleLane l s) (by rw [e]; exact halted)
    exact ⟨rest, by change forEach ls settleLane (settleLane l s) = _; rw [e', e]⟩

/-- In HALTED without a warm reset an event's end changes nothing. -/
theorem finishEvent_halted (halted : s.dev.state = .halted) (noReset : s.dev.resetInProgress = false) : finishEvent s = s := by
  have lanes : settleLanes s = s := by
    rw [settleLanes_eq]
    refine forEach_self fun l _ => ?_
    unfold settleLane
    rw [if_pos (by simp [State.halted, halted]), noReset, if_neg Bool.false_ne_true]
  rw [finishEvent_noReset noReset, lanes, stoppedCheck, if_neg fun ends => ?_]
  rw [halted] at ends
  cases ends.1

theorem resetWorkOver_congr {p q : Prop} (h : p ↔ q) (s : State) : ResetWorkOver p s ↔ ResetWorkOver q s := by
  rw [propext h]

/-- In HALTED the work of a warm reset is judged without regard to the write list, and with it over the device is STOPPED. -/
theorem finishEvent_haltedReset (halted : s.dev.state = .halted) (reset : s.dev.resetInProgress = true) :
    (ResetWorkOver True (finishEvent s) → finishEvent s = resetEnd (settleLanes s))
      ∧ (¬ ResetWorkOver True (finishEvent s) → finishEvent s = settleLanes s) := by
  rw [← resetWorkOver_congr (iff_true_intro halted)]
  exact finishEvent_reset_cases reset

/-- Settles O39: the entry to HALTED part by part (`haltEntry_parts`, `haltEntry_chan`, `haltEntry_lane`, `forEach_ctxHalt`), then
the tests of the event's end in HALTED. -/
theorem writeErrorsHaltTheDevice : Obligations.WriteErrorsHaltTheDevice := by
  refine fun s => ⟨fun h epoch => ⟨exec_resultError_ignored h epoch, exec_deviceAreaError_ignored (.inl h) epoch⟩,
    fun h epoch => exec_deviceAreaError_ignored (.inr h) epoch, fun c epoch issued h => exec_stale c issued h,
    fun taken noReset c cause error => ⟨finishEvent (haltEntry cause s), exec_error taken error, ?_⟩,
    fun taken reset c cause error => ⟨finishEvent (haltEntry cause s), exec_error taken error, ?_⟩⟩
  · have chan := haltEntry_chan cause s
    have lane := haltEntry_lane cause s
    obtain ⟨free, busy, -⟩ := forEach_ctxHalt eight eight_nodup (forEach four laneHalt (haltBegun cause s)) rfl noReset
    rw [← haltEntry_eq] at free busy
    obtain ⟨cs, rs, ch, ls, e⟩ := haltEntry_parts cause s
    rw [finishEvent_halted (haltEntry_dev cause s ▸ rfl) (haltEntry_dev cause s ▸ noReset)]
    rw [e] at chan lane free busy ⊢
    refine ⟨rfl, rfl, rfl, rfl, fun r => by cases r <;> rfl, lane, fun x h => ?_, fun x h => free x (.inr h), fun x h => ?_, chan,
      rfl, rfl, rfl, rfl, rfl, rfl, rfl, rfl⟩
    · exact ⟨(busy x (mem_eight x) h).abortMark, (busy x (mem_eight x) h).state⟩
    · have halted := busy x (mem_eight x) h
      exact ⟨halted.listReading, halted.failure, halted.blocksOk, halted.dropped⟩
  · have chan := haltEntry_chan cause s
    have halted : (haltEntry cause s).dev.state = .halted := by rw [haltEntry_dev]
    have inReset : (haltEntry cause s).dev.resetInProgress = true := by rw [haltEntry_dev]; exact reset
    obtain ⟨ends, waits⟩ := finishEvent_haltedReset halted inReset
    obtain ⟨ls, settled⟩ := settleLanes_halted halted
    obtain ⟨d, anchor, high, a, b, tested⟩ := resetEndCheck_eq (settleLanes (haltEntry cause s))
    obtain ⟨cs, rs, ch, ls', e⟩ := haltEntry_parts cause s
    rw [← finishEvent_reset inReset] at tested
    generalize finishEvent (haltEntry cause s) = t at *
    rw [settled, e] at tested ends waits
    rw [e] at chan
    refine ⟨by rw [tested]; rfl, by rw [tested]; rfl, by rw [tested]; rfl, by rw [tested]; rfl, by rw [tested]; rfl,
      by rw [tested]; rfl, by rw [tested]; rfl, by rw [tested]; rfl, by rw [tested]; rfl, by rw [tested]; rfl,
      by rw [tested]; exact chan, fun done => ?_, fun left => ?_⟩
    · rw [ends done]
      exact ⟨rfl, rfl, rfl⟩
    · rw [waits left]
      exact ⟨rfl, rfl, rfl⟩

end Sys2Proof.Machine
end
section
/-! O7, a warm reset at the blocks of a unit (R89, R96, R119): what channel and relocation table are after it, and which ends and
releases it hands on. -/

namespace Sys2Proof.Machine

variable {s t u : State} {c : Channel} {x : CtxId} {v : UnitId}

/-! ### One operation on several units -/

/-- `f` on the units of a list, each touching its own channel and table alone: what a unit of the list becomes `f` makes of a
state that has the unit as it was, and what `f` hands on there is handed on. -/
theorem effEach_units {f : UnitId → State → Eff} (own : ∀ a b t, b ≠ a → (f a t).1.chan b = t.chan b ∧ (f a t).1.rlt b = t.rlt b)
    (xs : List UnitId) (hn : xs.Nodup) (s : State) :
    (∀ b ∉ xs, (effEach xs f s).1.chan b = s.chan b ∧ (effEach xs f s).1.rlt b = s.rlt b)
      ∧ ∀ b ∈ xs, ∃ t, t.chan b = s.chan b ∧ t.rlt b = s.rlt b ∧ (effEach xs f s).1.chan b = (f b t).1.chan b
        ∧ (effEach xs f s).1.rlt b = (f b t).1.rlt b ∧ (f b t).2 ⊆ (effEach xs f s).2 := by
  induction xs generalizing s with
  | nil => exact ⟨fun _ _ => ⟨rfl, rfl⟩, fun b h => absurd h List.not_mem_nil⟩
  | cons a xs ih =>
    obtain ⟨ha, hn⟩ := List.nodup_cons.mp hn
    obtain ⟨outside, inside⟩ := ih hn (f a s).1
    refine ⟨fun b hb => ?_, fun b hb => ?_⟩
    · obtain ⟨ne, hb⟩ := not_or.mp (mt List.mem_cons.mpr hb)
      exact ⟨(outside b hb).1.trans (own a b s ne).1, (outside b hb).2.trans (own a b s ne).2⟩
    · rcases List.mem_cons.mp hb with rfl | hb
      · exact ⟨s, rfl, rfl, (outside b ha).1, (outside b ha).2, List.subset_append_left _ _⟩
      · have ne : b ≠ a := fun e => ha (e ▸ hb)
        obtain ⟨t, chan, rlt, chan', rlt', hands⟩ := inside b hb
        exact ⟨t, chan.trans (own a b s ne).1, rlt.trans (own a b s ne).2, chan', rlt',
          fun m hm => List.mem_append_right _ (hands hm)⟩

/-! ### The channel (R96) -/

/-- A channel at a warm reset. -/
def Channel.reset (c : Channel) : Channel :=
  { c with queue := c.queue.filter fun e => !e.isForeground, waiting := [], marks := [] }

theorem chanReset_own (a b : UnitId) (t : State) (h : b ≠ a) :
    (chanReset a t).1.chan b = t.chan b ∧ (chanReset a t).1.rlt b = t.rlt b := ⟨chan_setChan_other _ _ _ _ h, rfl⟩

theorem chanReset_chan (v : UnitId) (s : State) : (chanReset v s).1.chan v = (s.chan v).reset := chan_setChan_same ..

/-- Each FOREGROUND entry not yet started is withdrawn, and its context told. -/
theorem chanReset_withdraws {j : Nat} {lane : LaneId} {region : Nat} {weak : Bool} {cmd : StepCmd} {b : Nat}
    (h : (⟨.foreground x j lane region weak, cmd, b⟩ : QEntry) ∈ (s.chan v).queue ++ (s.chan v).waiting) :
    .stepEnds x j .withdrawn false ∈ (chanReset v s).2 := by
  refine List.mem_append_left _ (List.mem_map.mpr ⟨(x, j, cmd), ?_, rfl⟩)
  exact List.mem_filterMap.mpr ⟨_, List.mem_filter.mpr ⟨h, rfl⟩, rfl⟩

/-! ### The moves' ends (R89, R119) -/

theorem withoutMoves_cons (mid : Nat) (mids : List Nat) (c : Channel) :
    withoutMoves mids (withoutMoves [mid] c) = withoutMoves (mid :: mids) c := by
  have moveBuf : (c.moveBuf.filter fun b => !([mid].contains b.mid)).filter (fun b => !mids.contains b.mid)
      = c.moveBuf.filter fun b => !((mid :: mids).contains b.mid) := by
    cases c.moveBuf with
    | none => rfl
    | some b => by_cases own : b.mid = mid <;> simp [Option.filter, own]
  unfold withoutMoves
  dsimp only
  rw [moveBuf, List.filter_filter, List.filter_filter]
  congr 1
  · refine List.filter_congr fun e _ => ?_
    simp [Bool.and_comm]
  · refine List.filter_congr fun k _ => ?_
    simp [Bool.and_comm]

theorem withoutMoves_nil (c : Channel) : withoutMoves [] c = c := by
  have moveBuf : (c.moveBuf.filter fun b => !([].contains b.mid)) = c.moveBuf := by cases c.moveBuf <;> rfl
  unfold withoutMoves
  rw [moveBuf]
  simp

theorem endMoves_eq (ms : List Move) (c : Channel) :
    ms.foldl (fun c m => c.endMove m.mid) c = withoutMoves (ms.map Move.mid) c := by
  induction ms generalizing c with
  | nil => exact (withoutMoves_nil c).symm
  | cons m ms ih => rw [List.foldl_cons, ih, endMove_eq, withoutMoves_cons, List.map_cons]

theorem resetEndsMoves_gone {ms : List Move} {m : Move} (hm : m ∈ ms) {w : Waiter} (hw : w ∈ m.req.waiters) (s : State) :
    .blockEnds w.ctx w.j .gone ∈ (effEach ms (resetEndsMove v) s).2 := by
  induction ms generalizing s with
  | nil => exact absurd hm List.not_mem_nil
  | cons n ms ih =>
    rcases List.mem_cons.mp hm with rfl | hm
    · exact List.mem_append_left _ (List.mem_append_left _ (List.mem_append_right _ (mem_waitersEnd hw fun _ => .gone)))
    · exact List.mem_append_right _ (ih hm _)

/-- A step held under the lock of an ended move is released. -/
theorem resetEndsMoves_reissues {ms : List Move} {k : Lock} (hk : k ∈ (s.chan v).locks) (ended : k.mid ∈ ms.map Move.mid)
    {h : CtxId × Nat} (hh : h ∈ k.held) : .reissue h.1 h.2 ∈ (effEach ms (resetEndsMove v) s).2 := by
  induction ms generalizing s with
  | nil => exact absurd ended List.not_mem_nil
  | cons m ms ih =>
    by_cases own : k.mid = m.mid
    · refine List.mem_append_left _ (List.mem_append_left _ (List.mem_append_left _ (List.mem_append_right _ ?_)))
      refine List.mem_map.mpr ⟨h, List.mem_flatMap.mpr ⟨k, List.mem_filter.mpr ⟨hk, ?_⟩, hh⟩, rfl⟩
      exact beq_iff_eq.mpr own
    · refine List.mem_append_right _ (ih ?_ ((List.mem_cons.mp ended).resolve_left own))
      have left : (resetEndsMove v m s).1.chan v = (s.chan v).endMove m.mid := chan_setChan_same ..
      rw [left]
      exact List.mem_filter.mpr ⟨hk, bne_iff_ne.mpr own⟩

theorem rltReset_own (a b : UnitId) (t : State) (h : b ≠ a) :
    (rltReset a t).1.chan b = t.chan b ∧ (rltReset a t).1.rlt b = t.rlt b := by
  obtain ⟨-, chans, rlts⟩ := resetEnds_blocks a ((t.rlt a).moves.filter Move.unbatched)
    (t.setRlt a { t.rlt a with moves := (t.rlt a).moves.filter fun m => !m.unbatched, requests := [] })
  exact ⟨chans b h, (rlts b).trans (rlt_setRlt_other _ _ _ _ h)⟩

theorem rltReset_chan (v : UnitId) (s : State) : (rltReset v s).1.chan v
    = withoutMoves (((s.rlt v).moves.filter Move.unbatched).map Move.mid) (s.chan v) := by
  obtain ⟨chan, -, -⟩ := resetEnds_blocks v ((s.rlt v).moves.filter Move.unbatched)
    (s.setRlt v { s.rlt v with moves := (s.rlt v).moves.filter fun m => !m.unbatched, requests := [] })
  exact chan.trans (endMoves_eq _ _)

theorem rltReset_rlt (v : UnitId) (s : State) : (rltReset v s).1.rlt v
    = { s.rlt v with moves := (s.rlt v).moves.filter fun m => !m.unbatched, requests := [] } := by
  obtain ⟨-, -, rlts⟩ := resetEnds_blocks v ((s.rlt v).moves.filter Move.unbatched)
    (s.setRlt v { s.rlt v with moves := (s.rlt v).moves.filter fun m => !m.unbatched, requests := [] })
  exact (rlts v).trans (rlt_setRlt_same ..)

theorem rltReset_gone {w : Waiter} (h : (∃ m ∈ (s.rlt v).moves, m.unbatched = true ∧ w ∈ m.req.waiters)
    ∨ ∃ q ∈ (s.rlt v).requests, w ∈ q.waiters) : .blockEnds w.ctx w.j .gone ∈ (rltReset v s).2 := by
  rcases h with ⟨m, hm, unbatched, hw⟩ | ⟨q, hq, hw⟩
  · exact List.mem_append_left _ (resetEndsMoves_gone (List.mem_filter.mpr ⟨hm, unbatched⟩) hw _)
  · exact List.mem_append_right _ (List.mem_flatMap.mpr ⟨q, hq, mem_waitersEnd hw fun _ => .gone⟩)

theorem rltReset_reissues {k : Lock} (hk : k ∈ (s.chan v).locks)
    (ended : k.mid ∈ ((s.rlt v).moves.filter Move.unbatched).map Move.mid) {h : CtxId × Nat} (hh : h ∈ k.held) :
    .reissue h.1 h.2 ∈ (rltReset v s).2 :=
  List.mem_append_left _ (resetEndsMoves_reissues (s := s.setRlt v _) hk ended hh)

end Sys2Proof.Machine
end
section
/-! O7, a warm reset at the lanes, at patrol and at the blocks together (R58, R137, R173, R176, R200). -/

namespace Sys2Proof.Machine

variable {α : Type} {p : State → α} {s t u : State} {l k : LaneId} {x : CtxId} {v : UnitId}

/-! ### The device (R58, R200) -/

theorem resetDevice_eq (s : State) : resetDevice s = { s with
    dev := (resetDevice s).dev, dar := { s.dar with credit := s.dar.weight, pointer := 0 } } := by
  by_cases halted : s.dev.state = .halted
  · rw [resetDevice, takeAction_halted halted]
  · rw [resetDevice, takeAction_live halted]
    rfl

/-! ### The lanes (R173, R176) -/

theorem forEach_congr_of {β : Type} {f g : β → State → State} {holds : State → Prop} (same : ∀ b t, holds t → f b t = g b t)
    (keeps : ∀ b t, holds t → holds (f b t)) (bs : List β) (start : holds s) : forEach bs f s = forEach bs g s := by
  induction bs generalizing s with
  | nil => rfl
  | cons b bs ih =>
    change forEach bs f (f b s) = forEach bs g (g b s)
    rw [ih (keeps b s start), same b s start]

theorem resetLanes_live (live : s.dev.state ≠ .halted) : forEach four resetLane s = abortLanes 15#4 s := by
  refine forEach_congr_of (holds := fun t => t.dev.state ≠ .halted) (fun l t live => ?_)
    (fun l t live => by rwa [resetLane_dev]) four live
  have named : (15#4).getLsbD l.val = true := by revert l; decide
  rw [resetLane, if_neg (by simpa [State.halted] using live), abortAt, if_pos named]

theorem resetLanes_halted (halted : s.dev.state = .halted) : forEach four resetLane s = forEach four laneHaltedAbort s :=
  forEach_congr_of (f := resetLane) (holds := fun t => t.dev.state = .halted) (fun l t h => if_pos (by simpa [State.halted] using h))
    (fun l t h => by rwa [resetLane_dev]) four halted

/-- The lanes' reset leaves all but lanes, contexts, held lists, notification unit and links, and takes from the held lists only
steps of contexts that were stepping. -/
theorem resetLanes_aborts (s : State) : AbortOnly s (forEach four resetLane s) ∧ ∃ gone : CtxId → Bool,
    (∀ x, gone x = true → (s.ctx x).stepping = true) ∧ ∀ v, (forEach four resetLane s).chan v = (s.chan v).forget gone := by
  by_cases halted : s.dev.state = .halted
  · have only : LanesOnly s (forEach four laneHaltedAbort s) := .each laneHaltedAbort_lanesOnly four s
    rw [resetLanes_halted halted]
    refine ⟨only.abortOnly, fun _ => false, fun _ h => Bool.noConfusion h, fun v => ?_⟩
    rw [Channel.forget_none]
    exact congrArg (fun cs : Vector Channel 4 => cs[v]) only.media.chans
  · have aborts := abortLanes_aborts halted 15#4
    rw [resetLanes_live halted]
    exact ⟨aborts.only, _, fun x h => (Bool.and_eq_true_iff.mp h).2, aborts.chan⟩

theorem laneHaltedAbort_lane_other (l k : LaneId) (s : State) (h : k ≠ l) : (laneHaltedAbort l s).lane k = s.lane k := by
  unfold laneHaltedAbort
  split
  · rfl
  · rfl
  · rw [modLane_lane, if_neg h]

theorem resetLane_lane_other (l k : LaneId) (s : State) (h : k ≠ l) : (resetLane l s).lane k = s.lane k := by
  unfold resetLane
  split
  · exact laneHaltedAbort_lane_other l k s h
  · exact laneAbort_lane_other l k s h

/-- OFF or DRAINING, under the configuration of `k`. -/
def Lane.stopsAs (n k : Lane) : Prop := (n.state = .off ∨ n.state = .draining) ∧ n.cfg = k.cfg

theorem LaneSettled.stopsAs {k n m : Lane} (h : LaneSettled n m) (stops : n.stopsAs k) : m.stopsAs k := by
  obtain ⟨off | draining, cfg⟩ := stops
  · rw [h.kept (by rw [off]; nofun)]
    exact ⟨.inl off, cfg⟩
  · exact ⟨(h.drained draining).symm, h.cfg.trans cfg⟩

theorem Lane.cancelled_stops (k : Lane) : k.drain.cancelled.stopsAs k := by
  unfold Lane.cancelled
  split <;> exact ⟨.inr rfl, rfl⟩

theorem laneAbort_stops (l : LaneId) (s : State) : ((laneAbort l s).lane l).stopsAs (s.lane l) := by
  cases active : (s.lane l).active with
  | true =>
    rw [laneAbort_active active]
    refine (laneOff_lane l l _).stopsAs ?_
    rw [beginAbort_lane]
    exact (s.lane l).cancelled_stops
  | false =>
    rw [laneAbort_idle active]
    refine ⟨?_, rfl⟩
    by_cases off : (s.lane l).state = .off
    · exact .inl off
    · exact .inr (by simpa [Lane.active, off] using active)

theorem laneHaltedAbort_stops (l : LaneId) (s : State) : ((laneHaltedAbort l s).lane l).stopsAs (s.lane l) := by
  unfold laneHaltedAbort
  split
  · next off => exact ⟨.inl off, rfl⟩
  · next draining => exact ⟨.inr draining, rfl⟩
  · rw [modLane_lane, if_pos rfl]
    exact ⟨.inr rfl, rfl⟩

theorem resetLanes_stop (l : LaneId) (s : State) : ((forEach four resetLane s).lane l).stopsAs (s.lane l) := by
  obtain ⟨u, -, same, own⟩ := (forEach_lane (R := fun _ _ => True) (fun _ => trivial) (fun _ _ => trivial) (fun _ _ => trivial)
    resetLane_lane_other four four_nodup s).2 l (mem_four l)
  rw [own, ← same]
  unfold resetLane
  split
  · exact laneHaltedAbort_stops l u
  · exact laneAbort_stops l u

/-! ### The blocks together (R200) -/

theorem effEach_chanReset_eq (xs : List UnitId) (s : State) : ∃ cs, (effEach xs chanReset s).1 = { s with chans := cs } := by
  induction xs generalizing s with
  | nil => exact ⟨s.chans, rfl⟩
  | cons a xs ih =>
    obtain ⟨cs, e⟩ := ih (chanReset a s).1
    exact ⟨cs, e⟩

/-- A part of the state that no update of a block touches is after the blocks' reset as the lanes have left it. -/
theorem resetBlocks_afterLanes (hp : CascadeFrame p) (s : State) : p (resetBlocks s).1 = p (forEach four resetLane s) := by
  rw [resetBlocks_eq, resetChannels, effEach_frame rltReset (fun u t => rltReset_frame hp u t),
    effEach_frame chanReset (fun u t => chanReset_frame hp u t)]

/-- An open pass ends RESET between the channels' part and the relocation tables' (R130, R137). -/
theorem resetBlocks_endsPass (h : s.patrol.running = true) : (resetBlocks (resetDevice s)).2
    = (resetChannels (resetDevice s)).2 ++ (.change (.log (passEntry s .reset)) :: .passPosted .reset
        :: s.patrol.stopList.map (fun x => .passEnded x s.patrol.passNumber) ++ [.passClosed false])
      ++ (effEach four rltReset (resetChannels (resetDevice s)).1).2 := by
  obtain ⟨ls, n, o, cs, ch, lanes⟩ := (resetLanes_aborts (resetDevice s)).1
  obtain ⟨ch', chans⟩ := effEach_chanReset_eq four (forEach four resetLane (resetDevice s))
  have closed : (patrolReset (resetChannels (resetDevice s)).1).2
      = .change (.log (passEntry s .reset)) :: .passPosted .reset
        :: s.patrol.stopList.map (fun x => .passEnded x s.patrol.passNumber) ++ [.passClosed false] := by
    rw [resetChannels, chans, lanes, resetDevice_eq]
    unfold patrolReset
    rw [if_pos h]
    rfl
  rw [resetBlocks_eq, closed]
  exact (List.append_assoc ..).symm

/-- What a warm reset of `s` makes of a unit: its channel and relocation table in `E`, with `gone` the contexts whose steps the
aborts of the lanes take from the held lists, and what the effects handed on, `ms`, hold for it. -/
structure UnitReset (v : UnitId) (gone : CtxId → Bool) (s E : State) (ms : List Msg) : Prop where
  chan : E.chan v = withoutMoves (((s.rlt v).moves.filter Move.unbatched).map Move.mid) ((s.chan v).forget gone).reset
  rlt : E.rlt v = { s.rlt v with moves := (s.rlt v).moves.filter fun m => !m.unbatched, requests := [] }
  reissues : ∀ k ∈ ((s.chan v).forget gone).locks, k.mid ∈ ((s.rlt v).moves.filter Move.unbatched).map Move.mid →
    ∀ h ∈ k.held, .reissue h.1 h.2 ∈ ms
  withdraws : ∀ x j lane region weak cmd b,
    (⟨.foreground x j lane region weak, cmd, b⟩ : QEntry) ∈ (s.chan v).queue ++ (s.chan v).waiting →
    .stepEnds x j .withdrawn false ∈ ms
  ends : ∀ w, ((∃ m ∈ (s.rlt v).moves, m.unbatched = true ∧ w ∈ m.req.waiters) ∨ ∃ q ∈ (s.rlt v).requests, w ∈ q.waiters) →
    .blockEnds w.ctx w.j .gone ∈ ms

/-- The channels' reset and then the relocation tables', over a state `L` that has the unit as in `s` without the steps of `gone`. -/
theorem unitReset_of {v : UnitId} {gone : CtxId → Bool} {s L : State} {e : Eff} (chans : effEach four chanReset L = e)
    (chan : L.chan v = (s.chan v).forget gone) (rlt : L.rlt v = s.rlt v) :
    UnitReset v gone s (effEach four rltReset e.1).1 (e.2 ++ (effEach four rltReset e.1).2) := by
  obtain ⟨t, chanT, rltT, chanT', rltT', handsT⟩ := (effEach_units chanReset_own four four_nodup L).2 v (mem_four v)
  have kept : (chanReset v t).1.rlt v = t.rlt v := rfl
  rw [chans] at chanT' rltT' handsT
  rw [chanReset_chan, chanT, chan] at chanT'
  rw [kept, rltT, rlt] at rltT'
  obtain ⟨u, chanU, rltU, chanU', rltU', handsU⟩ := (effEach_units rltReset_own four four_nodup e.1).2 v (mem_four v)
  rw [chanT'] at chanU
  rw [rltT'] at rltU
  rw [rltReset_chan, rltU, chanU] at chanU'
  rw [rltReset_rlt, rltU] at rltU'
  generalize effEach four rltReset e.1 = r at chanU' rltU' handsU ⊢
  refine ⟨chanU', rltU', fun k hk ended h hh => ?_, fun x j lane region weak cmd b hq => ?_, fun w hw => ?_⟩
  · refine List.mem_append_right _ (handsU (rltReset_reissues ?_ ?_ hh))
    · rw [chanU]
      exact hk
    · rw [rltU]
      exact ended
  · refine List.mem_append_left _ (handsT (chanReset_withdraws (lane := lane) (region := region) (weak := weak) (cmd := cmd) (b := b) ?_))
    rw [chanT, chan]
    exact hq
  · refine List.mem_append_right _ (handsU (rltReset_gone ?_))
    rw [rltU]
    exact hw

theorem UnitReset.mono {v : UnitId} {gone : CtxId → Bool} {s E : State} {ms ns : List Msg} (h : UnitReset v gone s E ms)
    (more : ms ⊆ ns) : UnitReset v gone s E ns where
  chan := h.chan
  rlt := h.rlt
  reissues k hk ended i hi := more (h.reissues k hk ended i hi)
  withdraws x j lane region weak cmd b hq := more (h.withdraws x j lane region weak cmd b hq)
  ends w hw := more (h.ends w hw)

theorem resetBlocks_fst (s : State) : (resetBlocks s).1 = (effEach four rltReset (resetChannels s).1).1 := by
  rw [resetBlocks_eq]

theorem resetBlocks_hands (s : State) :
    (resetChannels s).2 ++ (effEach four rltReset (resetChannels s).1).2 ⊆ (resetBlocks s).2 := by
  rw [resetBlocks_eq]
  generalize (effEach four rltReset (resetChannels s).1) = r
  generalize (patrolReset (resetChannels s).1) = p
  exact List.append_subset.mpr ⟨List.subset_append_left _ _,
    fun _ h => List.mem_append_right _ (List.mem_append_right _ h)⟩

theorem resetBlocks_unit (v : UnitId) (s : State) : ∃ gone : CtxId → Bool, (∀ x, gone x = true → (s.ctx x).stepping = true)
    ∧ UnitReset v gone s (resetBlocks s).1 (resetBlocks s).2 := by
  obtain ⟨only, gone, stepping, chan⟩ := resetLanes_aborts s
  have table : (forEach four resetLane s).rlt v = s.rlt v := by
    generalize forEach four resetLane s = L at only ⊢
    obtain ⟨_, _, _, _, _, rfl⟩ := only
    rfl
  have unit := (unitReset_of (e := resetChannels s) rfl (chan v) table).mono (resetBlocks_hands s)
  rw [← resetBlocks_fst] at unit
  exact ⟨gone, stepping, unit⟩

end Sys2Proof.Machine
end
section
/-! O7, a warm reset from the event to its end (R200): what its work leaves, and where the device stands after it. -/

namespace Sys2Proof.Machine

variable {α : Type} {p : State → α} {s t : State} {v : UnitId}

/-! ### RESET is taken or ignored -/

theorem exec_reset_ignored
    (h : s.dev.state = .probing ∨ (s.dev.state = .halted ∧ s.dev.fault = .probeLayout) ∨ s.dev.resetInProgress = true) :
    exec .reset s = .next s := by
  have ignored : resetTaken s = false := by
    rcases h with probing | ⟨halted, fault⟩ | reset
    · simp [resetTaken, probing]
    · simp [resetTaken, halted, fault]
    · simp [resetTaken, reset]
  exact congrArg Host.Outcome.next (if_neg (Bool.eq_false_iff.mp ignored))

theorem exec_reset_taken (noReset : s.dev.resetInProgress = false) (probed : s.dev.state ≠ .probing)
    (layout : ¬ (s.dev.state = .halted ∧ s.dev.fault = .probeLayout)) : exec .reset s = .next (warmReset s) := by
  have taken : resetTaken s = true := by
    cases h : s.dev.state with
    | probing => exact absurd h probed
    | halted => simpa [resetTaken, noReset, h] using layout
    | stopped | running | stopping => simp [resetTaken, noReset, h]
  exact congrArg Host.Outcome.next (if_pos taken)

/-! ### The unit's channel and table -/

theorem reset_queue (ended : List Nat) (gone : CtxId → Bool) (c : Channel) :
    (withoutMoves ended (c.forget gone).reset).queue = (withoutMoves ended c).queue.filter fun q => !q.isForeground := by
  change (c.queue.filter _).filter _ = (c.queue.filter _).filter _
  rw [List.filter_filter, List.filter_filter]
  exact List.filter_congr fun e _ => Bool.and_comm ..

theorem reset_locks (ended : List Nat) (gone : CtxId → Bool) (c : Channel) :
    (withoutMoves ended (c.forget gone).reset).locks.map (fun k => (k.block, k.mid))
      = (withoutMoves ended c).locks.map fun k => (k.block, k.mid) := by
  change ((c.locks.map _).filter _).map _ = (c.locks.filter _).map _
  rw [List.filter_map, List.map_map]
  rfl

/-- A step of a context that is not stepping stays in the held list of its lock. -/
theorem UnitReset.releases {gone : CtxId → Bool} {E : State} {ms : List Msg} (h : UnitReset v gone s E ms)
    (stepping : ∀ x, gone x = true → (s.ctx x).stepping = true) {k : Lock} (hk : k ∈ (s.chan v).locks)
    (ended : k.mid ∈ ((s.rlt v).moves.filter Move.unbatched).map Move.mid) {i : CtxId × Nat} (hi : i ∈ k.held)
    (issuing : (s.ctx i.1).state ≠ .issuing) (draining : (s.ctx i.1).state ≠ .drainingSteps) : .reissue i.1 i.2 ∈ ms := by
  have kept : gone i.1 = false :=
    Bool.eq_false_iff.mpr fun g => (Context.stepping_iff.mp (stepping i.1 g)).elim issuing draining
  refine h.reissues { k with held := k.held.filter fun h => !gone h.1 } (List.mem_map.mpr ⟨k, hk, rfl⟩) ended i ?_
  exact List.mem_filter.mpr ⟨hi, by rw [kept]; rfl⟩

theorem reset_moves (ms : List Move) : ms.filter (fun m => !m.unbatched) = ms.filter fun m => m.state == .batched :=
  List.filter_congr fun m _ => by simp [Move.unbatched, bne]

/-! ### Up to the tests of the event's end -/

/-- A part of the state that no update of a block or of the commit engine touches is after the work as the lanes have left it. -/
theorem resetWorked_afterLanes (hp : CascadeFrame p) (hc : ∀ (t : State) (c : Cme), p (t.setCme c) = p t) (s : State) :
    p (resetWorked s) = p (forEach four resetLane (resetDevice s)) := by
  have probed : (resetEffects s).1.dev.state ≠ .probing := by
    rw [resetEffects, resetBlocks_frame cascadeFrame_dev resetLane_dev]
    exact resetDevice_probed s
  rw [resetWorked, settleWorked_frame hp hc (resetEffects s) probed, resetEffects, resetBlocks_afterLanes hp]

/-- Such a part that an abort of the lanes leaves is after the work as the update of the device has left it. -/
theorem resetWorked_keeps (hp : CascadeFrame p) (hc : ∀ (t : State) (c : Cme), p (t.setCme c) = p t)
    (lanes : ∀ {t u : State}, AbortOnly t u → p u = p t) (s : State) : p (resetWorked s) = p (resetDevice s) :=
  (resetWorked_afterLanes hp hc s).trans (lanes (resetLanes_aborts (resetDevice s)).1)

/-- The parts that a warm reset leaves from the update of the device to its end. -/
def State.resetView (s : State) : Dar × Tick × Nat × Bool × Settings × Lif :=
  (s.dar, s.tick, s.width, s.lockdown, s.settings, s.lif)

theorem cascadeFrame_resetView : CascadeFrame State.resetView :=
  ⟨⟨fun _ _ _ => rfl, fun _ _ => rfl, fun _ _ _ => rfl, fun _ _ => rfl, fun _ _ _ => rfl, fun _ _ => rfl,
    fun _ _ => rfl, fun s d => by simp [State.resetView]⟩, fun _ _ _ => rfl, fun _ _ _ => rfl⟩

theorem AbortOnly.resetView (h : AbortOnly s t) : t.resetView = s.resetView := by
  obtain ⟨_, _, _, _, _, rfl⟩ := h
  rfl

theorem finishEvent_resetView (hr : s.dev.resetInProgress = true) : (finishEvent s).resetView = s.resetView := by
  obtain ⟨_, _, _, _, _, e⟩ := resetEndCheck_eq (settleLanes s)
  rw [finishEvent_reset hr, e]
  exact (settleLanes_lanesOnly s).abortOnly.resetView

theorem resetWorked_resetInProgress (s : State) : (resetWorked s).dev.resetInProgress = true := by
  rw [resetWorked_dev, resetDevice_dev]

theorem resetWorked_state (s : State) :
    (resetWorked s).dev.state = if s.dev.state = .halted then .halted else .stopping := by
  rw [resetWorked_dev, resetDevice_dev]

theorem resetWorked_halted_iff (s : State) : (resetWorked s).dev.state = .halted ↔ s.dev.state = .halted := by
  rw [resetWorked_state]
  split
  · next halted => exact iff_of_true rfl halted
  · next live => exact iff_of_false nofun live

theorem warmReset_resetView (s : State) : (warmReset s).resetView
    = ({ s.dar with credit := s.dar.weight, pointer := 0 }, s.tick, s.width, s.lockdown, s.settings, s.lif) := by
  rw [warmReset_eq, finishEvent_resetView (resetWorked_resetInProgress s),
    resetWorked_keeps cascadeFrame_resetView (fun _ _ => rfl) AbortOnly.resetView, resetDevice_eq]
  rfl

theorem warmReset_lane (l : LaneId) (s : State) : ((warmReset s).lane l).stopsAs (s.lane l) := by
  have worked : (resetWorked s).lanes = (forEach four resetLane (resetDevice s)).lanes :=
    resetWorked_afterLanes cascadeFrame_lanes (fun _ _ => rfl) s
  have own : (resetDevice s).lane l = s.lane l := by
    rw [resetDevice_eq]
    rfl
  rw [warmReset_eq]
  refine (finishEvent_lane l (resetWorked s)).stopsAs ?_
  rw [← own, State.lane, worked]
  exact resetLanes_stop l (resetDevice s)

theorem resetWorked_anchor (s : State) : (resetWorked s).anchor = s.anchor := by
  refine (resetWorked_keeps cascadeFrame_anchor (fun _ _ => rfl) (fun h => ?_) s).trans ?_
  · obtain ⟨_, _, _, _, _, rfl⟩ := h
    rfl
  · rw [resetDevice_eq]

theorem resetWorked_anchorHigh (s : State) : (resetWorked s).anchorHigh = s.anchorHigh := by
  refine (resetWorked_keeps cascadeFrame_anchorHigh (fun _ _ => rfl) (fun h => ?_) s).trans ?_
  · obtain ⟨_, _, _, _, _, rfl⟩ := h
    rfl
  · rw [resetDevice_eq]

/-! ### The end (R200) -/

theorem warmReset_cases (s : State) :
    (ResetWorkOver (s.dev.state = .halted) (warmReset s) → warmReset s = resetEnd (settleLanes (resetWorked s)))
      ∧ (¬ ResetWorkOver (s.dev.state = .halted) (warmReset s) → warmReset s = settleLanes (resetWorked s)) := by
  rw [warmReset_eq, ← resetWorkOver_congr (resetWorked_halted_iff s)]
  exact finishEvent_reset_cases (resetWorked_resetInProgress s)

theorem warmReset_runPending (s : State) : (warmReset s).dev.runPending = false := by
  have pending : (settleLanes (resetWorked s)).dev.runPending = false := by
    rw [settleLanes_dev, resetWorked_dev, resetDevice_dev]
  by_cases ended : ResetWorkOver (s.dev.state = .halted) (warmReset s)
  · rw [(warmReset_cases s).1 ended]
    generalize settleLanes (resetWorked s) = u at pending ⊢
    exact pending
  · rw [(warmReset_cases s).2 ended]
    exact pending

theorem warmReset_ends (ended : ResetWorkOver (s.dev.state = .halted) (warmReset s)) :
    (warmReset s).dev.resetInProgress = false ∧ (warmReset s).dev.state = .stopped ∧ (warmReset s).dev.fault = .none
      ∧ (warmReset s).anchor = 0 ∧ (warmReset s).anchorHigh = 0 ∧ ∀ r, ((warmReset s).route r).state = .idle := by
  rw [(warmReset_cases s).1 ended]
  generalize settleLanes (resetWorked s) = u
  exact ⟨rfl, rfl, rfl, rfl, rfl, resetEnd_route u⟩

theorem warmReset_lasts (left : ¬ ResetWorkOver (s.dev.state = .halted) (warmReset s)) :
    (warmReset s).dev.resetInProgress = true
      ∧ (warmReset s).dev.state = (if s.dev.state = .halted then .halted else .stopping)
      ∧ (warmReset s).anchor = s.anchor ∧ (warmReset s).anchorHigh = s.anchorHigh := by
  have device := (settleLanes_lanesOnly (resetWorked s)).device
  rw [(warmReset_cases s).2 left, device.dev, device.anchor, device.anchorHigh, resetWorked_anchor, resetWorked_anchorHigh]
  exact ⟨resetWorked_resetInProgress s, resetWorked_state s, rfl, rfl⟩

/-- Settles O7: the units (`resetBlocks_unit`), patrol (`resetBlocks_endsPass`), what the reset leaves (`warmReset_resetView`), the
lanes (`warmReset_lane`), and the end by whether the work of R200 is over (`warmReset_cases`). -/
theorem resetIsIgnoredOrTaken : Obligations.ResetIsIgnoredOrTaken := by
  refine ⟨fun s ignored => exec_reset_ignored ignored, fun s noReset probed layout =>
    ⟨resetBlocks (resetDevice s), warmReset s, exec_reset_taken noReset probed layout, rfl, fun v ended isEnded => ?_,
      fun running => ?_, ?_⟩⟩
  · obtain ⟨gone, stepping, unit⟩ := resetBlocks_unit v (resetDevice s)
    have device := resetDevice_eq s
    generalize resetBlocks (resetDevice s) = e at unit ⊢
    generalize (resetDevice s).dev = d at device
    rw [device] at unit stepping
    subst isEnded
    refine ⟨?_, ?_, ?_, fun k hk inEnded i hi issuing draining => unit.releases stepping hk inEnded hi issuing draining,
      ?_, ?_, ?_, ?_, unit.withdraws, ?_, ?_, fun m hm unbatched w hw => ?_, fun q hq w hw => ?_⟩
    · rw [unit.chan]
      exact reset_queue ..
    · rw [unit.chan]
      exact reset_locks ..
    · rw [unit.chan]
      rfl
    · rw [unit.chan]
      rfl
    · rw [unit.chan]
      rfl
    · rw [unit.chan]
      rfl
    · rw [unit.chan]
      rfl
    · rw [unit.rlt]
      exact reset_moves _
    · rw [unit.rlt]
    · exact unit.ends w (.inl ⟨m, hm, bne_iff_ne.mpr unbatched, hw⟩)
    · exact unit.ends w (.inr ⟨q, hq, hw⟩)
  · exact ⟨_, _, resetBlocks_endsPass running⟩
  · have kept := warmReset_resetView s
    simp only [State.resetView, Prod.mk.injEq] at kept
    obtain ⟨dar, tick, width, lockdown, settings, lif⟩ := kept
    exact ⟨dar, fun l => warmReset_lane l s, tick, width, lockdown, settings, lif, warmReset_runPending s, warmReset_ends,
      warmReset_lasts⟩

end Sys2Proof.Machine
end

section
/-! O1, what a step makes of a waiting command. -/

namespace Sys2Proof.Machine

variable {s : State} {c : Instr} {rest : List Instr}

theorem step_front (h : s.pending = c :: rest) : step s = exec c { s with pending := rest } := by
  unfold step
  split
  · next h' => exact absurd (h.symm.trans h') nofun
  · next c' rest' h' =>
    obtain ⟨rfl, rfl⟩ := List.cons.inj (h.symm.trans h')
    rfl

/-- Settles O1. -/
theorem stepRunsFrontCommand : Obligations.StepRunsFrontCommand := fun _ _ _ h => step_front h

end Sys2Proof.Machine
end
